-- ==== Sys2Proof/Word.lean ====
section
/-! DEFINITION. The words of the block: bytes of host memory and of operands, and the 32-bit words of the
Register Access Port (R12, R52). -/

namespace Sys2Proof

/-- One byte of a byte string (R167). -/
abbrev Byte := BitVec 8

/-- One register word of the Register Access Port (R52). -/
abbrev Word := BitVec 32

/-- A value of `n` as a register word, modulo 2^32. -/
def word (n : Nat) : Word := BitVec.ofNat 32 n

/-- The byte of value `n` modulo 256. -/
def byte (n : Nat) : Byte := BitVec.ofNat 8 n

end Sys2Proof
end

