-- ==== Sys2Proof/Syntax.lean ====
section
/-! DEFINITION. The commands of the Kalek-32: one constructor of `Instr` per row of the table of operations and
events, with the operands that arrive with the event. -/

namespace Sys2Proof

/-- Instance number: 0 to 127 for VI0 to VI127, 128 (0x80) for MI (R41). -/
abbrev InstId := Fin 129
/-- Tenant VI number. -/
abbrev ViId := Fin 128
/-- Submission ring number (R90). -/
abbrev RingId := Fin 4096
/-- Notification ring number (R90). -/
abbrev NrId := Fin 256
/-- One of two ports: HMP0/HMP1 or SP0/SP1. -/
abbrev PortId := Fin 2
/-- Traffic class 0 to 7. -/
abbrev ClassId := Fin 8
/-- Lane 0 to 35 (R219). -/
abbrev LaneId := Fin 36
/-- Physical Forge 0 to 8 (R221). -/
abbrev ForgeId := Fin 9
/-- Digest pipe 0 to 7 (R299). -/
abbrev PipeId := Fin 8
/-- Anvil unit 0 to 3 (R323). -/
abbrev UnitId := Fin 4
/-- Crucible bank 0 to 4 (R353). -/
abbrev BankId := Fin 5
/-- Tamper source TS0 to TS15 (R431). -/
abbrev SrcId := Fin 16
/-- Job tag, one of 32,768 (01, step 4). -/
abbrev Tag := Fin 32768
/-- Slot index of a submission ring (R91). -/
abbrev SlotId := Fin 65536
/-- Parent-class slot of the Crucible (R346). -/
abbrev ParentId := Fin 4096
/-- Context handle (R241). -/
abbrev Handle := BitVec 24

/-- The two access paths of the register map (R511). -/
inductive Path | rap | i3c
  deriving DecidableEq, Repr
/-- The two detectors of a tamper source (R431). -/
inductive Detector | a | b
  deriving DecidableEq, Repr
/-- The two halves of a lockstep pair (R23). -/
inductive Half | a | b
  deriving DecidableEq, Repr
/-- The two entropy sources (R343). -/
inductive EntSrc | a | b
  deriving DecidableEq, Repr
/-- Health tests of an entropy source (R343, R345). -/
inductive EntFail | rct | apt | start
  deriving DecidableEq, Repr
/-- The three schedulers of the dispatcher (13, "Sharing the engines"). -/
inductive Sched | lane | digest | anvil
  deriving DecidableEq, Repr
/-- The privileged FIFOs (R394). -/
inductive PrivFifo | tamper | mailbox | attest
  deriving DecidableEq, Repr
/-- The ordinary FIFOs (R393). -/
inductive OrdFifo | tenant (vi : ViId) | laneSample
  deriving DecidableEq, Repr
/-- Direction of the board mailbox (R518). -/
inductive MboxDir | h2b | b2h
  deriving DecidableEq, Repr
/-- What a write through the RAP carries (R52): RAP_WDATA and RAP_WIC. -/
structure RapWord where
  data : Word
  ic : BitVec 16
  deriving DecidableEq, Repr
/-- The data of a RAP write as a number. -/
def RapWord.toNat (w : RapWord) : Nat := w.data.toNat
/-- A write of doorbell word `k` of a page (R106). -/
structure BellWrite where
  k : Fin 1024
  word : RapWord
  deriving DecidableEq, Repr
/-- A write of HMP_RETURN, with what the loopback of the port shows (R502). -/
structure ReturnWrite where
  word : RapWord
  loopOk : Bool
  deriving DecidableEq, Repr
/-- The path of a read, and for the RAP whether the word passes its check inside the block (R70). -/
structure ReadPath where
  path : Path
  icOk : Bool
  deriving DecidableEq, Repr
/-- A read of an ordinary FIFO through the RAP, and whether the word passes its check inside the block (R70). -/
structure OrdRead where
  which : OrdFifo
  icOk : Bool
  deriving DecidableEq, Repr
/-- The path of a write whose word the command gives, and RAP_WIC for the RAP (R52). -/
structure WritePath where
  path : Path
  ic : BitVec 16
  deriving DecidableEq, Repr
/-- An admission slot: its scheduler, and a bit that has flipped in the stored entry or frame that it takes (R68). -/
structure AdmSlot where
  sch : Sched
  flip : Option Nat
  deriving DecidableEq, Repr
/-- The end of a segment: the stripe of a Comet job, and whether the state restored for it passed its check (R204). -/
structure SegEnd where
  stripe : Fin 16
  stateOk : Bool
  deriving DecidableEq, Repr
/-- What a rate check samples of a Forge: the four lane rates, the sensed supply code and the temperature (R220). -/
structure RateSample where
  rates : BitVec 64
  supply : BitVec 6
  temp : BitVec 8
  deriving DecidableEq, Repr
/-- What a Vigil sample's checks find: the sources whose detectors differ, and those of which a detector fails its self-test (R434,
R452). -/
structure SampleChecks where
  disagree : List SrcId
  failed : List SrcId
  deriving DecidableEq, Repr
/-- What the comparators show of one mesh input against the two sequences that the block drives (R76): it follows its own trace's
sequence, the other's, the wired combination of both or neither, or it stays low or high. -/
inductive MeshIn | own | other | wired | low | high | neither
  deriving DecidableEq, Repr
/-- What a detector of a tamper source reads (R76, R78, R79, R431, R436): the level or report of a plain source, the two inputs of a mesh
pair, the resistance of a lid input in ohms, the cell voltage or the main supply in millivolts, the junction temperature in degrees, the
code of the light or field sensor, or how far the supply left its average for 2 ns or more, in millivolts. -/
inductive PinReading
  | level (active : Bool)
  | mesh (ai bi : MeshIn)
  | lid (ohms : Nat)
  | cell (mv : Int)
  | supply (mv : Int)
  | junction (deg : Int)
  | sensor (code : Nat)
  | glitch (mv : Nat)
  deriving DecidableEq, Repr
/-- Result of a lane's known-answer token (R214). -/
inductive LaneTest | pass | mismatch | residue
  deriving DecidableEq, Repr
/-- How a step of the microcode rotation ends (R239, R525): the handover, a failed test of the spare at step 2, or a fault of the spare while
it takes over at step 3. -/
inductive RotResult | handover | testFail | takeFail
  deriving DecidableEq, Repr

/-- Causes of a pipe fault other than a known-answer mismatch (R322). -/
inductive PipeCause | residue | watchdog
  deriving DecidableEq, Repr
/-- Causes of an Anvil unit fault other than a known-answer mismatch (R342). -/
inductive UnitCause | residue | watchdog | resultCheck | pct
  deriving DecidableEq, Repr

/-- A frame as it arrives on a stream port up to its EOF beat (R48): the sideband of its SOF beat, whether a beat carried SOF inside
it, whether it started later after a rise of its class's SPn_XOFF than R50 allows, its bytes, and SPn_IN_IC, one Integrity Code for
each 16 bytes. -/
structure FrameIn where
  len : Fin 32768
  cls : ClassId
  colour : Fin 4
  inst : ViId
  hint : Handle
  hintV : Bool
  byp : Bool
  sofInside : Bool
  late : Bool
  data : List Byte
  ics : List (BitVec 16)
  deriving DecidableEq, Repr

/-- What one lane measured over a rate window (R219). -/
structure LaneRate where
  rate : BitVec 16
  busy : BitVec 8
  deriving DecidableEq, Repr

/-- What the checks of attach step 2 found (R89): the clock monitors in the bit order of CLK_OK, the Integrity Code
loopbacks of HMP0, HMP1, SP0, SP1 and the RAP, and the Time Port. -/
structure AttachReport where
  clkOk : BitVec 6
  loopOk : BitVec 5
  timeOk : Bool
  deriving DecidableEq, Repr

/-- What the tests and checks of a start-up found (R486): units that failed, fuse words, the read-back of the Silver
root, the levels of ATT_REQ and DET_REQ at MAIN_PG, and attach step 2. -/
structure BootReport where
  forges : List ForgeId
  pipes : List PipeId
  units : List UnitId
  banks : List BankId
  fusesOk : Bool
  silverOk : Bool
  attReq : Bool
  detReq : Bool
  attach : AttachReport
  deriving DecidableEq, Repr

/-- The commands of the block, one per row of the table of operations and events. A command that is a RAP write carries what R52 puts
on its signals, and what a command samples is an operand. `flip` names a bit that has flipped in the stored frame that the command
takes (R68). For TAMPER_SOURCE_CHANGE `meas` is what a measuring source reads, and `level` the level or report of any other. -/
inductive Instr
  /-- MAIN_PG_RISE (R486): Main power good rises and the block runs the Boot start-up sequence and then selects its mode. -/
  | mainPgRise (rep : BootReport)
  /-- MAIN_PG_FALL (R447): Main power good falls and the Vigil domain takes over from the backup cell. -/
  | mainPgFall
  /-- ATT_REQ_RISE (R89): ATT_REQ rises with DET_REQ low and the block runs the attach sequence. -/
  | attReqRise
  /-- DET_REQ_RISE (R87): DET_REQ rises and the block runs the detach sequence through Eclipse to DET_ACK. -/
  | detReqRise
  /-- DET_REQ_FALL (R84): DET_REQ falls while the block is DETACHED and the block lowers DET_ACK, then starts any pending attach. -/
  | detReqFall (attReq : Bool)
  /-- DETACH_DRAIN_LIMIT (R87): DET_DRAIN expires during detach and the block discards and counts the egress frames still held. -/
  | detachDrainLimit
  /-- DOORBELL (R107): A write to a ring's doorbell address starts a forward scan, or records one further scan. -/
  | doorbell (page : InstId) (bell : BellWrite)
  /-- AUTO_SWEEP (R110): The sweep interval expires on an AUTO_SWEEP ring and the block scans it. -/
  | autoSweep (ring : RingId)
  /-- SCAN_CONTINUE (R107): A waiting scan continues once the dispatcher admits entries from a full entry cache. -/
  | scanContinue (ring : RingId)
  /-- HMP_RESPONSE (R43): A response arrives on an HMP and the block accepts the data or completes the owning operation with an error. -/
  | hmpResponse (hmp : PortId) (tag : Fin 2048) (status : Fin 4) (data : List Byte) (ics : List (BitVec 16))
  /-- HMP_TIMEOUT (R47): A response has been outstanding 100 µs and the block declares the HMP failed and moves its instances. -/
  | hmpTimeout (hmp : PortId)
  /-- HMP_MAP_WRITE (R46): The manager changes an instance's HMP bit and the block starts moving that instance. -/
  | hmpMapWrite (reg : Fin 5) (v : RapWord)
  /-- HMP_MOVE_COMPLETE (R46): All responses for the moved instance have arrived and its requests start on the new HMP. -/
  | hmpMoveComplete (inst : InstId)
  /-- HMP_RETURN (R502): The manager requests the return of a failed HMP and the block checks its clock and loopback. -/
  | hmpReturn (hmp : PortId) (r : ReturnWrite)
  /-- RING_SEL_WRITE (R94): A write of RING_SEL selects a ring and sets or clears RANGE_ERR. -/
  | ringSelWrite (page : InstId) (v : RapWord)
  /-- RING_ENABLE (R127): ENABLE written 1 on a submission ring enables it, records a pending enable, or refuses it. -/
  | ringEnable (page : InstId) (v : RapWord)
  /-- RING_STOP (R127): ENABLE written 0 on a submission ring starts its STOPPING or cancels a pending enable. -/
  | ringStop (page : InstId) (v : RapWord)
  /-- RING_STOP_COMPLETE (R127): A stopping ring has nothing in flight and its scan is complete, so it becomes DISABLED or applies a pending enable. -/
  | ringStopComplete (ring : RingId)
  /-- NR_ENABLE (R524): ENABLE written 1 on a notification ring enables it at record 0 or refuses it. -/
  | nrEnable (page : InstId) (v : RapWord)
  /-- NR_DISABLE (R524): ENABLE written 0 on a notification ring disables it, or is refused while a submission ring is bound. -/
  | nrDisable (page : InstId) (v : RapWord)
  /-- NR_OVF_CLEAR (R133): Software clears NR_OVF and the block resumes writing notification records. -/
  | nrOvfClear (page : InstId) (v : RapWord)
  /-- RING_INV (R114): A RING_INV write starts an invalidation of cached, unadmitted entries in a range. -/
  | ringInv (page : InstId) (v : RapWord)
  /-- RING_INV_COMPLETE (R114): In-flight ring reads end, cached entries are discarded, the scan pointer moves back and RING_INV_DONE rises. -/
  | ringInvComplete (ring : RingId)
  /-- CONFIG_REGISTER_WRITE (R95): A write to a register without behaviour of its own is taken or refused with CFG_ERR. -/
  | configRegisterWrite (addr : BitVec 24) (v : Word) (ic : BitVec 16)
  /-- RAP_UNMAPPED_ACCESS (R54): A RAP access to an undefined region completes with RAP_ERR and sets RAP_UNMAPPED. -/
  | rapUnmappedAccess (addr : BitVec 24) (write : Option RapWord)
  /-- SCHEDULER_ROUND (R411): A round boundary of a dispatcher scheduler applies pending weight, burst and limiter changes and refreshes credit. -/
  | schedulerRound (sch : Sched)
  /-- ADMISSION (R158): The dispatcher grants an admission slot to an entry, frame or segment and runs the admission checks. -/
  | admission (slot : AdmSlot)
  /-- VAULT_FETCH (R254): A context miss starts a Vault fetch of the record and its tree nodes. -/
  | vaultFetch (h : Handle)
  /-- VAULT_FETCH_COMPLETE (R254): The Vault reads return, the record is checked, loaded or refused, and waiting operations are released. -/
  | vaultFetchComplete (h : Handle)
  /-- CONTEXT_EVICTION (R256): The block starts evicting a context entry, marking it EVICTING. -/
  | contextEviction (h : Handle)
  /-- EVICTION_SEAL (R256): No admitted operation refers to an evicting entry, so the block seals it into the Vault and frees it. -/
  | evictionSeal (h : Handle)
  /-- SEGMENT_BOUNDARY (R202): A lane reaches a segment boundary and saves its job or keeps the lane. -/
  | segmentBoundary (tag : Tag) (e : SegEnd)
  /-- JOB_COMPLETE (R121): A lane, pipe or Anvil unit finishes an operation and hands it to the reorder buffer. -/
  | jobComplete (tag : Tag)
  /-- COMET_COMBINE (R209): Every stripe of a Comet job has finished and the combiner computes and checks the tag. -/
  | cometCombine (tag : Tag) (checkOk : Bool)
  /-- ENTRY_RETIRE (R121): The reorder buffer retires finished entries in ring order and writes statuses, headers and the done-head. -/
  | entryRetire (ring : RingId)
  /-- NOTIFICATION_RECORD (R131): The read of notification ring memory returns and the block writes the record or an overflow marker. -/
  | notificationRecord (nr : NrId)
  /-- INTERRUPT_HOLDOFF_EXPIRY (R134): A notification ring's holdoff ends and one interrupt covers the records written during it. -/
  | interruptHoldoffExpiry (nr : NrId)
  /-- VECTOR_UNMASK (R422): Software clears a mask bit with PEND set and the block sends one message. -/
  | vectorUnmask (page : InstId) (v : RapWord)
  /-- FAULT_RECORD_WRITE (R420): The read of the fault area returns and the block writes or drops a fault record. -/
  | faultRecordWrite (inst : InstId)
  /-- STREAM_FRAME_EOF (R162): A stream ingress frame's EOF beat arrives and the block checks the sideband, the length and the policer. -/
  | streamFrameEof (port : PortId) (f : FrameIn)
  /-- SIT_LOOKUP (R289): A bucket read of the SA Index Table returns and the block matches, misses or retries. -/
  | sitLookup (id : Nat)
  /-- SIT_LOCK_RETRY (R288): 250 ns after a locked bucket response the block reads the bucket again. -/
  | sitLockRetry (id : Nat)
  /-- SIT_EVENT_WRITE (R293): The read of the SIT event ring returns and the block writes or drops a MISS or PARITY event. -/
  | sitEventWrite (vi : ViId)
  /-- SIT_EVENT_MEMORY_EXPIRY (R292): A remembered key or bucket ages out after 10 ms. -/
  | sitEventMemoryExpiry
  /-- SIT_INTERRUPT_HOLDOFF (R293): The 10 µs interval ends and one interrupt covers the SIT event records written. -/
  | sitInterruptHoldoff (vi : ViId)
  /-- SIT_ENABLE (R283): EN written 1 on the SA Index Table enables it, records a pending enable, or refuses it. -/
  | sitEnable (vi : ViId) (v : RapWord)
  /-- SIT_STOP (R283): EN written 0 on the SA Index Table starts its STOPPING or cancels a pending enable. -/
  | sitStop (vi : ViId) (v : RapWord)
  /-- SIT_STOP_COMPLETE (R283): A stopping table has nothing left in flight and becomes DISABLED or applies a pending enable. -/
  | sitStopComplete (vi : ViId)
  /-- FRAME_COMMIT (R389): A frame's tag is final and its receive checks pass, so the block back-fills the length word and commits it. -/
  | frameCommit (tag : Tag)
  /-- EGRESS_FRAME_START (R402): The egress store starts a committed head frame that fits its gate window, after the release-stage check. -/
  | egressFrameStart (port : PortId) (flip : Option Nat)
  /-- EGRESS_FRAME_DONE (R379): The host accepts a frame's last egress beat and its cells are freed. -/
  | egressFrameDone (port : PortId)
  /-- WATERMARK_WRITE (R380): A write of SPn_WM_c sets the class watermarks or is refused with CFG_ERR. -/
  | watermarkWrite (port : PortId) (cls : ClassId) (v : RapWord)
  /-- GATE_EDGE (R401): A gate list interval ends and the next entry's gate states take effect. -/
  | gateEdge (port : PortId)
  /-- GATE_CHANGE (R404): CHANGE written 1 schedules a takeover of the administrative gate list. -/
  | gateChange (port : PortId) (v : RapWord)
  /-- GATE_ENABLE (R404): EN written 1 on a gate control schedules the first takeover. -/
  | gateEnable (port : PortId) (v : RapWord)
  /-- GATE_DISABLE (R404): EN written 0 opens every gate at once and releases waiting frames. -/
  | gateDisable (port : PortId) (v : RapWord)
  /-- GATE_TAKEOVER (R404): The change time arrives and the new operating list starts at entry 0. -/
  | gateTakeover (port : PortId)
  /-- POLICER_ENABLE (R399): EN written 1 on a policer applies its staged set or records a pending enable. -/
  | policerEnable (v : RapWord)
  /-- POLICER_STOP (R399): EN written 0 on a policer starts its STOPPING or cancels a pending enable. -/
  | policerStop (v : RapWord)
  /-- POLICER_STOP_COMPLETE (R399): The policer's colouring stage is empty and it becomes DISABLED or applies a pending enable. -/
  | policerStopComplete (vi : ViId) (port : PortId)
  /-- POLICER_APPLY (R398): APPLY written 1 checks and applies the staged policer set. -/
  | policerApply (v : RapWord)
  /-- SHAPER_CONFIG (R414): A write of SHP_CTL changes the rate, forgives debt or enables shaping. -/
  | shaperConfig (v : RapWord)
  /-- SHAPER_REFILL (R413): Each microsecond the shaper adds RATE ÷ 8 bytes to its level up to BURST. -/
  | shaperRefill (inst : InstId)
  /-- TENANT_EVENT_WINDOW (R395): A 1 ms window ends and the block writes tenant event FIFO entries. -/
  | tenantEventWindow (vi : ViId)
  /-- LANE_RATE_WINDOW (R219): A lane rate window ends and the block updates LANE_n_RATE and writes lane samples. -/
  | laneRateWindow (rates : List LaneRate)
  /-- PRIVILEGED_FIFO_READ (R394): A read of a privileged FIFO takes its oldest entry with VALID or returns zero. -/
  | privilegedFifoRead (path : ReadPath) (which : PrivFifo)
  /-- ORDINARY_FIFO_READ (R393): A read of an ordinary FIFO takes its oldest entry or sets UNDERRUN. -/
  | ordinaryFifoRead (r : OrdRead)
  /-- COUNTER_READ (R392): A read of SPn_CNT_LO returns the low word and latches the high word. -/
  | counterRead (path : ReadPath) (port : PortId)
  /-- TIME_READ (R517): A read of GLB_TIME_SEC_LO latches GLB_TIME_SEC_HI and GLB_TIME_NS. -/
  | timeRead (path : ReadPath)
  /-- MEAS_READ (R319): A read of a DGC_MEAS word returns the digest, or zero with EARLY_READ set. -/
  | measRead (path : ReadPath) (m : Fin 4) (w : Fin 12)
  /-- I3C_POINTER_WRITE (R57): A 3-byte I3C private write sets the register pointer. -/
  | i3cPointerWrite (ptr : BitVec 24)
  /-- I3C_REGISTER_WRITE (R57): A 7-byte I3C private write sets the pointer and writes a register writable from I3C, or is refused. -/
  | i3cRegisterWrite (ptr : BitVec 24) (v : Word)
  /-- I3C_REFUSED_WRITE (R57): An I3C private write of another length is discarded and sets I3C_REFUSED. -/
  | i3cRefusedWrite (len : Nat)
  /-- I3C_PRIVATE_READ (R57): An I3C private read returns words from the pointer, which advances. -/
  | i3cPrivateRead (words : Nat)
  /-- ENTDAA (R56): The I3C controller assigns a dynamic address by ENTDAA. -/
  | entdaa (addr : BitVec 7)
  /-- SETDASA (R56): The I3C controller assigns a dynamic address from the static address. -/
  | setdasa (addr : BitVec 7)
  /-- ENEC (R56): The ENEC CCC enables in-band interrupts. -/
  | enec
  /-- DISEC (R56): The DISEC CCC disables in-band interrupts. -/
  | disec
  /-- RSTDAA (R56): The RSTDAA CCC resets the dynamic address. -/
  | rstdaa
  /-- SETMWL (R56): The SETMWL CCC sets the maximum write length. -/
  | setmwl (mwl : BitVec 16)
  /-- GETMWL (R56): The GETMWL CCC returns the maximum write length. -/
  | getmwl
  /-- GETMRL (R56): The GETMRL CCC returns the maximum read length. -/
  | getmrl
  /-- GETPID (R56): The GETPID CCC returns the provisioned identifier. -/
  | getpid
  /-- GETBCR (R56): The GETBCR CCC returns the bus characteristics register. -/
  | getbcr
  /-- GETDCR (R56): The GETDCR CCC returns the device characteristics register. -/
  | getdcr
  /-- GETSTATUS (R56): The GETSTATUS CCC returns the target status. -/
  | getstatus
  /-- TP_TOD_SAMPLE (R60): The block samples the Time Port and checks its format and monotonicity. -/
  | tpTodSample (sec : BitVec 48) (ns : BitVec 32)
  /-- TP_PPS_EDGE (R61): A TP_PPS edge sets the calendar and may clear TIME_LOST and step the time base. -/
  | tpPpsEdge (aligned : Bool)
  /-- TP_CLOCK_STOPPED (R60): No TP_CLK edge for 10 µs declares TIME_LOST. -/
  | tpClockStopped
  /-- TP_PPS_MISSING (R60): No TP_PPS edge for 1.5 s declares TIME_LOST. -/
  | tpPpsMissing
  /-- PORT_CLOCK_STOP (R71): No edge on a port clock for 10 µs declares it stopped and sets CLK_STOP. -/
  | portClockStop (clk : Fin 6)
  /-- PORT_CLOCK_RETURN (R71): A stopped port clock runs again and its port resumes. -/
  | portClockReturn (clk : Fin 6)
  /-- SRP_ACK_RISE (R63): The host raises SRP_ACK and the block lowers SRP_REQ. -/
  | srpAckRise
  /-- SRP_ACK_FALL (R63): The host lowers SRP_ACK and the supply request ends. -/
  | srpAckFall
  /-- SRP_TIMEOUT (R64): SRP_ACK has not risen 1 ms after SRP_REQ, so the block sets SRP_TIMEOUT and lowers SRP_REQ. -/
  | srpTimeout
  /-- SRP_TIMEOUT_CLEAR (R64): The manager clears SRP_TIMEOUT and Bellows may request again. -/
  | srpTimeoutClear (v : RapWord)
  /-- BELLOWS_STEP (R233): The Bellows period ends and it wakes, drains, requests a code or sets the limiter. -/
  | bellowsStep
  /-- FORGE_GATE (R234): A draining Forge holds no work and Bellows gates it. -/
  | forgeGate (forge : ForgeId)
  /-- FORGE_WAKE_COMPLETE (R225): A woken GATED Forge finishes its power-up and becomes ACTIVE. -/
  | forgeWakeComplete (forge : ForgeId)
  /-- BELLOWS_FAULT (R237): Bellows faults, requests code 0x18, wakes eight Forges and opens the limiter. -/
  | bellowsFault
  /-- ZEROISE_N_LOW (R82): An external low of 1 µs or more on ZEROISE_N applies the ZEROISE response. -/
  | zeroiseNLow
  /-- BYPASS (R83): The TAP BYPASS instruction. -/
  | bypass
  /-- IDCODE (R83): The TAP IDCODE instruction returns the identification code. -/
  | idcode
  /-- SAMPLE_PRELOAD (R83): The TAP SAMPLE/PRELOAD instruction. -/
  | samplePreload
  /-- EXTEST (R83): The TAP EXTEST instruction, which takes effect only in MANUFACTURE or Test and otherwise raises TAPINTR. -/
  | extest
  /-- CLAMP (R83): The TAP CLAMP instruction, which takes effect only in MANUFACTURE or Test. -/
  | clamp
  /-- HIGHZ (R83): The TAP HIGHZ instruction, which takes effect only in MANUFACTURE or Test. -/
  | highz
  /-- DBG_CHALLENGE (R492): The TAP shifts out a fresh debug challenge. -/
  | dbgChallenge
  /-- DBG_RESPONSE (R492): A debug response is verified and, when accepted, enables debug and enters Test. -/
  | dbgResponse (resp : List Byte)
  /-- TAMPER_SOURCE_CHANGE (R436): A tamper detector becomes active or inactive, or a report source records an occurrence. -/
  | tamperSourceChange (src : SrcId) (det : Detector) (level : Bool) (meas : Option PinReading)
  /-- TAMPER_DEBOUNCE_EXPIRY (R436): A level source has been active for DEBOUNCE and yields a qualified event. -/
  | tamperDebounceExpiry (src : SrcId)
  /-- TAMPER_REARM_EXPIRY (R436): A level source has been inactive for REARM and becomes ready again. -/
  | tamperRearmExpiry (src : SrcId)
  /-- DETECTOR_DISAGREE (R433): The two detectors of a source disagree past the limit, which is one occurrence of DISAGREE. -/
  | detectorDisagree (src : SrcId)
  /-- DETECTOR_SELF_TEST (R434): The block injects a stimulus into a detector once per second. -/
  | detectorSelfTest (src : SrcId) (det : Detector)
  /-- DETECTOR_SELF_TEST_TIMEOUT (R434): A detector does not respond within 20 µs, which is a DISAGREE of kind SELFTEST. -/
  | detectorSelfTestTimeout (src : SrcId) (det : Detector)
  /-- ZEROISE_VERIFY_COMPLETE (R377): The read-back of the cleared banks completes, with ZEROISE_N released or a halt on failure. -/
  | zeroiseVerifyComplete (ok : Bool)
  /-- ZEROISE_FILL_COMPLETE (R377): Burnish finishes filling the banks with DRBG output after a clear. -/
  | zeroiseFillComplete
  /-- FREEZE_THAW (R440): The manager writes 1 to FROZEN and admission resumes. -/
  | freezeThaw (v : RapWord)
  /-- FUSE_REREAD (R431): The 10 s fuse re-read checks every fuse word for FUSEINT. -/
  | fuseReread (ok : Bool)
  /-- VIGIL_SAMPLE (R452): Every 125 ms in Vigil the domain samples each Vigil-armed source. -/
  | vigilSample (reading : List (SrcId × PinReading)) (checks : SampleChecks)
  /-- XTAL_STOP (R79): The crystal stops and the calendar runs from the internal oscillator. -/
  | xtalStop
  /-- BURNISH_SLOT (R358): Burnish re-masks one key slot with a fresh seed. -/
  | burnishSlot (bad : Option BankId)
  /-- BURNISH_PERIOD_END (R359): A Burnish period ends, which sets LATE if the pass has not finished. -/
  | burnishPeriodEnd
  /-- BANK_WATCHDOG (R355): A Crucible bank handshake stays open for 256 periods and the bank fails. -/
  | bankWatchdog (bank : BankId)
  /-- STAGE_FAULT (R213): A lane stage sees an illegal code or its watchdog expires, and the operation is replayed. -/
  | stageFault (lane : LaneId)
  /-- LANE_SELF_TEST (R214): A lane runs its periodic known-answer token. -/
  | laneSelfTest (lane : LaneId) (res : LaneTest)
  /-- RATE_CHECK (R220): Every 10 µs the block compares lane and reference rates for RATE_DEV and HSRATE. -/
  | rateCheck (forge : ForgeId) (ref : BitVec 16) (m : RateSample)
  /-- FORGE_RETIRE_COMPLETE (R225): A retiring Forge finishes its handover and becomes RETIRED. -/
  | forgeRetireComplete (forge : ForgeId)
  /-- FORGE_RESTORE_TEST_DONE (R225): A restoring Forge finishes its tests and becomes SPARE, ACTIVE or FAILED. -/
  | forgeRestoreTestDone (forge : ForgeId) (ok : Bool)
  /-- MICROCODE_ROTATION_STEP (R239): One rotation handover completes and the next Forge is loaded, until the rotation completes. -/
  | microcodeRotationStep (result : RotResult)
  /-- PIPE_SELF_TEST (R322): A digest pipe runs its periodic known-answer job. -/
  | pipeSelfTest (pipe : PipeId) (ok : Bool)
  /-- PIPE_FAULT (R322): A pipe mismatch or watchdog retires the pipe and replays its job. -/
  | pipeFault (pipe : PipeId) (cause : PipeCause)
  /-- ANVIL_SELF_TEST (R342): An Anvil unit runs its periodic known-answer job. -/
  | anvilSelfTest (unit : UnitId) (ok : Bool)
  /-- ANVIL_UNIT_FAULT (R342): An Anvil unit fault retires the unit and replays its job. -/
  | anvilUnitFault (unit : UnitId) (cause : UnitCause)
  /-- ENTROPY_BLOCK_READY (R343): An entropy source completes a conditioned block. -/
  | entropyBlockReady (src : EntSrc)
  /-- ENTROPY_HEALTH_FAIL (R345): An entropy source fails a health test and restarts, or is retired. -/
  | entropyHealthFail (src : EntSrc) (kind : EntFail)
  /-- DRBG_RESEED (R344): The DRBG reseeds at its interval or request count. -/
  | drbgReseed
  /-- DRBG_KAT (R345): The DRBG runs its 10 ms known-answer test and stops on failure. -/
  | drbgKat (ok : Bool)
  /-- DISPATCHER_MISMATCH (R23): A lockstep mismatch of the dispatcher retires the named half or is block-level. -/
  | dispatcherMismatch (half : Option Half)
  /-- ORRERY_FAULT (R36): A lockstep mismatch of Orrery holds it in reset and starts a Yuham restart. -/
  | orreryFault (half : Option Half)
  /-- YUHAM_RESTART_COMPLETE (R37): Yuham is running again, drains the event buffer and resumes the control ring. -/
  | yuhamRestartComplete
  /-- COMMAND_TIMEOUT (R38): A command packet reaches its 2 ms bound and completes as TIMEOUT. -/
  | commandTimeout (slot : SlotId)
  /-- OFFER_TIMEOUT (R371): An OFFERED transport slot unfinished after 10 s becomes EMPTY. -/
  | offerTimeout (slot : ParentId)
  /-- FAULT_MSG_HOLDOFF (R503): The 10 µs fault-message interval ends and one message covers its events. -/
  | faultMsgHoldoff
  /-- COUNTER_CHECKPOINT (R477): The 10-minute timer writes a checkpoint of the lifetime counters. -/
  | counterCheckpoint
  /-- CALENDAR_CHECKPOINT (R481): The hourly timer writes a calendar checkpoint. -/
  | calendarCheckpoint
  /-- VAULT_ENABLE (R265): EN written 1 in VLT_CTL puts the Vault in use when both bases are set. -/
  | vaultEnable (v : RapWord)
  /-- VAULT_DISABLE (R265): EN written 0 in VLT_CTL takes effect once no fetch or seal runs. -/
  | vaultDisable (v : RapWord)
  /-- VAULT_INIT (R265): INIT written 1 starts initialisation of the counter tree. -/
  | vaultInit (v : RapWord)
  /-- VAULT_INIT_COMPLETE (R265): The tree initialisation finishes and INIT_BUSY clears. -/
  | vaultInitComplete
  /-- RESEAL_SWEEP (R476): The Vault engine reseals the next record under the new Vault key. -/
  | resealSweep
  /-- XL_INV_GO (R418): GO starts an IOTLB invalidation of a range, or of the whole instance. -/
  | xlInvGo (v : RapWord)
  /-- XL_INV_DONE (R418): No request under a removed IOTLB entry is outstanding and DONE rises. -/
  | xlInvDone
  /-- GLB_RESET (R489): A write of GLB_RESET with the key 0xB007 runs a block reset and then Boot. -/
  | glbReset (path : Path) (v : RapWord)
  /-- LC_ARM (R493): ARM with TARGET arms a lifecycle advance. -/
  | lcArm (v : RapWord)
  /-- LC_COMMIT (R493): COMMIT advances the lifecycle fuse, or is refused with CFG_ERR. -/
  | lcCommit (v : RapWord) (fuseOk : Bool)
  /-- ECLIPSE_REQUEST (R498): ECLIPSE written 1 quiesces the whole block. -/
  | eclipseRequest (v : RapWord)
  /-- ECLIPSE_QUIESCE_COMPLETE (R498): No operation is in flight and ECLIPSE_DONE rises. -/
  | eclipseQuiesceComplete
  /-- ECLIPSE_END (R498): ECLIPSE written 0 returns the block to its prior mode. -/
  | eclipseEnd (v : RapWord)
  /-- RESUME (R495): RESUME written 1 leaves Zeroised for Service or Degraded, or is refused. -/
  | resume (v : RapWord)
  /-- ORY_ATTEST_GO (R482): GO in ORY_ATTEST_CTL runs an ATTEST into ORY_ATTEST_REPLY without a ring. -/
  | oryAttestGo (path : Path) (v : RapWord)
  /-- H2B_POST (R518): The RAP posts a host-to-board mailbox message. -/
  | h2bPost (path : WritePath)
  /-- H2B_ACK (R518): I3C acknowledges the host-to-board message. -/
  | h2bAck (path : WritePath)
  /-- B2H_POST (R518): I3C posts a board-to-host mailbox message. -/
  | b2hPost (path : WritePath)
  /-- B2H_ACK (R518): The RAP acknowledges the board-to-host message. -/
  | b2hAck (path : WritePath)
  /-- MBOX_WORD_WRITE (R518): A write of a mailbox word is taken, or ignored with OVF set while the direction is FULL. -/
  | mboxWordWrite (path : Path) (dir : MboxDir) (i : Fin 32) (v : RapWord)
  /-- PAD (R103): A PAD entry does nothing and retires as OK. -/
  | pad (tag : Tag)
  /-- SYM_ENC (R149): AEAD or cipher encryption of a memory buffer, optionally in Comet mode. -/
  | symEnc (tag : Tag)
  /-- SYM_DEC (R149): AEAD or cipher decryption of a memory buffer, optionally in Comet mode. -/
  | symDec (tag : Tag)
  /-- MACSEC_TX (R179): Builds the SecTAG, encrypts the frame and appends the ICV. -/
  | macsecTx (tag : Tag)
  /-- MACSEC_RX (R183): Checks the SecTAG, packet number and ICV, then decrypts the frame. -/
  | macsecRx (tag : Tag)
  /-- ESP_OUT (R190): Builds the ESP header and trailer, protects the frame and appends the ICV. -/
  | espOut (tag : Tag)
  /-- ESP_IN (R193): Checks the sequence number and ICV, then removes ESP. -/
  | espIn (tag : Tag)
  /-- DIGEST (R301): Computes a SHA-2, SHA-3 or SHAKE digest. -/
  | digest (tag : Tag)
  /-- MAC (R302): Computes an HMAC or KMAC tag and writes it. -/
  | mac (tag : Tag)
  /-- MAC_VERIFY (R154): Computes an HMAC or KMAC tag and compares it with the expected tag. -/
  | macVerify (tag : Tag)
  /-- COMPARE (R320): Compares two buffers in constant time. -/
  | compare (tag : Tag)
  /-- RSA_PRIV (R329): RSA private-key operation by CRT. -/
  | rsaPriv (tag : Tag)
  /-- RSA_PUB (R329): RSA public-key operation. -/
  | rsaPub (tag : Tag)
  /-- SIGN (R330): ECDSA, EdDSA or ML-DSA signature. -/
  | sign (tag : Tag)
  /-- VERIFY (R330): ECDSA, EdDSA or ML-DSA verification. -/
  | verify (tag : Tag)
  /-- KEY_AGREE (R331): X25519, X448 or ECDH agreement with the secret installed as the next key. -/
  | keyAgree (tag : Tag)
  /-- KEM_ENCAPS (R335): ML-KEM encapsulation with the secret installed as the next key. -/
  | kemEncaps (tag : Tag)
  /-- KEM_DECAPS (R335): ML-KEM decapsulation with the secret installed as the next key. -/
  | kemDecaps (tag : Tag)
  /-- KEYGEN (R336): Generates a key pair and writes the private key wrapped. -/
  | keygen (tag : Tag)
  /-- RANDOM (R337): Writes DRBG output. -/
  | random (tag : Tag)
  /-- NEXT_KEY_DERIVE (R157): Derives the target context's next key under a parent key. -/
  | nextKeyDerive (tag : Tag)
  /-- NEXT_KEY_UNWRAP (R157): Unwraps a wrapped key into the target context's next key. -/
  | nextKeyUnwrap (tag : Tag)
  /-- CONTROL_PAD (R462): A PAD command packet on the control ring does nothing. -/
  | controlPad (slot : SlotId)
  /-- INST_CREATE (R408): Creates an instance, derives its instance key and sets its resources. -/
  | instCreate (slot : SlotId)
  /-- INST_RESIZE (R406): Changes the selected resource groups of a running instance or MI. -/
  | instResize (slot : SlotId)
  /-- INST_RESET (R428): Resets an instance, suppressing its writes until re-enable. -/
  | instReset (slot : SlotId)
  /-- INST_RESET_RELEASE (R427): Releases a disabled instance, zeroising its key and marking its epoch released. -/
  | instResetRelease (slot : SlotId)
  /-- INST_RESET_COMPLETE (R427): A resetting instance has nothing in flight and becomes DISABLED with RESET_HELD. -/
  | instResetComplete (slot : SlotId)
  /-- INST_ENABLE (R429): Enables an instance, completing owned entries as ABORTED_RESET when RESET_HELD is set. -/
  | instEnable (slot : SlotId)
  /-- INST_DISABLE (R427): Stops every ring, the SA Index Table and the policers of an instance. -/
  | instDisable (slot : SlotId)
  /-- INST_DISABLE_ECLIPSE (R430): Quiesces one instance into ECLIPSE for migration. -/
  | instDisableEclipse (slot : SlotId)
  /-- INST_STOP_COMPLETE (R427): A stopping instance has all rings disabled and nothing in flight, so it becomes DISABLED or applies a pending enable. -/
  | instStopComplete (slot : SlotId)
  /-- CTX_LOAD (R276): Fetches a sealed context, or creates one with CREATE. -/
  | ctxLoad (slot : SlotId)
  /-- CTX_EVICT (R256): Evicts a context to the Vault. -/
  | ctxEvict (slot : SlotId)
  /-- CTX_EVICT_DELETE (R257): Evicts a context with VALID = 0 and frees its quota. -/
  | ctxEvictDelete (slot : SlotId)
  /-- CTX_EVICT_FLUSH (R257): Seals a snapshot of a resident context and returns its statistics. -/
  | ctxEvictFlush (slot : SlotId)
  /-- CTX_PIN (R252): Pins or unpins a context. -/
  | ctxPin (slot : SlotId)
  /-- CTX_EXPORT (R277): Marks a context STALE EXPORTED and writes an export blob. -/
  | ctxExport (slot : SlotId)
  /-- CTX_IMPORT (R278): Opens an export blob and seals and loads the context. -/
  | ctxImport (slot : SlotId)
  /-- CTX_REKEY (R467): Sets slot attributes, installs a next key or replaces both keys. -/
  | ctxRekey (slot : SlotId)
  /-- KEY_DERIVE (R369): Derives a parent key into a free parent slot. -/
  | keyDerive (slot : SlotId)
  /-- KEY_UNWRAP (R369): Unwraps an envelope into a free parent slot. -/
  | keyUnwrap (slot : SlotId)
  /-- KEY_UNWRAP_KEM (R368): Unwraps a key sent to the provisioning key into a parent or attestation slot. -/
  | keyUnwrapKem (slot : SlotId)
  /-- KEY_UNWRAP_RESTORE (R352): Restores an absent parent key into its recorded slot. -/
  | keyUnwrapRestore (slot : SlotId)
  /-- KEY_INVALIDATE (R375): Advances a parent's generation and invalidates every key below it. -/
  | keyInvalidate (slot : SlotId)
  /-- HMAC_SLOT_LOAD (R311): Fills, reassigns or clears an HMAC precomputed-state slot. -/
  | hmacSlotLoad (slot : SlotId)
  /-- TAMPER_CFG (R449): Installs a tamper configuration of 18 records. -/
  | tamperCfg (slot : SlotId)
  /-- ATTEST_PLAIN (R374): Writes a PLAIN attestation report. -/
  | attestPlain (slot : SlotId)
  /-- ATTEST_OFFER (R371): Allocates an OFFERED transport slot and writes an OFFER report. -/
  | attestOffer (slot : SlotId)
  /-- ATTEST_RESPOND (R371): Checks a peer OFFER, installs a transport key and writes a RESPOND report. -/
  | attestRespond (slot : SlotId)
  /-- ATTEST_PROV_KEY (R368): Returns the provisioning encapsulation key in a report. -/
  | attestProvKey (slot : SlotId)
  /-- ATTEST_FINISH (R371): Checks a peer RESPOND and installs the transport key in the OFFERED slot. -/
  | attestFinish (slot : SlotId)
  /-- IMAGE_STAGE (R473): Checks, measures and writes a signed image into its inactive slot. -/
  | imageStage (slot : SlotId)
  /-- IMAGE_COMMIT (R474): Makes the staged Yuham or microcode image active. -/
  | imageCommit (slot : SlotId)
  /-- IMAGE_ROLLBACK (R474): Returns to the formerly active image of a kind. -/
  | imageRollback (slot : SlotId)
  /-- FORGE_RETIRE (R226): Starts a planned retirement of a physical Forge. -/
  | forgeRetire (slot : SlotId)
  /-- FORGE_RESTORE (R226): Powers up and tests a retired or failed Forge. -/
  | forgeRestore (slot : SlotId)
  /-- CALIBRATE (R472): Applies a set of calibration items. -/
  | calibrate (slot : SlotId)
  /-- LEDGER_WRITE_CONFIG (R471): Writes a Beroon image as the new inactive configuration copy. -/
  | ledgerWriteConfig (slot : SlotId)
  /-- VAULT_ROTATE (R476): Replaces the Vault key and starts the reseal sweep. -/
  | vaultRotate (slot : SlotId)
  /-- LEDGER_WRITE_CHECKPOINT (R477): Writes a checkpoint of the lifetime counters. -/
  | ledgerWriteCheckpoint (slot : SlotId)
  /-- DIRTY_SWAP (R426): Swaps the active dirty bitmap and names the harvested one. -/
  | dirtySwap (slot : SlotId)
  /-- CLOCK_SET_CAL (R481): Sets the calendar, and the time base while TIME_LOST holds. -/
  | clockSetCal (slot : SlotId)
  /-- CLOCK_SET_STEP (R481): Permits one leap decrease of the Time Port. -/
  | clockSetStep (slot : SlotId)
  /-- FENCE (R480): Orders data-plane writes and event log entries around a fence point. -/
  | fence (slot : SlotId)
  /-- LOG_READ (R479): Copies event log entries to a buffer. -/
  | logRead (slot : SlotId)
  /-- START_UP_COMPLETE (R486): The start-up sequence reaches its last step and the mode and fault controller selects and writes the mode under R487. -/
  | startUpComplete (rep : BootReport)
  /-- ATTACH_SEQUENCE_COMPLETE (R89): The attach checks and Ledger re-read finish and the block raises ATT_ACK or returns to DETACHED with the failing port flagged. -/
  | attachSequenceComplete (rep : AttachReport)
  /-- FORGE_FAILOVER_COMPLETE (R227): The spare has powered up and passed its known-answer test, FRG_MAP is rewritten, work is reissued and the faulted Forge is marked FAILED. -/
  | forgeFailoverComplete (forge : ForgeId) (ok : Bool)
  /-- COMMAND_PACKET_COMPLETE (R464): Orrery finishes the engine actions of an executing command packet and completes it for retirement in ring order. -/
  | commandPacketComplete (slot : SlotId)
  /-- YUHAM_RUNNING_TIMEOUT (R474): A newly committed Yuham image has not reached RUNNING within 30 ms, so the controller restores the pointer, restarts the earlier image and completes IMAGE_COMMIT as TIMEOUT. -/
  | yuhamRunningTimeout
  /-- UNCONTAINED_FAULT (R501): A fault that no lower level contains, such as a fabric handshake that no unit owns, stops the data plane as a block-level fault. -/
  | uncontainedFault
  /-- BOTH_SUPPLIES_LOST (R451): The backup cell fails while main power is absent and the whole retained storage of the Vigil domain is lost. -/
  | bothSuppliesLost
  /-- XTAL_RETURN (R79): A stopped 32.768 kHz crystal runs again and XTAL_LOST clears, so the calendar returns to the crystal. -/
  | xtalReturn
  /-- ZEROISE_N_HIGH (R82): An externally held ZEROISE_N low level is released, which ends the single event of that low and permits reprovisioning. -/
  | zeroiseNHigh
  deriving DecidableEq, Repr

end Sys2Proof
end

