-- ==== Sys2Proof/Decode.lean ====
section
/-! DEFINITION. The command that a word of the opcode table spells. The table gives no row any bits: the events of a
block have no encoding, so no word spells one. -/

namespace Sys2Proof

/-- The command spelled by a word of `nbits` bits of value `w`: none, because no row of the table gives bits. -/
def decodeTableWord (_nbits _w : Nat) : Option Instr := none

end Sys2Proof
end

