-- ==== Sys2Proof/Config.lean ====
section
/-! DEFINITION. What one part fixes and what the spec leaves open: every constant here is opaque, so nothing can be
proved about its value. Each is named in the assumption log (entries 5, 7 and 8). -/

namespace Sys2Proof.Config

/-- The free byte number `n`: DRBG output (R344) and every other value the spec leaves open (log entry 5). -/
opaque freeByte : Nat → Byte

/-- A free natural number below any bound the reader takes it modulo of (log entry 5). -/
opaque freeNat : Nat → Nat

/-- A free truth value, for a check whose result the spec does not let the model compute (log entry 5). -/
opaque freeBool : Nat → Bool

/-- The Copper root, a 256-bit value in ROM (R360; log entry 7). -/
opaque copperRoot : Nat

/-- The Tin root, a 256-bit test value in ROM (R360; log entry 7). -/
opaque tinRoot : Nat

/-- The fused 8-byte serial (R516; log entry 7). -/
opaque serial : Nat

/-- The manufacturer identity of IDCODE, fused (R83; log entry 7). -/
opaque manufacturer : Nat

/-- The static I3C address held in fuses (R56; log entry 7). -/
opaque i3cStatic : Nat

/-- The SHA-384 of the integrator's debug public key in fuses; zero stands for blank fuses (R492; log entry 7). -/
opaque dbgKeyHash : Nat

/-- The provisioned identifier, characteristics and device registers of the I3C target (R56; log entry 7). -/
opaque i3cIdent : Nat → Nat

/-- The body of the Recovery firmware in ROM (R474; log entry 7). -/
opaque romImage : List Byte

/-- The body of a factory image: 0 Yuham, 1 lane microcode (R473, R474; log entry 7). -/
opaque factoryImage : Nat → List Byte

/-- The maximum read length that GETMRL reports (R56; log entry 7). -/
opaque i3cMrl : Nat

/-- The lane rate that calibration predicts at a supply code from a rate measured at another: the calibration items of the two codes where
they are set, the two codes, the rate (R233, R235, R472; log entry 9). -/
opaque rateAt : Option Word → Option Word → Nat → Nat → Nat → Nat

/-- The band of plausible reference rates at a supply code and junction temperature where no calibration item gives one (R220, R472; log
entry 9). -/
opaque rateBand : Nat → Nat → Nat × Nat

/-- The limiter value Bellows computes from the power and temperature budget, the power it estimates and the supply code (R236; log
entry 9). -/
opaque powerLimit : Nat → Nat → Nat → Nat → Nat

/-- The power Bellows estimates (R236; log entry 9). -/
opaque powerEstimate : Nat → Nat

/-- The LIGHT and EMPROBE thresholds, by item ID, where no calibration item gives one (R431, R472; log entry 191). -/
opaque sensorThreshold : Nat → Nat

/-- The Perys ECDSA P-384 public key in ROM that checks images (R473; log entry 7). -/
opaque perysEcdsa : List Byte

/-- The Perys ML-DSA-65 public key in ROM that checks images (R473; log entry 7). -/
opaque perysDsa : List Byte

/-- What the boundary register shifts out for the levels of the pins (R83; log entry 163). -/
opaque boundaryScan : List Bool → List Byte

/-- One step of the 31-bit LFSR that drives the mesh traces in Vigil (R76; log entry 164). -/
opaque lfsrStep : BitVec 31 → BitVec 31

end Sys2Proof.Config
end

