-- ==== Sys2Proof/Machine/State.lean ====
section
/-! DEFINITION. The state of the block as plain data: every register, queue, store and pin the spec names, grouped by
unit, with the queue of waiting commands, and the state right after reset. Tables with few entries in use are lists of
(key, value) pairs in one canonical form (`Machine/Tables.lean`). -/

namespace Sys2Proof.Machine

/-- A sparse table: keys strictly rising, no entry equal to the table's default. -/
abbrev Tbl (α : Type) := List (Nat × α)

/-- The block stops with no fault: every event of the table has an effect or none. -/
inductive Fault
  deriving DecidableEq, Repr

/-- Why a command has no meaning. -/
inductive Refusal
  /-- Raised by an arm of `exec` whose meaning is not written; safe, no claim covers it. -/
  | notModelled (mnemonic : String)
  deriving DecidableEq, Repr

/-! ### Modes, faults and the registers of the global group (16, 17) -/

/-- The eight modes (R483). -/
inductive Mode | vigil | boot | recovery | service | degraded | eclipse | test | zeroised
  deriving DecidableEq, Repr

/-- How far the start-up sequence of R486 has run. -/
inductive BootStage | atStart | awaitAttach | finished
  deriving DecidableEq, Repr

/-- The mode and fault controller (R484, R496, R500, R501, R503); `bootZero` marks a start-up that a zeroisation ended (R486). -/
structure ModeSt where
  mode : Mode := .boot
  prior : Mode := .vigil
  cause : Nat := 0
  eclipseDone : Bool := false
  endAsked : Bool := false
  zFrom : Mode := .boot
  dpStopped : Bool := false
  halted : Bool := false
  stage : BootStage := .atStart
  bootZero : Bool := false
  cfgErr : Bool := false
  fault : Word := 0
  msgAddr : Nat := 0
  msgData : Word := 0
  msgHeld : Bool := false
  msgOwed : Bool := false
  deriving DecidableEq, Repr

/-- A debug challenge shifted out and not yet used (R492). -/
structure Challenge where
  bytes : List Byte := []
  time : Nat := 0
  deriving DecidableEq, Repr

/-- The global registers without behaviour of their own, the board mailbox and the lifecycle control (R493, R518). -/
structure GlbSt where
  scratch : Tbl Word := []
  h2b : Tbl Word := []
  b2h : Tbl Word := []
  h2bFull : Bool := false
  b2hFull : Bool := false
  mboxOvf : Bool := false
  lcTarget : Nat := 0
  lcArmed : Option (Nat × Nat) := none
  lcCfgErr : Bool := false
  dbgFails : Nat := 0
  dbgLocked : Bool := false
  challenge : Option Challenge := none
  instSel : Nat := 0
  deriving DecidableEq, Repr

/-- The time base and the Time Port checks (R59 to R61, R517). Times are nanoseconds. -/
structure TimeSt where
  now : Nat := 0
  lost : Bool := true
  goodEdges : Nat := 0
  lastTod : Nat := 0
  leap : Option Nat := none
  latchRap : Nat := 0
  lostRap : Bool := true
  latchI3c : Nat := 0
  lostI3c : Bool := true
  deriving DecidableEq, Repr

/-! ### Ports (02) -/

/-- Attachment states (R84). -/
inductive AttState | detached | attaching | attached | detaching
  deriving DecidableEq, Repr

/-- Steps of the detach sequence still to come (R87). -/
inductive DetachStage | idle | drainWork | drainEgress | answers
  deriving DecidableEq, Repr

/-- The instruction register of the TAP (R83). -/
inductive TapIr | bypass | idcode | samplePreload | extest | clamp | highz | challenge | response
  deriving DecidableEq, Repr

/-- Port configuration, status, pins, and what the RAP, the I3C target and the TAP returned last (R52, R57, R72 to
R75, R81 to R84). After a reset the TAP holds BYPASS (DESIGN CHOICE, log entry 178: the spec names no instruction in force then). -/
structure PortSt where
  icx : BitVec 5 := 0
  miHmp : Bool := false
  detDrain : Nat := 2
  lock : Bool := false
  clkOk : BitVec 6 := 0
  fault : Word := 0
  hmpMap : BitVec 128 := 0xAAAAAAAAAAAAAAAAAAAAAAAAAAAAAAAA
  att : AttState := .detached
  attReq : Bool := false
  attAck : Bool := false
  detReq : Bool := false
  detAck : Bool := false
  detach : DetachStage := .idle
  detachDue : Bool := false
  zDriven : Bool := false
  zExt : Bool := false
  clamped : Bool := true
  i3cPtr : BitVec 24 := 0
  i3cDyn : Option (BitVec 7) := none
  ibiEn : Bool := false
  mwl : BitVec 16 := 0
  ibi : Nat := 0
  i3cOut : List Word := []
  cccOut : List Byte := []
  rapData : Word := 0
  rapErr : Bool := false
  rapRic : BitVec 16 := 0
  tapIr : TapIr := .bypass
  tapPins : Bool := false
  tapOut : List Byte := []
  srpReq : Bool := false
  srpAck : Bool := false
  srpCode : Nat := 0x18
  deriving DecidableEq, Repr

/-! ### Host memory ports and translation (R41 to R47, R415 to R420) -/

/-- Request operations of an HMP (R41). -/
inductive ReqOp | read | write | writeMask | atomicOr
  deriving DecidableEq, Repr

/-- On whose behalf the block made a write, or which read buffer a read fills. -/
inductive Owner
  | rd (id off : Nat)
  | walk (inst : Nat)
  | ringWr (ring slot : Nat)
  | doneHead (ring : Nat)
  | notif (nr : Nat)
  | jobWr (tag : Nat)
  | cmdWr (slot : Nat)
  | vec (inst : Nat)
  | fltWr (inst : Nat)
  | sitWr (inst : Nat)
  | sitEvtWr (inst : Nat)
  | vaultWr (h : Nat)
  | dirty (inst : Nat)
  | msg
  deriving DecidableEq, Repr

/-- How far the table walk of a waiting access has come (R417); `stale` marks one that an invalidation overtook, whose leaf is not
kept (R418), and `asked` one whose descriptor read is outstanding. -/
structure Walk where
  level : Nat := 1
  table : Nat := 0
  rd : Bool := true
  wr : Bool := true
  stale : Bool := false
  asked : Bool := false
  deriving DecidableEq, Repr

/-- An access of one transfer (within a 64-byte line, or 128 or 256 aligned bytes) that waits to be issued (R30, R41, R44): its
instance, whether its address is a host physical address, whether it counts as a write of the data plane (R24), how far its walk has
come, and the physical address that its walk found or under which it had been issued on an HMP that failed (R47); `fresh` marks one
that a walk found and no request has used. `seq` numbers the accesses in the order they were queued. -/
structure Access where
  inst : Nat
  op : ReqOp
  addr : Nat
  phys : Bool := false
  len : Nat := 0
  data : List Byte := []
  own : Owner
  dp : Bool := true
  walk : Option Walk := none
  pa : Option (Nat × Bool) := none
  fresh : Bool := false
  seq : Nat := 0
  deriving DecidableEq, Repr

/-- A request outstanding on an HMP (R41): `beats` is REQ_BEATS, the byte enables are a 64-bit mask for each beat alike, and `ic` is
REQ_IC, four codes a beat; `len` bytes from the I/O virtual address `iova` are those the access names, and `dp` and `seq` are the
access's. -/
structure Req where
  tag : Nat
  op : ReqOp
  addr : Nat
  inst : Nat
  data : List Byte := []
  be : Nat := 0
  beats : Nat := 0
  ic : List (BitVec 16) := []
  iova : Nat := 0
  len : Nat := 0
  viaTlb : Bool := false
  own : Owner
  dp : Bool := true
  seq : Nat := 0
  deriving DecidableEq, Repr

/-- Result of a read of several lines. -/
inductive RdRes
  | pending
  | ok
  | xlate (cause iova level : Nat)
  | ic
  deriving DecidableEq, Repr

/-- What a read is for. -/
inductive RdOwn
  | ringHdr (ring : Nat)
  | ringBody (ring : Nat)
  | job (tag part : Nat)
  | cmd (slot part : Nat)
  | notif (nr : Nat)
  | flt (inst : Nat)
  | sit (id : Nat)
  | sitEvt (vi : Nat)
  | vault (h part : Nat)
  deriving DecidableEq, Repr

/-- A read in progress or complete: the bytes arrived so far and how many lines are missing. -/
structure RdBuf where
  id : Nat
  own : RdOwn
  base : Nat := 0
  len : Nat := 0
  data : List Byte := []
  left : Nat := 0
  res : RdRes := .pending
  bad : Bool := false
  deriving DecidableEq, Repr

/-- One host memory port: in service, its outstanding requests, the times of its Integrity Code errors and its eight
counters (R47, R519). -/
structure HmpSt where
  failed : Bool := false
  out : List Req := []
  icTimes : List Nat := []
  cnt : Tbl Nat := []
  deriving DecidableEq, Repr

/-- A leaf translation held by the IOTLB (R416): page size in address bits. -/
structure TlbEnt where
  inst : Nat
  asgen : Nat
  bits : Nat
  page : Nat
  pa : Nat
  rd : Bool
  wr : Bool
  deriving DecidableEq, Repr

/-- Both HMPs, the accesses waiting, the reads in progress and the translation unit; `invReqs` are the accesses, by `seq`, whose
requests an invalidation waits for (R418). -/
structure MemSt where
  hmp0 : HmpSt := {}
  hmp1 : HmpSt := {}
  waiting : List Access := []
  nextAcc : Nat := 1
  moving : List Nat := []
  bufs : List RdBuf := []
  nextId : Nat := 0
  tlb : List TlbEnt := []
  invLo : Word := 0
  invCtl : Word := 0
  invDone : Bool := true
  invReqs : List Nat := []
  deriving DecidableEq, Repr

/-! ### Rings (03) -/

/-- States of a submission ring (R95). -/
inductive RState | disabled | enabled | stopping | pendingEnable
  deriving DecidableEq, Repr

/-- What a ring's scan is doing (R107, R111). -/
inductive ScanSt | idle | reading | waiting
  deriving DecidableEq, Repr

/-- A status word's fields (R102). -/
structure Res where
  status : Nat := 0
  detail : Nat := 0
  result : Nat := 0
  deriving DecidableEq, Repr

/-- An entry the block has taken: its header slot, the slots it covers, its header as read, its body, the header slots
and headers of the chained entries it is made of (R104), and the status its structure already decided. `ics` are the Integrity Codes
that the entry cache holds with the body (R68). -/
structure Entry where
  slot : Nat := 0
  slots : Nat := 1
  hdr : Nat := 0
  body : List Byte := []
  chain : List (Nat × Nat) := []
  verdict : Option Res := none
  ics : List (BitVec 16) := []
  deriving DecidableEq, Repr

/-- An admitted entry in the reorder buffer (R121); `ext` lists the output extents of a finished decrypting entry (R429). -/
structure RobItem where
  ent : Entry
  fin : Option Res := none
  replyX : Nat := 0
  iv : List Byte := []
  ext : List (Nat × Nat) := []
  deriving DecidableEq, Repr

/-- A done-head: the slot, LAP and RETIRED it shows, and the number of the first access made after it stood (R122, R123). -/
structure DhMark where
  seq : Nat := 0
  slot : Nat := 0
  lap : Bool := true
  retired : Nat := 0
  deriving DecidableEq, Repr

/-- A submission ring (R92 to R132). `endFlags` are the FLAGS of the record it reaches DISABLED with, `marks` the done-heads before the
entries whose writes may still fail and `cap` the one that no later done-head passes (R123), and `chainBad` holds where a body of the
open chain failed its Integrity Code (R126). `drain` holds while the block completes owned entries up to the first header it does
not own, with status `stopAs` (R87, R127, R429); `zero` lists, by header slot, the output extents of decrypting entries that
were admitted before a reset point (R429). -/
structure Ring where
  size : Nat := 0
  base : Nat := 0
  auto : Bool := false
  st : RState := .disabled
  invDone : Bool := true
  fault : Bool := false
  endFlags : Nat := 0
  cfgErr : Bool := false
  nrn : Nat := 0
  nrEn : Bool := false
  burst : Nat := 0
  chained : Bool := false
  scan : Nat := 0
  lap : Bool := true
  scanSt : ScanSt := .idle
  further : Bool := false
  hdrRetry : Bool := false
  cache : List Entry := []
  chain : List (Nat × Nat × List Byte) := []
  chainBad : Bool := false
  rob : List RobItem := []
  doneHead : Nat := 0
  dhLap : Bool := true
  retired : Nat := 0
  marks : List DhMark := []
  cap : Option DhMark := none
  since : Nat := 0
  flags : Nat := 0
  invFirst : Nat := 0
  invCount : Nat := 0
  noScan : Bool := false
  invBell : Bool := false
  bell : Bool := false
  stopAs : Nat := 0x24
  reading : Option Entry := none
  drain : Bool := false
  zero : List (Nat × List (Nat × Nat)) := []
  deriving DecidableEq, Repr

/-- A notification record the block has decided to write (R131). -/
structure NrRec where
  ring : Nat
  doneHead : Nat
  dhLap : Bool
  flags : Nat
  count : Nat
  retired : Nat
  now : Bool
  deriving DecidableEq, Repr

/-- A notification ring (R95, R96, R131 to R134, R524). `sent` is the time of its last interrupt while its holdoff may run, `owed` the
vector of the interrupt due at the holdoff's end and whether every record it covers is a data ring's, `late` the last records of
rings that reached DISABLED while none could be written, and `rdRec` and `rdFor` the first record that the read in progress shows and
the number of records decided before it. -/
structure Notif where
  size : Nat := 0
  base : Nat := 0
  enabled : Bool := false
  half : Bool := false
  scan : Nat := 0
  fault : Bool := false
  cfgErr : Bool := false
  ovf : Bool := false
  vec : Nat := 0
  irqEn : Bool := false
  holdoff : Nat := 0
  sent : Option Nat := none
  owed : Option (Nat × Bool) := none
  recs : List NrRec := []
  late : List NrRec := []
  rdRec : Nat := 0
  rdFor : Nat := 0
  rdId : Option Nat := none
  retry : Bool := false
  deriving DecidableEq, Repr

/-! ### Contexts (07) -/

/-- State of a resident context (R243). -/
inductive CState | active | stale | evicting
  deriving DecidableEq, Repr

/-- A resident entry of the context cache (R243 to R246). `w` is SSCI or W, `nA` and `nB` are the 64-bit fields at
bytes 24 and 32 (packet numbers, T, THRESHOLD, OK_CNT at byte 24 of memory kinds), `sci` is bytes 16 to 23 (SCI, the
SPIs, or INV_CTR). -/
structure Ctx where
  handle : Nat := 0
  pin : Bool := false
  st : CState := .active
  cause : Nat := 0
  keySize : Nat := 0
  owner : Nat := 0
  kind : Nat := 0
  gen : Nat := 0
  role : Nat := 0
  other : Nat := 0
  anA : Nat := 0
  anB : Nat := 0
  replay : Bool := false
  es : Bool := false
  sc : Bool := false
  scb : Bool := false
  co : Nat := 0
  esn : Bool := false
  pnOut : Bool := false
  failCnt : Nat := 0
  w : Nat := 0
  sci : Nat := 0
  nA : Nat := 0
  nB : Nat := 0
  tail : List Byte := []
  lastUse : Nat := 0
  failTotal : Nat := 0
  zeroAt : Bool := false
  deriving DecidableEq, Repr

/-! ### Jobs (04, 05) -/

/-- Where an operation came from. -/
inductive JobSrc
  | ring (ring slot : Nat)
  | stream (port id : Nat)
  deriving DecidableEq, Repr

/-- The engine place of an operation: a lane, a digest pipe, an Anvil unit, or none yet. -/
inductive Place | none | lane (forge lane : Nat) | pipe (p : Nat) | unit (u : Nat)
  deriving DecidableEq, Repr

/-- How far an operation has come: waiting for a context from the Vault or for an eviction to end, collecting its source,
computed by its opcode's row, or finished. -/
inductive Phase | held | reading | computed | finished
  deriving DecidableEq, Repr

/-- What follows the elements of a list read so far (R143, R144): a page still to be read, the end of the list, or a page or element
that breaks its rules. -/
inductive SgTail | page | last | bad
  deriving DecidableEq, Repr

/-- A source or destination buffer of a job: its pieces, direct or from the list pages read so far, with their total length (R143,
R144); `pageAddr` and `pageCnt` name the page that comes next, and `taken` counts the bytes whose read has been asked for. -/
structure Buf where
  listed : Bool := false
  elems : List (Nat × Nat) := []
  count : Nat := 0
  tail : SgTail := .last
  pages : Nat := 0
  pageAddr : Nat := 0
  pageCnt : Nat := 0
  taken : Nat := 0
  deriving DecidableEq, Repr

/-- What a job's engine computes beside the text: nothing, a GHASH, a Poly1305, SHA-2 on 32-bit or 64-bit words, or a Keccak sponge of a
rate and domain suffix. -/
inductive EngAlg | none | ghash | poly | sha (wide : Bool) | sponge (rate suffix : Nat)
  deriving DecidableEq, Repr

/-- The string that a job authenticates or hashes, and what goes with it: its ciphertext begins at byte `base`, which is byte `head` of
the input stream and byte `lead` of the output; output is released in multiples of `unit` bytes, `aad` is the AAD's length, `nonce` the
nonce, `slot` and `num` the slot and number of a frame, `given` the tag received, and `want` the bytes of the tag. -/
structure Script where
  alg : EngAlg := .none
  text : List Byte := []
  head : Nat := 0
  lead : Nat := 0
  base : Nat := 0
  unit : Nat := 1
  aad : Nat := 0
  nonce : List Byte := []
  slot : Nat := 0
  num : Nat := 0
  given : List Byte := []
  want : Nat := 0
  deriving DecidableEq, Repr

/-- What an engine holds of a job at a segment boundary (R201, R306): the positions reached in the source, which give the counter or
tweak, and in the destination, the whole blocks of the string absorbed, the GHASH or Poly1305 accumulator, the CBC chaining block, and
the chaining value or Keccak state. -/
structure Eng where
  src : Nat := 0
  dst : Nat := 0
  pos : Nat := 0
  acc : Nat := 0
  chain : List Byte := []
  words : List Nat := []
  deriving DecidableEq, Repr

/-- Where a stripe of a Comet job stands: its chunk, the segment of it, the partial of the chunk so far, and acc of its full chunks
(R207, R209, R211). -/
structure StripePos where
  chunk : Nat := 0
  seg : Nat := 0
  part : Nat := 0
  acc : Nat := 0
  deriving DecidableEq, Repr

/-- A stripe of a Comet job (R206, R211): its lane, where it stands, its last saved state, its save slot while it is saved, and whether
the writes of its present segment are handed to the HMP (R223). -/
structure Stripe where
  place : Place := .none
  pos : StripePos := {}
  back : StripePos := {}
  saved : Bool := false
  slotIx : Nat := 0
  handed : Bool := false
  fin : Bool := false
  deriving DecidableEq, Repr

/-- A Comet job (R206 to R209): its lanes, the logical Forges of its set, the Forge whose combiner it holds, the powers H^1024 and
H^(1024 L) of that combiner, its stripes, the partial of its last chunk once returned, and whether the combiner has finished. -/
structure Comet where
  lanes : Nat
  forges : List Nat
  holder : Nat
  h1024 : Nat := 0
  hL : Nat := 0
  stripes : List Stripe := []
  tail : Option Nat := none
  combined : Bool := false
  deriving DecidableEq, Repr

/-- An admitted operation (R27, R120): its owner, its body, the context with the generations it was admitted with, the packet number or
IV it consumed, its buffers, its place, its output and its outcome. `other` is what check 8 said at admission of the slot that a
received frame may also select, `sc` and `eng` the string it works off and its engine's state, `back` its last saved state after so many
segments, `handed` marks a segment whose writes wait to be accepted (R223), `ends` the outcome that its list or its padding has decided,
`pipe` and `dslot` the pipe and digest save slot of an encrypt-then-MAC frame (R313, R315), and `outQ` the output still to be written.
`verified` marks a received frame that passed its ICV, `asked` a KEYGEN whose reseed (R344) has been asked for, and `ops` is what the
operand memory of its Anvil unit keeps of the job from one turn to the next (R323 to R325). -/
structure Job where
  tag : Nat
  inst : Nat
  src : JobSrc
  opc : Nat
  flags : Nat := 0
  body : List Byte := []
  handle : Nat := 0
  ctxEnt : Option Nat := none
  adm : Ctx := {}
  other : Option Res := none
  keySlot : Nat := 0
  keyGen : Nat := 0
  keyA : List Byte := []
  keyB : List Byte := []
  hslot : Option Nat := none
  hgen : Nat := 0
  parent : Nat := 0
  pn : Nat := 0
  iv : List Byte := []
  srcBuf : Buf := {}
  dstBuf : Buf := {}
  frame : List Byte := []
  reads : List (Nat × Nat) := []
  phase : Phase := .reading
  place : Place := .none
  saved : Bool := false
  slotIx : Nat := 0
  segs : Nat := 1
  segDone : Nat := 0
  sc : Script := {}
  eng : Eng := {}
  back : Nat × Eng := (0, {})
  handed : Bool := false
  pipe : Option Nat := none
  dslot : Option Nat := none
  ends : Option Res := none
  out : List Byte := []
  outQ : List (Nat × Nat) := []
  post : List (Nat × List Byte) := []
  written : List (Nat × Nat) := []
  res : Option Res := none
  stop : Option Res := none
  verified : Bool := false
  asked : Bool := false
  egress : Option (Nat × Nat × Nat) := none
  colour : Nat := 0
  comet : Option Comet := none
  ops : List Byte := []
  deriving DecidableEq, Repr

/-! ### Forges, lanes and Bellows (06) -/

/-- States of a physical Forge (R225, R230). -/
inductive FState | active | spare | gated | retiring | retired | failed | restoring
  deriving DecidableEq, Repr

/-- A physical Forge (R225 to R231). `failing` holds from a fault to the end of its failover, `waking` while a gated or spare
Forge powers up; `cmd` is the slot of the command packet that waits for it. -/
structure Forge where
  st : FState := .active
  pend : Bool := false
  logical : Nat := 0
  mcode : Nat := 0
  fault : Nat := 0
  failovers : Nat := 0
  failing : Bool := false
  waking : Bool := false
  draining : Bool := false
  cmd : Option Nat := none
  deriving DecidableEq, Repr

/-- A lane's registers and the history its checks need (R213, R219, R220); `code` is the supply code at which its rate was
measured. -/
structure Lane where
  rate : Nat := 0
  code : Nat := 0x18
  busy : Nat := 0
  faults : Nat := 0
  times : List Nat := []
  devs : Nat := 0
  deriving DecidableEq, Repr

/-- A microcode rotation in progress (R239, R240): `loaded` are the physical Forges that hold the new image. -/
structure Rotation where
  version : Nat
  raise : Bool := false
  svn : Nat := 0
  slot : Nat := 0
  loaded : List Nat := []
  deriving DecidableEq, Repr

/-- Bellows and its registers (R233 to R237). -/
structure Bellows where
  en : Bool := true
  step : Nat := 4
  minForges : Nat := 2
  minCode : Nat := 4
  maxCode : Nat := 0x28
  period : Nat := 5
  pmax : Nat := 240
  tj : Nat := 125
  code : Nat := 0x18
  limit : Nat := 0xFF
  pendLimit : Nat := 0xFF
  autoLimit : Nat := 0xFF
  manLimit : Nat := 0xFF
  pwrEst : Nat := 0
  faulted : Bool := false
  started : Bool := false
  slots : Nat := 0
  lastBacklog : Nat := 0
  rises : Nat := 0
  low : Nat := 0
  deriving DecidableEq, Repr

/-- A source of work of an instance: one of its submission rings, or its ingress queue on a stream port (R411). -/
inductive Source | ring (ring : Nat) | stream (port : Nat)
  deriving DecidableEq, Repr

/-- Where a scheduler stands in its round (R411): the first instance of the round, those still to be served in order, the source that is
served with what is left of its burst, and for each instance the source it served last. -/
structure Turn where
  first : Nat := 0
  todo : List Nat := []
  cur : Option Source := none
  left : Nat := 0
  last : Tbl (Option Source) := []
  deriving DecidableEq, Repr

/-- All Forges and lanes, the Forge map (one entry per logical Forge, 15 for none), and the lane sample FIFO; `refOut` marks the reference
oscillators outside their band (R220), `booted` that Boot has brought the Forges up, and `rounds` the schedulers whose round is in progress (R28, R411). -/
structure FabricSt where
  forges : Tbl Forge := []
  lanes : Tbl Lane := []
  map : List Nat := [0, 1, 2, 3, 4, 5, 6, 7]
  booted : Bool := false
  bellows : Bellows := {}
  rotation : Option Rotation := none
  fifo : List Nat := []
  fifoLast : Nat := 0
  fifoUnder : Bool := false
  fifoOver : Bool := false
  fifoEn : Bool := false
  halfA : Bool := true
  halfB : Bool := true
  rounds : BitVec 3 := 0
  turnLane : Turn := {}
  turnDigest : Turn := {}
  turnAnvil : Turn := {}
  used256 : Nat := 0
  slots256 : Nat := 0
  refOut : BitVec 9 := 0
  deriving DecidableEq, Repr

/-! ### The Vault (07) -/

/-- A Vault fetch in progress (R254): its handle, the reads it waits for, and the instance for which it waits for an entry (R251). -/
structure Fetch where
  h : Nat
  rids : List Nat
  wants : Option Nat := none
  deriving DecidableEq, Repr

/-- A seal in progress (R256, R257): of an entry that is evicted or deleted, or of a snapshot (FLUSH), with the reads of its tree
nodes. -/
structure Evict where
  h : Nat
  delete : Bool := false
  flush : Bool := false
  rids : List Nat := []
  deriving DecidableEq, Repr

/-- The Vault's registers and engine (R251 to R265, R476). `misses` are the handles asked for, each with the instance that asked;
`initNext` counts the nodes that an initialisation has written, and `sweep` is the next handle of a reseal. `nodes` holds the on-block
copies of levels 4 to 7; `lost` holds after a loss of main power, when a copy that is absent must be read and verified again (R263, R264).
`gens` is the generation that each free cache entry last held (R26). -/
structure VaultSt where
  recBase : Word := 0
  treeBase : Word := 0
  en : Bool := false
  autoFetch : Bool := true
  freeMin : Nat := 4
  lock : Bool := false
  offAsked : Bool := false
  initBusy : Bool := false
  initNext : Nat := 0
  fetches : List Fetch := []
  misses : List (Nat × Nat) := []
  evicts : List Evict := []
  fault : Word := 0
  faultHandle : Nat := 0
  nodes : Tbl (List Nat) := []
  lost : Bool := false
  gens : Tbl Nat := []
  sweep : Nat := 0
  resealRids : Option (Nat × List Nat) := none
  deriving DecidableEq, Repr

/-! ### Digest complex and Anvil (09, 10) -/

/-- An HMAC precomputed-state slot (R308 to R312): both states are stored XORed with the words of `mask`; `clearAt` marks one whose clear
waits for the operations admitted with it (R312, R375). -/
structure HSlot where
  valid : Bool := false
  hash : Nat := 0
  owner : Nat := 0xFF
  gen : Nat := 0
  parent : Nat := 0
  pgen : Nat := 0
  inner : List Nat := []
  outer : List Nat := []
  mask : List Nat := []
  clearAt : Bool := false
  failCnt : Nat := 0
  pending : Bool := false
  deriving DecidableEq, Repr

/-- A measurement in progress on a pipe (R305, R317): its number, its pipe and the bytes of its image. -/
structure MeasRun where
  m : Nat
  pipe : Nat
  len : Nat := 0
  deriving DecidableEq, Repr

/-- The digest complex (R299 to R322); `noOwner` is what OWNER of a slot without an owner reads. -/
structure DigestSt where
  pipeUp : BitVec 8 := 0
  fault : Word := 0
  early : Bool := false
  measDone : BitVec 4 := 0
  slotSel : Nat := 0
  noOwner : Nat := 0
  runs : List MeasRun := []
  slots : Tbl HSlot := []
  meas : Tbl (List Byte) := []
  deriving DecidableEq, Repr

/-- States of the DRBG (R345). -/
inductive DrbgState | unseeded | starting | running | single | stopped
  deriving DecidableEq, Repr

/-- The Anvil units, the DRBG and the entropy sources (R323 to R345). -/
structure AnvilSt where
  up : BitVec 4 := 0
  fault : Word := 0
  drbg : DrbgState := .unseeded
  reseedMs : Nat := 100
  lock : Bool := false
  aUp : Bool := false
  bUp : Bool := false
  aBuf : Nat := 0
  bBuf : Nat := 0
  esFault : Word := 0
  reseeds : Nat := 0
  requests : Nat := 0
  wantReseed : Bool := false
  aFails : List Nat := []
  bFails : List Nat := []
  deriving DecidableEq, Repr

/-! ### Crucible (11) -/

/-- STATE of a key slot (R350). -/
inductive KState | empty | valid | invalid | offered
  deriving DecidableEq, Repr

/-- KIND of a key slot (R350). -/
inductive KKind | none | inst | parent | transport | system | context
  deriving DecidableEq, Repr

/-- A key slot with its entry of the key-handle table (R350), the key value that its share pair combines to, and the
mask seed of that pair (R353); an OFFERED slot keeps the SHA-384 of its report (R371). -/
structure KeySlot where
  st : KState := .empty
  kind : KKind := .none
  owner : Nat := 0
  depth : Nat := 0
  bits : Nat := 0
  gen : Nat := 0
  use : Nat := 1
  parent : Nat := 0
  pgen : Nat := 0
  wraps : Nat := 0
  absent : Bool := false
  key : List Byte := []
  seed : List Byte := []
  expSeq : Nat := 0
  impSeq : Nat := 0
  offer : List Byte := []
  deriving DecidableEq, Repr

/-- The root in force (R360). -/
inductive Root | none | copper | silver | tin
  deriving DecidableEq, Repr

/-- Lifecycle fuses (R360). -/
inductive Lifecycle | manufacture | deployed | terminated
  deriving DecidableEq, Repr

/-- A clear of the zeroise line in progress (R376, R377). -/
inductive ZRun | idle | verify (halt : Bool) | fill
  deriving DecidableEq, Repr

/-- The Crucible (R346 to R377). Context slots are keyed by their index, 2e and 2e + 1 for cache entry e. -/
structure CrucSt where
  parents : Tbl KeySlot := []
  system : Tbl KeySlot := []
  ctxKeys : Tbl KeySlot := []
  bankUp : BitVec 5 := 0
  root : Root := .none
  rootKey : List Byte := []
  debug : Bool := false
  rootFault : Bool := false
  bankFault : Nat := 0
  corrected : Nat := 0
  wordFails : List (Nat × Nat) := []
  period : Nat := 10
  lock : Bool := false
  stalled : Bool := false
  late : Bool := false
  passes : Nat := 0
  nextSlot : Nat := 0
  passDone : Bool := false
  overrun : Bool := false
  ksel : Nat := 0
  zLast : Nat := 0
  zFail : Bool := false
  zFill : Bool := false
  zCount : Nat := 0
  zRun : ZRun := .idle
  deriving DecidableEq, Repr

/-! ### Streams, policers, gates (12) -/

/-- What a stored ingress frame is waiting for. -/
inductive InSt | lookup (id : Nat) | named (h : Nat) | admitted (tag : Nat)
  deriving DecidableEq, Repr

/-- A frame in an ingress store (R378) with the Integrity Codes of its words (R68). -/
structure InFrame where
  id : Nat
  f : FrameIn
  ics : List (BitVec 16) := []
  colour : Nat
  prio : Nat
  st : InSt
  deriving DecidableEq, Repr

/-- A frame in an egress store: its sequence and class, the cells it holds, and its bytes with the length word once
committed (R379, R385, R388), and the Integrity Codes of its words (R67, R68); `desc` marks the output of a stream job. -/
structure EgFrame where
  seq : Nat
  cls : Nat
  inst : Nat
  tag : Option Nat := none
  cells : Nat := 0
  committed : Bool := false
  started : Bool := false
  stub : Bool := false
  desc : Bool := false
  held : Bool := false
  prio : Nat := 0
  bytes : List Byte := []
  ics : List (BitVec 16) := []
  deriving DecidableEq, Repr

/-- Watermarks of a class (R380). -/
structure Wm where
  low : Nat := 0x100
  high : Nat := 0x16C
  deriving DecidableEq, Repr

/-- An entry of a gate list (R401). -/
structure GateEnt where
  gates : Nat := 0
  ns : Nat := 0
  deriving DecidableEq, Repr

/-- The gate of an egress port (R400 to R405). -/
structure Gate where
  en : Bool := false
  lostAct : Nat := 0
  ovh : Nat := 0x18
  line : Nat := 0x190
  cfgErr : Bool := false
  pending : Option Nat := none
  selEntry : Nat := 0
  selOper : Bool := false
  admin : Tbl GateEnt := []
  oper : List GateEnt := []
  cycle : Nat := 0
  len : Nat := 0
  baseSec : Nat := 0
  baseNs : Nat := 0
  operCycle : Nat := 0
  operStart : Nat := 0
  cur : Nat := 0xFF
  deriving DecidableEq, Repr

/-- A stream port with its two stores, counters and gate. -/
structure StreamSt where
  stubEn : Bool := false
  cfgErr : Bool := false
  wm : Tbl Wm := []
  ctrlEt : List Word := [0x8007888E, 0x80058902, 0x80038809, 0]
  cntSel : Word := 0
  cntHiRap : Word := 0
  cnt : Tbl Nat := []
  ing : List InFrame := []
  inLatch : BitVec 8 := 0
  eg : List EgFrame := []
  egLatch : BitVec 8 := 0
  nextSeq : Nat := 0
  offered : List Byte := []
  offeredIc : List (BitVec 16) := []
  gate : Gate := {}
  deriving DecidableEq, Repr

/-- A policer (R397 to R399). Bucket levels are in bits × 10^-3 of a byte: byte levels scaled by 8000. -/
structure Policer where
  st : RState := .disabled
  aware : Bool := false
  redMark : Bool := false
  cfgErr : Bool := false
  cir : Nat := 0
  pir : Nat := 0
  cbs : Nat := 0
  pbs : Nat := 0
  sCir : Nat := 0
  sPir : Nat := 0
  sCbs : Nat := 0
  sPbs : Nat := 0
  tc : Nat := 0
  tp : Nat := 0
  last : Nat := 0
  deriving DecidableEq, Repr

/-- Both stream ports and the policers (keyed by 2 × VI + port). -/
structure StreamsSt where
  p0 : StreamSt := {}
  p1 : StreamSt := {}
  policers : Tbl Policer := []
  polSel : Word := 0
  nextFrame : Nat := 0
  deriving DecidableEq, Repr

/-! ### The SA Index Table (08) -/

/-- A lookup in progress (R288, R289), with the controls as they stood when it started (R282). `stamped` lists the entries of its bucket
whose LAST_HIT has been written since then, each with the seconds (R294). -/
structure Lookup where
  id : Nat
  port : Nat
  frame : Nat
  typ : Nat
  an : Nat
  key : Nat
  bucket : Nat
  reads : Nat := 1
  rid : Nat := 0
  again : Bool := false
  missEn : Bool := false
  ageEn : Bool := false
  vec : Nat := 0
  irqEn : Bool := false
  stamped : List (Nat × Nat) := []
  deriving DecidableEq, Repr

/-- A SIT event waiting to be written (R291), with the vector of its interrupt where one follows. -/
structure SitEvt where
  bytes : List Byte
  vec : Option Nat := none
  deriving DecidableEq, Repr

/-- A key or bucket the block reported within 10 ms (R292). -/
structure SitMem where
  inst : Nat
  bucket : Bool
  typ : Nat
  an : Nat
  key : Nat
  time : Nat
  deriving DecidableEq, Repr

/-- The SA Index Table registers of a VI (R282, R283, R293). -/
structure Sit where
  size : Nat := 0
  base : Nat := 0
  seed : Nat := 0
  evtBase : Nat := 0
  missEn : Bool := false
  ageEn : Bool := false
  evtEn : Bool := false
  st : RState := .disabled
  cfgErr : Bool := false
  evtOvf : Bool := false
  evtSize : Nat := 0
  vec : Nat := 0
  irqEn : Bool := false
  evtNext : Nat := 0
  events : List SitEvt := []
  rdId : Option Nat := none
  wr : Option Bool := none
  holding : Bool := false
  owed : Option Nat := none
  deriving DecidableEq, Repr

/-- Lookups and the event memory shared by all tables (R292). -/
structure SitShared where
  lookups : List Lookup := []
  mem : List SitMem := []
  nextId : Nat := 0
  deriving DecidableEq, Repr

/-! ### Virtual instances (13) -/

/-- States of an instance (R427). -/
inductive IState | unused | disabled | enabled | stopping | resetting | pendingEnable | eclipse
  deriving DecidableEq, Repr

/-- A fault record waiting to be written (R420). -/
structure FltRec where
  iova : Nat
  cause : Nat
  access : Nat
  level : Nat
  source : Nat
  ring : Nat
  slot : Nat
  sec : Nat
  ns : Nat
  deriving DecidableEq, Repr

/-- One instance: its state (R427), resources (R406), page registers (13), shaper (R413), dirty logging (R423) and
tenant event FIFO (R395). `shpLevel` counts eighths of a byte. `fltWr` holds while the writes of a fault
record wait to be issued, false once one of them faulted, and `fltOwed` is the vector of the interrupt due at the end of the 10 µs (R420). `pendBase` is the shut-down that a pending enable waits for. -/
structure Inst where
  st : IState := .unused
  pendBase : IState := .unused
  resetHeld : Bool := false
  dlFault : Bool := false
  gen : Nat := 0
  asgen : Nat := 0
  sqFirst : Nat := 0
  sqCount : Nat := 0
  nqFirst : Nat := 0
  nqCount : Nat := 0
  ctxQuota : Nat := 0
  slotQuota : Nat := 0
  tagQuota : Nat := 0
  weight : Nat := 0
  burst : Nat := 0
  newWeight : Nat := 0
  newBurst : Nat := 0
  comet : Nat := 0
  iotlb : Nat := 0
  translate : Bool := false
  winGib : Nat := 0
  winBase : Nat := 0
  xlRoot : Nat := 0
  dlA : Nat := 0
  dlB : Nat := 0
  dlEn : Bool := false
  dlActive : Bool := false
  dlSet : List Nat := []
  vecs : Tbl (Nat × Word) := []
  mask : BitVec 8 := 0xFF
  pend : BitVec 8 := 0
  pendCp : BitVec 8 := 0
  lost : Bool := false
  fltEn : Bool := false
  fltOvf : Bool := false
  fltIrq : Bool := false
  fltVec : Nat := 0
  fltNext : Nat := 0
  fltDropped : Nat := 0
  fltRecs : List FltRec := []
  fltRd : Option Nat := none
  fltWr : Option Bool := none
  fltTime : Option Nat := none
  fltOwed : Option Nat := none
  ringSel : Nat := 0
  selNr : Bool := false
  rangeErr : Bool := false
  dhBase : Word := 0
  crLane : Nat := 0
  crDigest : Nat := 0
  crAnvil : Nat := 0
  shpRate : Nat := 0
  shpEn : Bool := false
  shpErr : Bool := false
  shpBurst : Nat := 0x100000
  shpLevel : Int := 0
  sit : Sit := {}
  evts : List Nat := []
  evtLast : Nat := 0
  evtUnder : Bool := false
  evtOver : Bool := false
  evtCounts : List (Nat × Nat) := []
  cmd : Option Nat := none
  deriving DecidableEq, Repr

/-! ### Tamper and Vigil (14) -/

/-- A tamper configuration record (R448). -/
structure TRec where
  arm : Bool := true
  vigilArm : Bool := false
  response : Nat := 1
  n : Nat := 1
  w : Nat := 1
  debounce : Nat := 1
  rearm : Nat := 1
  polarity : Bool := false
  deriving DecidableEq, Repr

/-- What a source's chain holds (R436 to R438): its detectors, readiness, the pending debounce, the times of its bounces
and its count window. `recA` and `recB` count the occurrences of a report source that one path has recorded and the other
not yet (R433); `quiet` counts inactive samples in Vigil (R452). `pinA` and `pinB` are what the detectors read last,
and `told` marks a disagreement that has been recorded and lasts (R433). -/
structure Src where
  a : Bool := false
  b : Bool := false
  pinA : PinReading := .level false
  pinB : PinReading := .level false
  cls : Nat := 0
  ready : Bool := true
  waiting : Bool := false
  bounces : List Nat := []
  ignored : Bool := false
  opened : Bool := false
  start : Nat := 0
  count : Nat := 0
  quiet : Nat := 0
  test : Option Detector := none
  recA : Nat := 0
  recB : Nat := 0
  told : Bool := false
  deriving DecidableEq, Repr

/-- The tamper chain (R431 to R450). Sources are keyed 0 to 17. -/
structure TamperSt where
  recs : Tbl TRec := []
  fused : Tbl (Bool × Nat) := []
  disabled : BitVec 16 := 0
  src : Tbl Src := []
  fifo : List Nat := []
  frozen : Bool := false
  last : Nat := 0
  evtOvf : Bool := false
  locked : Bool := false
  fusedTable : Bool := true
  alarms : Nat := 0
  chatter : BitVec 16 := 0
  disagree : BitVec 16 := 0
  selftest : BitVec 16 := 0
  cfgSel : Nat := 0
  deriving DecidableEq, Repr

/-- A retained log entry (R454). -/
structure VLog where
  sec : Nat
  source : Nat
  kind : Nat
  response : Nat
  cls : Nat
  deriving DecidableEq, Repr

/-- The Vigil domain's retained storage (R451 to R455). `vArm` is the Vigil fields of the configuration, `treeRoot`
the root node of the counter tree, `lfsr` the generator of the mesh sequences (R76), `samples` the samples since the last self-test (R434). -/
structure VigilSt where
  root : Option (List Byte) := none
  treeRoot : List Nat := [0, 0, 0, 0, 0, 0, 0, 0]
  retainLost : Bool := false
  calLost : Bool := false
  calGone : Bool := false
  vZeroise : Bool := false
  log : List VLog := []
  fresh : Nat := 0
  logLost : Nat := 0
  logSel : Nat := 0
  zpend : Bool := false
  sec : Nat := 0
  frac : Nat := 0
  xtalLost : Bool := false
  lfsr : BitVec 31 := 1
  samples : Nat := 0
  vArm : Tbl TRec := []
  src : Tbl Src := []
  deriving DecidableEq, Repr

/-! ### Orrery and the Ledger (15) -/

/-- States of Orrery (ORY_STATUS). -/
inductive OState | reset | booting | running | restarting | rom | stopped
  deriving DecidableEq, Repr

/-- An event log entry (R479); the argument is 12 bytes. -/
structure LogEnt where
  seq : Nat := 0
  time : Nat := 0
  cls : Nat := 0
  code : Nat := 0
  arg : Nat := 0
  deriving DecidableEq, Repr

/-- A command packet that Orrery has started (R459, R461, R464): the buffers it reads, the stage it has reached, whether it has
passed its commit point, its outcome, and what it keeps between its stages. `probed` holds once the Vault has answered that no
valid record stands under the handle to be created, `wants` names the instance for which it waits for an entry (R251),
and `written` lists what it wrote to memory (R442). -/
structure Packet where
  slot : Nat
  opc : Nat
  flags : Nat
  ctx : Nat
  ps : List Nat
  reads : List (Nat × Nat) := []
  stage : Nat := 0
  probed : Bool := false
  wants : Option Nat := none
  keep : List Byte := []
  committed : Bool := false
  waits : Bool := false
  res : Option Res := none
  replyX : Nat := 0
  aux : Nat := 0
  marks : List Nat := []
  written : List (Nat × Nat) := []
  deriving DecidableEq, Repr

/-- An image slot of the Ledger (R473, R474). -/
structure Image where
  usable : Bool := false
  version : Nat := 0
  svn : Nat := 0
  digest : List Byte := []
  staged : Bool := false
  prev : Bool := false
  deriving DecidableEq, Repr

/-- A configuration copy of the Ledger: its bytes (R469). -/
abbrev ConfigCopy := List Byte

/-- A slot table record (R352). -/
structure SlotRec where
  st : KState := .empty
  kind : KKind := .none
  owner : Nat := 0
  depth : Nat := 0
  bits : Nat := 0
  use : Nat := 1
  gen : Nat := 0
  fpr : Nat := 0
  deriving DecidableEq, Repr

/-- The lifetime counters of R477. -/
structure Lifetime where
  hours : Nat := 0
  boots : Nat := 0
  tamper : Tbl Nat := []
  burnish : Nat := 0
  failovers : Tbl Nat := []
  deriving DecidableEq, Repr

/-- The counters of the Ledger's counter area that Test puts aside (R477). -/
structure Kept where
  vkeyGen : Nat := 0
  treeEpoch : Nat := 0
  cursor : Nat := 0
  reseal : Bool := false
  epochs : Tbl (Nat × Bool) := []
  wraps : Tbl Nat := []
  live : Lifetime := {}
  deriving DecidableEq, Repr

/-- A calendar checkpoint: seconds, nanoseconds and the event log SEQ (R468). -/
structure CalCk where
  sec : Nat := 0
  ns : Nat := 0
  seq : Nat := 0
  deriving DecidableEq, Repr

/-- The Ledger (R468 to R481). `live` counts on-block, `saved` is the last checkpoint. `wraps` maps a key fingerprint
to its ceiling (R478), `wear` a 4 KiB sector to its erase count (R477). -/
structure LedgerSt where
  copyA : ConfigCopy := []
  copyB : ConfigCopy := []
  active : Bool := false
  aValid : Bool := false
  bValid : Bool := false
  factory : Bool := false
  writeFail : Bool := false
  wear : Tbl Nat := []
  seq : Nat := 0
  yA : Image := { usable := true }
  yB : Image := {}
  mA : Image := { usable := true }
  mB : Image := {}
  yActive : Bool := false
  mActive : Bool := false
  yFallback : Bool := false
  mFallback : Bool := false
  yRom : Bool := false
  yMin : Nat := 0
  mMin : Nat := 0
  vkeyGen : Nat := 0
  treeEpoch : Nat := 0
  cursor : Nat := 0
  reseal : Bool := false
  epochs : Tbl (Nat × Bool) := []
  slotTab : Tbl SlotRec := []
  envs : Tbl (List Byte) := []
  wraps : Tbl Nat := []
  log : List LogEnt := []
  nextSeq : Nat := 1
  calCk : List CalCk := []
  live : Lifetime := {}
  saved : Lifetime := {}
  kept : Option Kept := none
  deriving DecidableEq, Repr

/-- Orrery, its registers and its packets (R457 to R464, R482). -/
structure OrrerySt where
  st : OState := .reset
  halfA : Bool := true
  halfB : Bool := true
  mbxOvf : Bool := false
  restarts : Nat := 0
  ctrlRing : Nat := 0
  lock : Bool := false
  mailbox : List Nat := []
  verifier : Nat := 0
  attProv : Bool := false
  attStatus : Nat := 0
  nonce : Tbl Word := []
  reply : List Nat := []
  packets : List Packet := []
  evtBuf : List LogEnt := []
  evtLost : Nat := 0
  commit : Option (Nat × Bool) := none
  calib : Tbl (Option Word) := []
  deriving DecidableEq, Repr


/-! ### The whole machine -/

/-- The state of the block. `life` and `silver` are the lifecycle fuses and the Silver root fuses (none while blank);
`pending` is the queue of waiting commands, oldest first; `freeCtr` picks the free values (log entry 5). -/
structure State where
  pending : List Instr := []
  freeCtr : Nat := 0
  life : Lifecycle := .manufacture
  silver : Option (List Byte) := none
  modes : ModeSt := {}
  glb : GlbSt := {}
  time : TimeSt := {}
  port : PortSt := {}
  mem : MemSt := {}
  rings : Tbl Ring := []
  notifs : Tbl Notif := []
  jobs : List Job := []
  fab : FabricSt := {}
  ctx : Tbl Ctx := []
  vault : VaultSt := {}
  dig : DigestSt := {}
  anv : AnvilSt := {}
  cruc : CrucSt := {}
  str : StreamsSt := {}
  sit : SitShared := {}
  insts : Tbl Inst := []
  tam : TamperSt := {}
  vigil : VigilSt := {}
  ory : OrrerySt := {}
  ldg : LedgerSt := {}
  deriving DecidableEq, Repr

/-- The machine right after reset: every register at the reset value its table gives (the factory default where that is
Image), in Boot before its first step, with blank fuses, a new Ledger and nothing queued (log entry 4). -/
def State.reset : State := {}

end Sys2Proof.Machine
end

