-- ==== Sys2Proof/Machine/Tables.lean ====
section
/-! DEFINITION. Reading and writing a sparse table in its canonical form: keys strictly rising, no entry equal to the
table's default, so that equal tables are equal data. -/

namespace Sys2Proof.Machine

variable {α : Type} [DecidableEq α]

/-- The entry of key `k`, or the default where the table lists none. -/
def tget (t : Tbl α) (d : α) (k : Nat) : α :=
  match t with
  | [] => d
  | (j, v) :: r => if j = k then v else tget r d k

/-- The table without any entry of key `k`. -/
def tdel (t : Tbl α) (k : Nat) : Tbl α :=
  match t with
  | [] => []
  | (j, v) :: r => if j = k then tdel r k else (j, v) :: tdel r k

/-- The table with `v` listed at key `k`, before the first larger key. -/
def tput (t : Tbl α) (k : Nat) (v : α) : Tbl α :=
  match t with
  | [] => [(k, v)]
  | (j, w) :: r => if j = k then (k, v) :: r else if k < j then (k, v) :: (j, w) :: r else (j, w) :: tput r k v

/-- Writes `v` at key `k`; writing the default removes the entry. -/
def tset (t : Tbl α) (d : α) (k : Nat) (v : α) : Tbl α :=
  if v = d then tdel t k else tput t k v

/-- Changes the entry of key `k` by `f`. -/
def tmod (t : Tbl α) (d : α) (k : Nat) (f : α → α) : Tbl α :=
  tset t d k (f (tget t d k))

/-- Changes every listed entry by `f`, dropping those that become the default. -/
def tmap (t : Tbl α) (d : α) (f : Nat → α → α) : Tbl α :=
  (t.map fun p => (p.1, f p.1 p.2)).filter fun p => p.2 ≠ d

/-- The canonical form: keys strictly rising and no entry equal to the default. -/
def twf (t : Tbl α) (d : α) : Bool :=
  match t with
  | [] => true
  | [(_, v)] => v ≠ d
  | (j, v) :: (k, w) :: r => decide (j < k) && decide (v ≠ d) && twf ((k, w) :: r) d

/-- The keys listed. -/
def tkeys {β : Type} (t : Tbl β) : List Nat := t.map Prod.fst

end Sys2Proof.Machine
end

