-- ==== Sys2Proof/Machine/Bits.lean ====
section
/-! DEFINITION. Bit fields, byte strings and their little-endian values (R12), and the two check codes of the spec. -/

namespace Sys2Proof.Machine

/-- The field of `n` that starts at bit `lo` and is `w` bits wide. -/
def fld (n lo w : Nat) : Nat := n / 2 ^ lo % 2 ^ w

/-- Bit `i` of `n`. -/
def bit (n i : Nat) : Bool := n / 2 ^ i % 2 == 1

/-- A truth value as a bit. -/
def b2n (b : Bool) : Nat := if b then 1 else 0

/-- `n` with the field at bit `lo`, `w` bits wide, replaced by `v`. -/
def setFld (n lo w v : Nat) : Nat := n - fld n lo w * 2 ^ lo + v % 2 ^ w * 2 ^ lo

/-- The value of a byte string, byte 0 least significant (R12). -/
def leNat : List Byte → Nat
  | [] => 0
  | b :: r => b.toNat + 256 * leNat r

/-- `len` bytes of `n`, byte 0 least significant (R12). -/
def natLe : Nat → Nat → List Byte
  | 0, _ => []
  | len + 1, n => byte n :: natLe len (n / 256)

/-- The value of a byte string, byte 0 most significant. -/
def beNat (l : List Byte) : Nat := l.foldl (fun a b => a * 256 + b.toNat) 0

/-- `len` bytes of `n`, most significant first. -/
def natBe (len n : Nat) : List Byte := (natLe len n).reverse

/-- Bytes `off` to `off + len - 1` of a byte string, zeros beyond its end. -/
def bytesAt (l : List Byte) (off len : Nat) : List Byte :=
  let r := (l.drop off).take len
  r ++ List.replicate (len - r.length) 0

/-- The little-endian value of `len` bytes at `off`. -/
def leAt (l : List Byte) (off len : Nat) : Nat := leNat (bytesAt l off len)

/-- `l` with the bytes at `off` replaced by `d`. -/
def putBytes (l : List Byte) (off : Nat) (d : List Byte) : List Byte :=
  l.take off ++ d ++ l.drop (off + d.length)

/-- A string of `n` zero bytes. -/
def zeros (n : Nat) : List Byte := List.replicate n 0

/-- Bytewise exclusive or of two strings, as long as the shorter. -/
def xorBytes (a b : List Byte) : List Byte := List.zipWith (· ^^^ ·) a b

/-- The bytes of ASCII characters. -/
def ascii (s : String) : List Byte := s.toList.map fun c => byte c.toNat

/-- `n` rounded up to a multiple of `m`. -/
def roundUp (n m : Nat) : Nat := (n + m - 1) / m * m

/-- The number of units of `m` that cover `n`. -/
def ceilDiv (n m : Nat) : Nat := (n + m - 1) / m

/-- Whether every byte is zero. -/
def allZero (l : List Byte) : Bool := l.all (· == 0)

/-- The string cut into pieces of `n` bytes, the last one possibly shorter. -/
def chunks (fuel n : Nat) (l : List Byte) : List (List Byte) :=
  match fuel with
  | 0 => []
  | f + 1 => if l.isEmpty then [] else l.take n :: chunks f n (l.drop n)

/-- The string cut into 16-byte blocks, the last one possibly shorter. -/
def blocks16 (l : List Byte) : List (List Byte) := chunks (l.length / 16 + 1) 16 l

/-- One step of the CRC-16 of R66 over a bit. -/
def crc16Bit (crc : Nat) : Nat :=
  if crc ≥ 0x8000 then (crc * 2 % 0x10000) ^^^ 0x8BB7 else crc * 2

/-- One step of the CRC-16 of R66 over a byte. -/
def crc16Byte (crc : Nat) (b : Byte) : Nat :=
  crc16Bit (crc16Bit (crc16Bit (crc16Bit (crc16Bit (crc16Bit (crc16Bit (crc16Bit (crc ^^^ (b.toNat * 256)))))))))

/-- The CRC-16 with generator 0x8BB7, initial value 0xFFFF, no reflection and no final XOR (R66). -/
def crc16 (l : List Byte) : Nat := l.foldl crc16Byte 0xFFFF

/-- The Integrity Code of a 128-bit word at an address of an instance (R66). -/
def integrityCode (data : List Byte) (addr inst : Nat) : BitVec 16 :=
  BitVec.ofNat 16 (crc16 (bytesAt data 0 16 ++ natLe 8 (addr / 16 * 16) ++ [byte inst]))

/-- One step of the reflected CRC-32C over a bit. -/
def crc32cBit (crc : Nat) : Nat := if crc % 2 = 1 then (crc / 2) ^^^ 0x82F63B78 else crc / 2

/-- One step of the CRC-32C over a byte. -/
def crc32cByte (crc : Nat) (b : Byte) : Nat :=
  crc32cBit (crc32cBit (crc32cBit (crc32cBit (crc32cBit (crc32cBit (crc32cBit (crc32cBit (crc ^^^ b.toNat))))))))

/-- CRC-32C (R286, R470, R479). -/
def crc32c (l : List Byte) : Nat := (l.foldl crc32cByte 0xFFFFFFFF) ^^^ 0xFFFFFFFF

/-- A sum of flags, each with the number of its bit. -/
def flags (l : List (Bool × Nat)) : Nat := (l.map fun x => b2n x.1 * 2 ^ x.2).sum

end Sys2Proof.Machine
end

