-- ==== Sys2Proof/Machine/Ops.lean ====
section
/-! DEFINITION. The named operations every command is written with: reading and writing the parts of the state, time,
free values, the event log, the fault message and the mode. -/

namespace Sys2Proof.Machine

/-! ### Parts of the state -/

/-- The number of the manager instance, REQ_INST 0x80 (R41). -/
def mi : Nat := 128

/-- Instance `i`. -/
def State.inst (s : State) (i : Nat) : Inst := tget s.insts {} i
/-- Replaces instance `i`. -/
def State.setInst (s : State) (i : Nat) (v : Inst) : State := { s with insts := tset s.insts {} i v }
/-- Changes instance `i`. -/
def State.modInst (s : State) (i : Nat) (f : Inst → Inst) : State := s.setInst i (f (s.inst i))

/-- Submission ring `r`. -/
def State.ring (s : State) (r : Nat) : Ring := tget s.rings {} r
/-- Replaces submission ring `r`. -/
def State.setRing (s : State) (r : Nat) (v : Ring) : State := { s with rings := tset s.rings {} r v }
/-- Changes submission ring `r`. -/
def State.modRing (s : State) (r : Nat) (f : Ring → Ring) : State := s.setRing r (f (s.ring r))

/-- Notification ring `n`. -/
def State.nr (s : State) (n : Nat) : Notif := tget s.notifs {} n
/-- Replaces notification ring `n`. -/
def State.setNr (s : State) (n : Nat) (v : Notif) : State := { s with notifs := tset s.notifs {} n v }
/-- Changes notification ring `n`. -/
def State.modNr (s : State) (n : Nat) (f : Notif → Notif) : State := s.setNr n (f (s.nr n))

/-- The admitted operation with tag `t`. -/
def State.job? (s : State) (t : Nat) : Option Job := s.jobs.find? fun j => j.tag == t
/-- Changes the operation with tag `t`. -/
def State.modJob (s : State) (t : Nat) (f : Job → Job) : State :=
  { s with jobs := s.jobs.map fun j => if j.tag == t then f j else j }
/-- Frees tag `t`. -/
def State.dropJob (s : State) (t : Nat) : State := { s with jobs := s.jobs.filter fun j => j.tag != t }

/-- Cache entry `e` of the context cache. -/
def State.ctxAt (s : State) (e : Nat) : Ctx := tget s.ctx {} e
/-- Replaces cache entry `e`; the default entry frees it. -/
def State.setCtx (s : State) (e : Nat) (c : Ctx) : State := { s with ctx := tset s.ctx {} e c }
/-- Changes cache entry `e`. -/
def State.modCtx (s : State) (e : Nat) (f : Ctx → Ctx) : State := s.setCtx e (f (s.ctxAt e))
/-- The cache entry that holds the context of a handle (R242). -/
def State.ctxOf (s : State) (h : Nat) : Option Nat := (s.ctx.find? fun p => p.2.handle == h).map Prod.fst

/-- Physical Forge `m`. -/
def State.forge (s : State) (m : Nat) : Forge := tget s.fab.forges {} m
/-- Changes the fabric of Forges. -/
def State.modFab (s : State) (f : FabricSt → FabricSt) : State := { s with fab := f s.fab }
/-- Changes physical Forge `m`. -/
def State.modForge (s : State) (m : Nat) (f : Forge → Forge) : State :=
  s.modFab fun b => { b with forges := tmod b.forges {} m f }
/-- Lane `n`. -/
def State.lane (s : State) (n : Nat) : Lane := tget s.fab.lanes {} n
/-- Changes lane `n`. -/
def State.modLane (s : State) (n : Nat) (f : Lane → Lane) : State :=
  s.modFab fun b => { b with lanes := tmod b.lanes {} n f }

/-- Changes the port group. -/
def State.modPort (s : State) (f : PortSt → PortSt) : State := { s with port := f s.port }
/-- Changes the mode controller. -/
def State.modModes (s : State) (f : ModeSt → ModeSt) : State := { s with modes := f s.modes }
/-- Changes the global group. -/
def State.modGlb (s : State) (f : GlbSt → GlbSt) : State := { s with glb := f s.glb }
/-- Changes the time base. -/
def State.modTime (s : State) (f : TimeSt → TimeSt) : State := { s with time := f s.time }
/-- Changes the host memory ports. -/
def State.modMem (s : State) (f : MemSt → MemSt) : State := { s with mem := f s.mem }
/-- Changes the Vault. -/
def State.modVault (s : State) (f : VaultSt → VaultSt) : State := { s with vault := f s.vault }
/-- Changes the digest complex. -/
def State.modDig (s : State) (f : DigestSt → DigestSt) : State := { s with dig := f s.dig }
/-- Changes the Anvil group. -/
def State.modAnv (s : State) (f : AnvilSt → AnvilSt) : State := { s with anv := f s.anv }
/-- Changes the Crucible. -/
def State.modCruc (s : State) (f : CrucSt → CrucSt) : State := { s with cruc := f s.cruc }
/-- Changes the stream group. -/
def State.modStr (s : State) (f : StreamsSt → StreamsSt) : State := { s with str := f s.str }
/-- Changes the shared SA Index Table state. -/
def State.modSit (s : State) (f : SitShared → SitShared) : State := { s with sit := f s.sit }
/-- Changes the tamper chain. -/
def State.modTam (s : State) (f : TamperSt → TamperSt) : State := { s with tam := f s.tam }
/-- Changes the Vigil domain. -/
def State.modVigil (s : State) (f : VigilSt → VigilSt) : State := { s with vigil := f s.vigil }
/-- Changes Orrery. -/
def State.modOry (s : State) (f : OrrerySt → OrrerySt) : State := { s with ory := f s.ory }
/-- Changes the Ledger. -/
def State.modLdg (s : State) (f : LedgerSt → LedgerSt) : State := { s with ldg := f s.ldg }
/-- Changes Bellows. -/
def State.modBlw (s : State) (f : Bellows → Bellows) : State := s.modFab fun b => { b with bellows := f b.bellows }

/-- Stream port `p`. -/
def State.sp (s : State) (p : Nat) : StreamSt := if p = 0 then s.str.p0 else s.str.p1
/-- Changes stream port `p`. -/
def State.modSp (s : State) (p : Nat) (f : StreamSt → StreamSt) : State :=
  s.modStr fun t => if p = 0 then { t with p0 := f t.p0 } else { t with p1 := f t.p1 }
/-- Policer of VI `v` on port `p`. -/
def State.pol (s : State) (v p : Nat) : Policer := tget s.str.policers {} (2 * v + p)
/-- Changes the policer of VI `v` on port `p`. -/
def State.modPol (s : State) (v p : Nat) (f : Policer → Policer) : State :=
  s.modStr fun t => { t with policers := tmod t.policers {} (2 * v + p) f }
/-- HMP `k`. -/
def State.hmp (s : State) (k : Nat) : HmpSt := if k = 0 then s.mem.hmp0 else s.mem.hmp1
/-- Changes HMP `k`. -/
def State.modHmp (s : State) (k : Nat) (f : HmpSt → HmpSt) : State :=
  s.modMem fun m => if k = 0 then { m with hmp0 := f m.hmp0 } else { m with hmp1 := f m.hmp1 }

/-- Sets bits of GLB_PORT_FAULT (R74). -/
def portFault (bits : Nat) (s : State) : State := s.modPort fun p => { p with fault := p.fault ||| word bits }

/-! ### Time (R59, R60) -/

/-- The Vigil calendar in nanoseconds. -/
def calNs (s : State) : Nat := s.vigil.sec * 1000000000 + s.vigil.frac * 1000000000 / 32768

/-- The block's time base in nanoseconds: the calendar while TIME_LOST holds, else the Time Port's last value
(R60, R61). -/
def now (s : State) : Nat := if s.time.lost then calNs s else s.time.now

/-! ### Free values (log entry 5) -/

/-- The next `n` free bytes: DRBG output and other values the spec leaves open. -/
def drawBytes (s : State) (n : Nat) : List Byte := (List.range n).map fun i => Config.freeByte (s.freeCtr + i)

/-- Moves past `n` free values. -/
def drawn (n : Nat) (s : State) : State := { s with freeCtr := s.freeCtr + n }

/-! ### Modes (R483) -/

/-- MODE of GLB_MODE (R484). -/
def modeCode : Mode → Nat
  | .vigil => 0 | .boot => 1 | .recovery => 2 | .service => 3 | .degraded => 4 | .eclipse => 5 | .test => 6
  | .zeroised => 7

/-- Whether Test's Tin root is in force: in Test itself or in an Eclipse that returns to it (R485). -/
def inTest (s : State) : Bool :=
  s.modes.mode == .test || (s.modes.mode == .eclipse && s.modes.prior == .test)

/-- Whether main power runs the block, that is, the mode is not Vigil (R483). -/
def powered (s : State) : Bool := s.modes.mode != .vigil

/-! ### Event log (R37, R479) -/

/-- Whether Orrery runs Yuham or the ROM firmware and so writes the event log itself. -/
def orreryUp (s : State) : Bool := s.ory.st == .running || s.ory.st == .rom

/-- Writes an entry into the event log, which holds the latest 4,096 (R479). -/
def ledgerLog (e : LogEnt) (s : State) : State :=
  s.modLdg fun l =>
    let log := l.log ++ [{ e with seq := l.nextSeq }]
    { l with log := log.drop (log.length - 4096), nextSeq := (l.nextSeq + 1) % 2 ^ 32 }

/-- Records an event: in the event log, or in the hardware event buffer of 512 while Orrery is stopped (R37, R479). -/
def logEvent (cls code arg : Nat) (s : State) : State :=
  let e : LogEnt := { seq := 0, time := now s, cls := cls, code := code, arg := arg }
  if orreryUp s then ledgerLog e s
  else if s.ory.evtBuf.length < 512 then s.modOry fun o => { o with evtBuf := o.evtBuf ++ [e] }
  else s.modOry fun o => { o with evtLost := o.evtLost + 1 }

/-- Writes the buffered events, then one entry with the count of those discarded (R37, R520). -/
def drainEvents (s : State) : State :=
  let s1 := (s.ory.evtBuf.foldl (fun t e => ledgerLog e t) s).modOry fun o => { o with evtBuf := [], evtLost := 0 }
  ledgerLog { seq := 0, time := now s, cls := 9, code := 0, arg := s.ory.evtLost % 2 ^ 32 } s1

/-- ARG of a class 0x02 entry: the fault register, the unit's number and the instance (R520). -/
def faultArg (reg unit inst : Nat) : Nat := reg % 2 ^ 32 + unit * 2 ^ 32 + inst * 2 ^ 40

/-! ### Interrupts to the manager (R58, R503) -/

/-- Raises the in-band interrupt of the I3C target when ENEC enabled it; the target stops in Vigil (R58). -/
def raiseIbi (s : State) : State :=
  if s.port.ibiEn && powered s then s.modPort fun p => { p with ibi := p.ibi + 1 } else s

/-- The HMP an instance uses (R46, R75). -/
def hmpOf (s : State) (i : Nat) : Nat := if i = mi then b2n s.port.miHmp else b2n (s.port.hmpMap.toNat.testBit i)

/-- Whether the instance is between its reset point and its re-enable, so that every write its work would make is suppressed
(R428, R429). -/
def suppressed (i : Inst) : Bool := i.resetHeld || i.st == .resetting || (i.st == .pendingEnable && i.pendBase == .resetting)

/-- Queues an access. While the data plane is stopped its writes never appear (R24), a halted block issues no write
(R444), and an instance in reset makes none (R428). -/
def pushAcc (a : Access) (s : State) : State :=
  if a.op != .read && (s.modes.halted || (s.modes.dpStopped && a.dp) || suppressed (s.inst a.inst)) then s
  else s.modMem fun m => { m with waiting := m.waiting ++ [{ a with seq := m.nextAcc }], nextAcc := m.nextAcc + 1 }

/-- The fault interrupt to MI: one masked write of GLB_FAULT_MSG_DATA, at most one in 10 µs (R503). -/
def faultMsg (s : State) : State :=
  if s.modes.msgAddr = 0 then s
  else if s.modes.msgHeld then s.modModes fun m => { m with msgOwed := true }
  else pushAcc { inst := mi, op := .writeMask, addr := s.modes.msgAddr, phys := true, len := 4,
                 data := natLe 4 s.modes.msgData.toNat, own := .msg, dp := false }
         (s.modModes fun m => { m with msgHeld := true, msgOwed := false })

/-! ### Degraded (R499, R500) -/

/-- GLB_DEGRADE, each bit while its condition holds; zero before Boot has run (R500). -/
def degrade (s : State) : Nat :=
  if s.modes.stage == .atStart then 0
  else
    b2n ((List.range 9).all fun m => (s.forge m).st != .spare)
    + 2 * b2n (s.fab.map.any (· ≥ 9))
    + 4 * b2n (s.cruc.bankUp != 0x1F)
    + 8 * b2n (s.mem.hmp0.failed || s.mem.hmp1.failed)
    + 16 * b2n (s.dig.pipeUp != 0xFF)
    + 32 * b2n (s.anv.up != 0xF)
    + 64 * b2n (s.anv.drbg == .single || s.anv.drbg == .stopped)
    + 128 * b2n (!(s.fab.halfA && s.fab.halfB))
    + 256 * b2n (!(s.ory.halfA && s.ory.halfB))

/-- A transition of the mode, with its event log entry of class 0x04 (R485). It ends the round of every scheduler, so that no round
sees two modes (R28; log entry 165), it gives the pins back to the block where the TAP may not hold them (R83), and an entry to
Zeroised sends the fault interrupt and raises the in-band interrupt (R58, R503). -/
def enterMode (m : Mode) (s : State) : State :=
  let s1 := (s.modModes fun x => { x with mode := m }).modFab fun b => { b with rounds := 0 }
  let s2 := logEvent 4 (modeCode m) 0 (s1.modPort fun p => { p with tapPins := p.tapPins && (s.life == .manufacture || m == .test) })
  if m == .zeroised then raiseIbi (faultMsg s2) else s2

/-- Service, or Degraded while GLB_DEGRADE is non-zero (R485). -/
def serviceOrDegraded (s : State) : Mode := if degrade s = 0 then .service else .degraded

/-- Moves between Service and Degraded as GLB_DEGRADE asks (R485, R500). -/
def settleMode (s : State) : State :=
  if (s.modes.mode == .service || s.modes.mode == .degraded) && s.modes.mode != serviceOrDegraded s then
    enterMode (serviceOrDegraded s) s
  else s

/-- Reports a fault that a lower level absorbed, after its containment and its latch: the mode, the log entry and the
fault interrupt (R504, R520). -/
def reportFault (code reg unit inst : Nat) (s : State) : State :=
  faultMsg (logEvent 2 code (faultArg reg unit inst) (settleMode s))

/-- Whether the block stops every unissued write of the data plane: those accesses (R24). -/
def dropDpWrites (s : State) : State :=
  s.modMem fun m => { m with waiting := m.waiting.filter fun a => !(a.dp && a.op != .read) }

/-- A block-level fault: the data plane stops, the stream egresses go idle, unissued data-plane writes never appear, and
the log, MI and the I3C target are told (R24, R501). -/
def blockFault (b : Nat) (s : State) : State :=
  let s1 := s.modModes fun m => { m with fault := m.fault ||| word (2 ^ b), dpStopped := true }
  let s2 := dropDpWrites (s1.modStr fun t =>
    { t with p0 := { t.p0 with offered := [] }, p1 := { t.p1 with offered := [] } })
  raiseIbi (faultMsg (logEvent 2 0 (faultArg s2.modes.fault.toNat 0xFF 0xFF) s2))

/-! ### Structure of the rings' ownership (R90) -/

/-- The instance whose range holds submission ring `r`: MI or a tenant. -/
def ringOwner (s : State) (r : Nat) : Option Nat :=
  (s.insts.find? fun p => p.2.st != .unused && p.2.sqFirst ≤ r && r < p.2.sqFirst + p.2.sqCount).map Prod.fst

/-- The instance whose range holds notification ring `n`. -/
def nrOwner (s : State) (n : Nat) : Option Nat :=
  (s.insts.find? fun p => p.2.st != .unused && p.2.nqFirst ≤ n && n < p.2.nqFirst + p.2.nqCount).map Prod.fst

/-- The bytes of the next transfer of `len` bytes at `addr`: 256 or 128 aligned bytes, or what lies in one 64-byte line (R41). -/
def transferLen (addr len : Nat) : Nat :=
  if addr % 256 = 0 ∧ 256 ≤ len then 256 else if addr % 128 = 0 ∧ 128 ≤ len then 128 else min len (64 - addr % 64)

/-- The transfers that cover `len` bytes at `addr`: address, offset in the whole, length. -/
def lineChunks (fuel addr off len : Nat) : List (Nat × Nat × Nat) :=
  match fuel with
  | 0 => []
  | f + 1 =>
    if len = 0 then []
    else
      let n := transferLen addr len
      (addr, off, n) :: lineChunks f (addr + n) (off + n) (len - n)

/-- The transfers that cover `len` bytes at `addr`, the first at offset 0. -/
def lines (addr len : Nat) : List (Nat × Nat × Nat) := lineChunks (len / 64 + 2) addr 0 len

/-- Queues a read of parts, each an address, its offset in the whole and its length, into a new buffer whose number is
the next one. -/
def startReadParts (i base : Nat) (parts : List (Nat × Nat × Nat)) (phys : Bool) (own : RdOwn) (s : State) : State :=
  let id := s.mem.nextId
  let b : RdBuf := { id := id, own := own, base := base, len := (parts.map fun l => l.2.2).sum,
                     data := zeros (parts.map fun l => l.2.2).sum, left := parts.length,
                     res := if parts.isEmpty then .ok else .pending }
  let s1 := s.modMem fun m => { m with nextId := id + 1, bufs := m.bufs ++ [b] }
  parts.foldl (fun t l => pushAcc { inst := i, op := .read, addr := l.1, phys := phys, len := l.2.2,
                                    own := .rd id l.2.1 } t) s1

/-- Queues a read of `len` bytes at `addr` of instance `i` into a new buffer. -/
def startRead (i addr len : Nat) (phys : Bool) (own : RdOwn) (s : State) : State :=
  startReadParts i addr (lines addr len) phys own s

/-- Queues a write of `data` at `addr` of instance `i`, transfer by transfer: whole lines without byte masks (R41). -/
def startWrite (i addr : Nat) (data : List Byte) (phys : Bool) (own : Owner) (dp : Bool) (s : State) : State :=
  (lines addr data.length).foldl (fun t l =>
    pushAcc { inst := i, op := if l.2.2 % 64 = 0 then .write else .writeMask, addr := l.1, phys := phys, len := l.2.2,
              data := (data.drop l.2.1).take l.2.2, own := own, dp := dp } t) s

/-- The read buffer with a number. -/
def State.buf? (s : State) (id : Nat) : Option RdBuf := s.mem.bufs.find? fun b => b.id == id

/-- Discards a read buffer. -/
def dropBuf (id : Nat) (s : State) : State := s.modMem fun m => { m with bufs := m.bufs.filter fun b => b.id != id }

/-! ### Status codes (R139) and results -/

/-- A result with its status, detail and result. -/
def res (status detail : Nat) (result : Nat := 0) : Res := { status := status, detail := detail, result := result }

end Sys2Proof.Machine
end

