-- ==== Sys2Proof/Machine/Clock.lean ====
section
/-! DEFINITION. What passes while no command waits: one period of the 32.768 kHz crystal (log entry 3). -/

namespace Sys2Proof.Machine

/-- One crystal period: the Vigil calendar advances by 1/32768 s (R60, R455). -/
def calendarTick (s : State) : State :=
  s.modVigil fun v =>
    if v.frac + 1 < 32768 then { v with frac := v.frac + 1 } else { v with frac := 0, sec := (v.sec + 1) % 2 ^ 48 }

end Sys2Proof.Machine
end

