-- ==== Sys2Proof/Machine/Aes.lean ====
section
/-! DEFINITION. AES and its modes (R168 to R176): GCM, CTR, CBC and XTS, on byte strings in the order of their standards
(R167). The algorithms themselves are the named standards' (log entry 6). -/

namespace Sys2Proof.Machine

/-- The S-box of AES. -/
def aesSbox : List Byte :=
    [0x63, 0x7C, 0x77, 0x7B, 0xF2, 0x6B, 0x6F, 0xC5, 0x30, 0x01, 0x67, 0x2B, 0xFE, 0xD7, 0xAB, 0x76]
    ++ [0xCA, 0x82, 0xC9, 0x7D, 0xFA, 0x59, 0x47, 0xF0, 0xAD, 0xD4, 0xA2, 0xAF, 0x9C, 0xA4, 0x72, 0xC0]
    ++ [0xB7, 0xFD, 0x93, 0x26, 0x36, 0x3F, 0xF7, 0xCC, 0x34, 0xA5, 0xE5, 0xF1, 0x71, 0xD8, 0x31, 0x15]
    ++ [0x04, 0xC7, 0x23, 0xC3, 0x18, 0x96, 0x05, 0x9A, 0x07, 0x12, 0x80, 0xE2, 0xEB, 0x27, 0xB2, 0x75]
    ++ [0x09, 0x83, 0x2C, 0x1A, 0x1B, 0x6E, 0x5A, 0xA0, 0x52, 0x3B, 0xD6, 0xB3, 0x29, 0xE3, 0x2F, 0x84]
    ++ [0x53, 0xD1, 0x00, 0xED, 0x20, 0xFC, 0xB1, 0x5B, 0x6A, 0xCB, 0xBE, 0x39, 0x4A, 0x4C, 0x58, 0xCF]
    ++ [0xD0, 0xEF, 0xAA, 0xFB, 0x43, 0x4D, 0x33, 0x85, 0x45, 0xF9, 0x02, 0x7F, 0x50, 0x3C, 0x9F, 0xA8]
    ++ [0x51, 0xA3, 0x40, 0x8F, 0x92, 0x9D, 0x38, 0xF5, 0xBC, 0xB6, 0xDA, 0x21, 0x10, 0xFF, 0xF3, 0xD2]
    ++ [0xCD, 0x0C, 0x13, 0xEC, 0x5F, 0x97, 0x44, 0x17, 0xC4, 0xA7, 0x7E, 0x3D, 0x64, 0x5D, 0x19, 0x73]
    ++ [0x60, 0x81, 0x4F, 0xDC, 0x22, 0x2A, 0x90, 0x88, 0x46, 0xEE, 0xB8, 0x14, 0xDE, 0x5E, 0x0B, 0xDB]
    ++ [0xE0, 0x32, 0x3A, 0x0A, 0x49, 0x06, 0x24, 0x5C, 0xC2, 0xD3, 0xAC, 0x62, 0x91, 0x95, 0xE4, 0x79]
    ++ [0xE7, 0xC8, 0x37, 0x6D, 0x8D, 0xD5, 0x4E, 0xA9, 0x6C, 0x56, 0xF4, 0xEA, 0x65, 0x7A, 0xAE, 0x08]
    ++ [0xBA, 0x78, 0x25, 0x2E, 0x1C, 0xA6, 0xB4, 0xC6, 0xE8, 0xDD, 0x74, 0x1F, 0x4B, 0xBD, 0x8B, 0x8A]
    ++ [0x70, 0x3E, 0xB5, 0x66, 0x48, 0x03, 0xF6, 0x0E, 0x61, 0x35, 0x57, 0xB9, 0x86, 0xC1, 0x1D, 0x9E]
    ++ [0xE1, 0xF8, 0x98, 0x11, 0x69, 0xD9, 0x8E, 0x94, 0x9B, 0x1E, 0x87, 0xE9, 0xCE, 0x55, 0x28, 0xDF]
    ++ [0x8C, 0xA1, 0x89, 0x0D, 0xBF, 0xE6, 0x42, 0x68, 0x41, 0x99, 0x2D, 0x0F, 0xB0, 0x54, 0xBB, 0x16]

/-- The inverse S-box of AES. -/
def aesInvSbox : List Byte :=
    [0x52, 0x09, 0x6A, 0xD5, 0x30, 0x36, 0xA5, 0x38, 0xBF, 0x40, 0xA3, 0x9E, 0x81, 0xF3, 0xD7, 0xFB]
    ++ [0x7C, 0xE3, 0x39, 0x82, 0x9B, 0x2F, 0xFF, 0x87, 0x34, 0x8E, 0x43, 0x44, 0xC4, 0xDE, 0xE9, 0xCB]
    ++ [0x54, 0x7B, 0x94, 0x32, 0xA6, 0xC2, 0x23, 0x3D, 0xEE, 0x4C, 0x95, 0x0B, 0x42, 0xFA, 0xC3, 0x4E]
    ++ [0x08, 0x2E, 0xA1, 0x66, 0x28, 0xD9, 0x24, 0xB2, 0x76, 0x5B, 0xA2, 0x49, 0x6D, 0x8B, 0xD1, 0x25]
    ++ [0x72, 0xF8, 0xF6, 0x64, 0x86, 0x68, 0x98, 0x16, 0xD4, 0xA4, 0x5C, 0xCC, 0x5D, 0x65, 0xB6, 0x92]
    ++ [0x6C, 0x70, 0x48, 0x50, 0xFD, 0xED, 0xB9, 0xDA, 0x5E, 0x15, 0x46, 0x57, 0xA7, 0x8D, 0x9D, 0x84]
    ++ [0x90, 0xD8, 0xAB, 0x00, 0x8C, 0xBC, 0xD3, 0x0A, 0xF7, 0xE4, 0x58, 0x05, 0xB8, 0xB3, 0x45, 0x06]
    ++ [0xD0, 0x2C, 0x1E, 0x8F, 0xCA, 0x3F, 0x0F, 0x02, 0xC1, 0xAF, 0xBD, 0x03, 0x01, 0x13, 0x8A, 0x6B]
    ++ [0x3A, 0x91, 0x11, 0x41, 0x4F, 0x67, 0xDC, 0xEA, 0x97, 0xF2, 0xCF, 0xCE, 0xF0, 0xB4, 0xE6, 0x73]
    ++ [0x96, 0xAC, 0x74, 0x22, 0xE7, 0xAD, 0x35, 0x85, 0xE2, 0xF9, 0x37, 0xE8, 0x1C, 0x75, 0xDF, 0x6E]
    ++ [0x47, 0xF1, 0x1A, 0x71, 0x1D, 0x29, 0xC5, 0x89, 0x6F, 0xB7, 0x62, 0x0E, 0xAA, 0x18, 0xBE, 0x1B]
    ++ [0xFC, 0x56, 0x3E, 0x4B, 0xC6, 0xD2, 0x79, 0x20, 0x9A, 0xDB, 0xC0, 0xFE, 0x78, 0xCD, 0x5A, 0xF4]
    ++ [0x1F, 0xDD, 0xA8, 0x33, 0x88, 0x07, 0xC7, 0x31, 0xB1, 0x12, 0x10, 0x59, 0x27, 0x80, 0xEC, 0x5F]
    ++ [0x60, 0x51, 0x7F, 0xA9, 0x19, 0xB5, 0x4A, 0x0D, 0x2D, 0xE5, 0x7A, 0x9F, 0x93, 0xC9, 0x9C, 0xEF]
    ++ [0xA0, 0xE0, 0x3B, 0x4D, 0xAE, 0x2A, 0xF5, 0xB0, 0xC8, 0xEB, 0xBB, 0x3C, 0x83, 0x53, 0x99, 0x61]
    ++ [0x17, 0x2B, 0x04, 0x7E, 0xBA, 0x77, 0xD6, 0x26, 0xE1, 0x69, 0x14, 0x63, 0x55, 0x21, 0x0C, 0x7D]

/-- A byte through the S-box. -/
def subByte (b : Byte) : Byte := aesSbox.getD b.toNat 0
/-- A byte through the inverse S-box. -/
def invSubByte (b : Byte) : Byte := aesInvSbox.getD b.toNat 0

/-- Multiplication by x in the field of AES. -/
def xtime (b : Byte) : Byte := if b.getLsbD 7 then (b <<< 1) ^^^ 0x1B else b <<< 1

/-- Multiplication by a small constant in the field of AES. -/
def gmulByte (k : Nat) (b : Byte) : Byte :=
  let b2 := xtime b
  let b4 := xtime b2
  let b8 := xtime b4
  (if k % 2 = 1 then b else 0) ^^^ (if k / 2 % 2 = 1 then b2 else 0) ^^^ (if k / 4 % 2 = 1 then b4 else 0)
    ^^^ (if k / 8 % 2 = 1 then b8 else 0)

/-- The next words of the key schedule, from those so far (oldest first), for a key of `nk` words. -/
def aesExpand (fuel nk i : Nat) (rcon : Byte) (ws : List (List Byte)) : List (List Byte) :=
  match fuel with
  | 0 => ws
  | f + 1 =>
    let prev := ws.getD (i - 1) []
    let back := ws.getD (i - nk) []
    if i % nk = 0 then
      let t := ((prev.drop 1) ++ prev.take 1).map subByte
      let t := [t.getD 0 0 ^^^ rcon, t.getD 1 0, t.getD 2 0, t.getD 3 0]
      aesExpand f nk (i + 1) (xtime rcon) (ws ++ [xorBytes back t])
    else if nk > 6 && i % nk = 4 then aesExpand f nk (i + 1) rcon (ws ++ [xorBytes back (prev.map subByte)])
    else aesExpand f nk (i + 1) rcon (ws ++ [xorBytes back prev])

/-- The round keys of a key of 16, 24 or 32 bytes. -/
def aesKeys (key : List Byte) : List (List Byte) :=
  let nk := key.length / 4
  let ws := aesExpand (4 * (nk + 7) - nk) nk nk 1 (chunks nk 4 key)
  (List.range (nk + 7)).map fun r => ((ws.drop (4 * r)).take 4).flatten

/-- ShiftRows: byte `4c + r` of the result is byte `4(c + r) + r` of the input. -/
def shiftRows (b : List Byte) : List Byte :=
  [0, 5, 10, 15, 4, 9, 14, 3, 8, 13, 2, 7, 12, 1, 6, 11].map fun i => b.getD i 0

/-- Inverse ShiftRows. -/
def invShiftRows (b : List Byte) : List Byte :=
  [0, 13, 10, 7, 4, 1, 14, 11, 8, 5, 2, 15, 12, 9, 6, 3].map fun i => b.getD i 0

/-- MixColumns with the circulant of four constants. -/
def mixWith (a b c d : Nat) (l : List Byte) : List Byte :=
  ((chunks 4 4 l).map fun w =>
    let x := w.getD 0 0
    let y := w.getD 1 0
    let z := w.getD 2 0
    let t := w.getD 3 0
    [gmulByte a x ^^^ gmulByte b y ^^^ gmulByte c z ^^^ gmulByte d t,
     gmulByte d x ^^^ gmulByte a y ^^^ gmulByte b z ^^^ gmulByte c t,
     gmulByte c x ^^^ gmulByte d y ^^^ gmulByte a z ^^^ gmulByte b t,
     gmulByte b x ^^^ gmulByte c y ^^^ gmulByte d z ^^^ gmulByte a t]).flatten

/-- The rounds of AES encryption after the first key addition. -/
def aesRounds (rks : List (List Byte)) (b : List Byte) : List Byte :=
  match rks with
  | [] => b
  | [k] => xorBytes (shiftRows (b.map subByte)) k
  | k :: r => aesRounds r (xorBytes (mixWith 2 3 1 1 (shiftRows (b.map subByte))) k)

/-- AES encryption of a 16-byte block under expanded keys. -/
def aesEncBlock (rks : List (List Byte)) (b : List Byte) : List Byte :=
  aesRounds (rks.drop 1) (xorBytes (bytesAt b 0 16) (rks.headD []))

/-- The rounds of AES decryption, round keys in reverse order. -/
def aesInvRounds (rks : List (List Byte)) (b : List Byte) : List Byte :=
  match rks with
  | [] => b
  | [k] => xorBytes ((invShiftRows b).map invSubByte) k
  | k :: r => aesInvRounds r (mixWith 14 11 13 9 (xorBytes ((invShiftRows b).map invSubByte) k))

/-- AES decryption of a 16-byte block under expanded keys. -/
def aesDecBlock (rks : List (List Byte)) (b : List Byte) : List Byte :=
  let r := rks.reverse
  aesInvRounds (r.drop 1) (xorBytes (bytesAt b 0 16) (r.headD []))

/-! ### GCM (R169) -/

/-- Multiplication of field elements in GHASH, on 128-bit numbers whose most significant bit is the first bit. -/
def ghMul (fuel x v z : Nat) : Nat :=
  match fuel with
  | 0 => z
  | f + 1 =>
    let z2 := if x.testBit f then z ^^^ v else z
    ghMul f x (if v % 2 = 1 then (v / 2) ^^^ (0xE1 * 2 ^ 120) else v / 2) z2

/-- GHASH under `h` of whole blocks that follow an accumulator. -/
def ghashFrom (h y : Nat) (l : List Byte) : Nat :=
  (blocks16 l).foldl (fun y b => ghMul 128 (y ^^^ beNat (bytesAt b 0 16)) h 0) y

/-- GHASH of a string of whole blocks under `h`. -/
def ghash (h : Nat) (l : List Byte) : Nat := ghashFrom h 0 l

/-- The power `n` of `h` in GF(2^128), whose 1 is the bit 2^127; `fuel` bounds the binary digits of `n`. -/
def ghPow (fuel h n : Nat) : Nat :=
  match fuel with
  | 0 => 2 ^ 127
  | f + 1 =>
    let q := ghPow f (ghMul 128 h h 0) (n / 2)
    if n % 2 = 1 then ghMul 128 q h 0 else q

/-- The GHASH key of an AES key. -/
def gcmKey (key : List Byte) : Nat := beNat (aesEncBlock (aesKeys key) (zeros 16))

/-- A string padded with zeros to whole blocks. -/
def pad16 (l : List Byte) : List Byte := l ++ zeros (roundUp l.length 16 - l.length)

/-- The counter block after `b`, its last 4 bytes counted modulo 2^32. -/
def inc32 (b : List Byte) : List Byte := b.take 12 ++ natBe 4 ((beNat (b.drop 12) + 1) % 2 ^ 32)

/-- The text added to the key stream of successive counter blocks. -/
def ctrStream (rks : List (List Byte)) (next : List Byte → List Byte) (bs : List (List Byte)) (c : List Byte) :
    List Byte :=
  match bs with
  | [] => []
  | b :: r => xorBytes b (aesEncBlock rks c) ++ ctrStream rks next r (next c)

/-- The tag of AES-GCM over AAD and ciphertext, before truncation (R169). -/
def gcmTag (rks : List (List Byte)) (iv aad ct : List Byte) : List Byte :=
  let h := beNat (aesEncBlock rks (zeros 16))
  let s := ghash h (pad16 aad ++ pad16 ct ++ natBe 8 (8 * aad.length) ++ natBe 8 (8 * ct.length))
  xorBytes (aesEncBlock rks (iv ++ natBe 4 1)) (natBe 16 s)

/-- The text of AES-GCM in either direction (R169). -/
def gcmText (rks : List (List Byte)) (iv text : List Byte) : List Byte :=
  ctrStream rks inc32 (blocks16 text) (iv ++ natBe 4 2)

/-- AES-GCM encryption: ciphertext and 16-byte tag. -/
def gcmEnc (key iv aad text : List Byte) : List Byte × List Byte :=
  let rks := aesKeys key
  let c := gcmText rks iv text
  (c, gcmTag rks iv aad c)

/-- AES-GCM decryption: text and the 16-byte tag the ciphertext calls for. -/
def gcmDec (key iv aad ct : List Byte) : List Byte × List Byte :=
  let rks := aesKeys key
  (gcmText rks iv ct, gcmTag rks iv aad ct)

/-! ### CTR, CBC and XTS (R173 to R175) -/

/-- The counter block after `b` as one 128-bit big-endian integer (R173). -/
def inc128 (b : List Byte) : List Byte := natBe 16 ((beNat b + 1) % 2 ^ 128)

/-- AES-CTR in either direction (R173). -/
def aesCtr (key iv text : List Byte) : List Byte := ctrStream (aesKeys key) inc128 (blocks16 text) iv

/-- CBC encryption of blocks after `iv`. -/
def cbcEncGo (rks : List (List Byte)) (bs : List (List Byte)) (iv : List Byte) : List Byte :=
  match bs with
  | [] => []
  | b :: r =>
    let c := aesEncBlock rks (xorBytes b iv)
    c ++ cbcEncGo rks r c

/-- CBC decryption of blocks after `iv`. -/
def cbcDecGo (rks : List (List Byte)) (bs : List (List Byte)) (iv : List Byte) : List Byte :=
  match bs with
  | [] => []
  | b :: r => xorBytes (aesDecBlock rks b) iv ++ cbcDecGo rks r b

/-- AES-CBC without padding (R174). -/
def aesCbc (dec : Bool) (key iv text : List Byte) : List Byte :=
  if dec then cbcDecGo (aesKeys key) (blocks16 text) iv else cbcEncGo (aesKeys key) (blocks16 text) iv

/-- A tweak times x (IEEE 1619), as a little-endian 128-bit number. -/
def xtsMul (t : Nat) : Nat := if t ≥ 2 ^ 127 then (t * 2 % 2 ^ 128) ^^^ 0x87 else t * 2

/-- One XTS block under a tweak value. -/
def xtsBlock (dec : Bool) (rks : List (List Byte)) (t : Nat) (b : List Byte) : List Byte :=
  let m := natLe 16 t
  xorBytes (if dec then aesDecBlock rks (xorBytes b m) else aesEncBlock rks (xorBytes b m)) m

/-- The blocks of one data unit with ciphertext stealing at its end. -/
def xtsGo (dec : Bool) (rks : List (List Byte)) (bs : List (List Byte)) (t : Nat) : List Byte :=
  match bs with
  | [] => []
  | [b] => xtsBlock dec rks t b
  | b :: c :: r =>
    if c.length < 16 then
      let t1 := if dec then xtsMul t else t
      let t2 := if dec then t else xtsMul t
      let cc := xtsBlock dec rks t1 b
      xtsBlock dec rks t2 (c ++ cc.drop c.length) ++ cc.take c.length
    else xtsBlock dec rks t b ++ xtsGo dec rks (c :: r) (xtsMul t)

/-- One XTS data unit with its tweak (R175). -/
def xtsUnit (dec : Bool) (key tweak text : List Byte) : List Byte :=
  let half := key.length / 2
  let t := leNat (aesEncBlock (aesKeys (key.drop half)) tweak)
  xtsGo dec (aesKeys (key.take half)) (blocks16 text) t

/-- AES-XTS over a text cut into data units of 2^`du` bytes, the whole text where `du` is 0 (R175). -/
def aesXts (dec : Bool) (key tweak text : List Byte) (du : Nat) : List Byte :=
  if du = 0 then xtsUnit dec key tweak text
  else ((chunks (text.length / 2 ^ du + 1) (2 ^ du) text).zipIdx.map fun p =>
    xtsUnit dec key (natLe 16 ((leNat tweak + p.2) % 2 ^ 128)) p.1).flatten

end Sys2Proof.Machine
end

