-- ==== Sys2Proof/Machine/Keccak.lean ====
section
/-! DEFINITION. Keccak (R153, R301, R303): SHA-3, SHAKE, cSHAKE and KMAC of byte strings (log entry 6). -/

namespace Sys2Proof.Machine

/-- Round constants. -/
def keccakRc : List Nat :=
    [0x0000000000000001, 0x0000000000008082, 0x800000000000808a, 0x8000000080008000]
    ++ [0x000000000000808b, 0x0000000080000001, 0x8000000080008081, 0x8000000000008009]
    ++ [0x000000000000008a, 0x0000000000000088, 0x0000000080008009, 0x000000008000000a]
    ++ [0x000000008000808b, 0x800000000000008b, 0x8000000000008089, 0x8000000000008003]
    ++ [0x8000000000008002, 0x8000000000000080, 0x000000000000800a, 0x800000008000000a]
    ++ [0x8000000080008081, 0x8000000000008080, 0x0000000080000001, 0x8000000080008008]

/-- Rotation left of a 64-bit lane. -/
def rotl64 (x n : Nat) : Nat := (x * 2 ^ n % 2 ^ 64) ||| (x / 2 ^ (64 - n))

/-- Rotation of lane `x + 5y`. -/
def keccakRot : List Nat :=
  [0, 1, 62, 28, 27, 36, 44, 6, 55, 20, 3, 10, 43, 25, 39, 41, 45, 15, 21, 8, 18, 2, 61, 56, 14]

/-- One round on 25 lanes. -/
def keccakRound (a : List Nat) (rc : Nat) : List Nat :=
  let g := fun (l : List Nat) i => l.getD i 0
  let c := (List.range 5).map fun x => g a x ^^^ g a (x + 5) ^^^ g a (x + 10) ^^^ g a (x + 15) ^^^ g a (x + 20)
  let d := (List.range 5).map fun x => g c ((x + 4) % 5) ^^^ rotl64 (g c ((x + 1) % 5)) 1
  let t := a.zipIdx.map fun p => p.1 ^^^ g d (p.2 % 5)
  let b := (List.range 25).map fun i =>
    -- lane (X, Y) of the result takes lane (x, y) with X = y and Y = 2x + 3y
    let x := (i % 5 + 3 * (i / 5)) % 5
    let y := i % 5
    rotl64 (g t (x + 5 * y)) (keccakRot.getD (x + 5 * y) 0)
  let e := (List.range 25).map fun i =>
    let y := i / 5
    g b i ^^^ ((2 ^ 64 - 1 - g b (5 * y + (i + 1) % 5)) &&& g b (5 * y + (i + 2) % 5))
  (g e 0 ^^^ rc) :: e.drop 1

/-- The permutation. -/
def keccakF (a : List Nat) : List Nat := keccakRc.foldl keccakRound a

/-- The state before anything is absorbed. -/
def keccakZero : List Nat := List.replicate 25 0

/-- Absorbs whole blocks of `rate` bytes into a state. -/
def keccakFrom (rate : Nat) (a : List Nat) (l : List Byte) : List Nat :=
  (chunks (l.length / rate + 1) rate l).foldl
    (fun a b => keccakF (List.zipWith (· ^^^ ·) a ((chunks 25 8 (b ++ zeros (200 - rate))).map leNat))) a

/-- Squeezes `n` bytes. -/
def keccakSqueeze (fuel rate n : Nat) (a : List Nat) : List Byte :=
  match fuel with
  | 0 => []
  | f + 1 =>
    let o := ((a.map fun x => natLe 8 x).flatten).take rate
    if n ≤ rate then o.take n else o ++ keccakSqueeze f rate (n - rate) (keccakF a)

/-- The end of a message with the padding of a domain suffix byte. -/
def spongePad (rate suffix : Nat) (l : List Byte) : List Byte :=
  let p := rate - l.length % rate
  l ++ if p = 1 then [byte (suffix + 0x80)] else [byte suffix] ++ zeros (p - 2) ++ [0x80]

/-- The sponge with a domain suffix byte. -/
def sponge (rate suffix : Nat) (l : List Byte) (n : Nat) : List Byte :=
  keccakSqueeze (n / rate + 1) rate n (keccakFrom rate keccakZero (spongePad rate suffix l))

/-- SHA3-256, SHA3-384 and SHA3-512 by output length. -/
def sha3 (out : Nat) (l : List Byte) : List Byte := sponge (200 - 2 * out) 0x06 l out
/-- SHAKE128 and SHAKE256 by rate. -/
def shake (rate : Nat) (l : List Byte) (n : Nat) : List Byte := sponge rate 0x1F l n

/-- The bytes of a number, most significant first, at least one. -/
def minBe (n : Nat) : List Byte :=
  let k := (List.range 9).find? (fun i => n < 256 ^ (i + 1))
  natBe (k.getD 8 + 1) n

/-- left_encode of SP 800-185. -/
def leftEncode (n : Nat) : List Byte := byte (minBe n).length :: minBe n
/-- right_encode of SP 800-185. -/
def rightEncode (n : Nat) : List Byte := minBe n ++ [byte (minBe n).length]
/-- encode_string of SP 800-185. -/
def encodeString (l : List Byte) : List Byte := leftEncode (8 * l.length) ++ l
/-- bytepad of SP 800-185. -/
def bytepad (l : List Byte) (w : Nat) : List Byte :=
  let z := leftEncode w ++ l
  z ++ zeros (roundUp z.length w - z.length)

/-- The whole blocks that KMAC of SP 800-185 absorbs ahead of its message. -/
def kmacHead (rate : Nat) (key custom : List Byte) : List Byte :=
  bytepad (encodeString (ascii "KMAC") ++ encodeString custom) rate ++ bytepad (encodeString key) rate

/-- KMAC of SP 800-185 with output of `n` bytes; rate 168 for KMAC128 and 136 for KMAC256. -/
def kmac (rate : Nat) (key msg : List Byte) (n : Nat) (custom : List Byte) : List Byte :=
  sponge rate 0x04 (kmacHead rate key custom ++ msg ++ rightEncode (8 * n)) n

/-! ### Keccak-p[400, 12] (R353) -/

/-- Rotation left of a 16-bit lane. -/
def rotl16 (x n : Nat) : Nat := (x * 2 ^ (n % 16) % 2 ^ 16) ||| (x / 2 ^ (16 - n % 16))

/-- One round on 25 lanes of 16 bits. -/
def keccakRound16 (a : List Nat) (rc : Nat) : List Nat :=
  let g := fun (l : List Nat) i => l.getD i 0
  let c := (List.range 5).map fun x => g a x ^^^ g a (x + 5) ^^^ g a (x + 10) ^^^ g a (x + 15) ^^^ g a (x + 20)
  let d := (List.range 5).map fun x => g c ((x + 4) % 5) ^^^ rotl16 (g c ((x + 1) % 5)) 1
  let t := a.zipIdx.map fun p => p.1 ^^^ g d (p.2 % 5)
  let b := (List.range 25).map fun i =>
    let x := (i % 5 + 3 * (i / 5)) % 5
    let y := i % 5
    rotl16 (g t (x + 5 * y)) (keccakRot.getD (x + 5 * y) 0)
  let e := (List.range 25).map fun i =>
    let y := i / 5
    g b i ^^^ ((2 ^ 16 - 1 - g b (5 * y + (i + 1) % 5)) &&& g b (5 * y + (i + 2) % 5))
  (g e 0 ^^^ rc) :: e.drop 1

/-- Keccak-p[400, 12] on 50 bytes: the last 12 of the 20 rounds of Keccak-f[400]. -/
def keccakP400 (l : List Byte) : List Byte :=
  let a := (((keccakRc.take 20).drop 8).map (· % 2 ^ 16)).foldl keccakRound16 ((chunks 25 2 l).map leNat)
  (a.map fun x => natLe 2 x).flatten

end Sys2Proof.Machine
end

