-- ==== Sys2Proof/Machine/Keys.lean ====
section
/-! DEFINITION. The Crucible's keys: derivation (R364), envelopes (R365, R366), handles and their checks (R349, R354), the
slot table (R352) and the count of wraps (R367, R478). -/

namespace Sys2Proof.Machine

/-! ### Derivation and envelopes -/

/-- The KDF of R364 with a domain byte, an 8-byte label, a context and an output length. -/
def kdf (key : List Byte) (domain : Nat) (label context : List Byte) (n : Nat) : List Byte :=
  kmac 136 key context n (byte domain :: bytesAt label 0 8)

/-- The wrapping key of a key, domain 0x06 (R364). -/
def wrappingKey (key : List Byte) : List Byte := kdf key 6 [] [] 32

/-- The authenticated header of an envelope (R365). -/
def envHeader (typ alg ptLen : Nat) : List Byte := [1, byte typ, byte alg, 0] ++ natLe 4 ptLen ++ zeros 8

/-- An envelope made under `key` (R365). -/
def envMake (key : List Byte) (typ alg : Nat) (pt iv : List Byte) : List Byte :=
  let hd := envHeader typ alg pt.length
  let c := gcmEnc (wrappingKey key) iv hd pt
  hd ++ iv ++ c.1 ++ c.2

/-- Opens an envelope under `key` for a use: none where R366 fails it. -/
def envOpen (key : List Byte) (typ alg ptLen : Nat) (env : List Byte) : Option (List Byte) :=
  let hd := env.take 16
  let iv := bytesAt env 16 12
  let d := gcmDec (wrappingKey key) iv hd (bytesAt env 28 ptLen)
  if env.length = 44 + ptLen && hd == envHeader typ alg ptLen && d.2 == bytesAt env (28 + ptLen) 16 then some d.1
  else none

/-- Bytes of a key of KEY_BITS code 0, 1 or 2 (R350). -/
def keyBytes (bits : Nat) : Nat := 16 + 8 * bits

/-- A key cut or padded to its 32-byte slot (R346). -/
def slotBytes (key : List Byte) : List Byte := bytesAt key 0 32

/-- The 64-bit fingerprint of a key (R478). -/
def keyPrint (key : List Byte) : Nat := beNat (kmac 136 key [] 8 (ascii "KEYPRINT"))

/-! ### Share pairs, banks and parity (R353, R356) -/

/-- X of R353: the public expansion of a seed for slot number `i`, its class in bits 31:30. -/
def shareX (seed : List Byte) (i : Nat) : List Byte := (keccakP400 (bytesAt (bytesAt seed 0 16 ++ natLe 4 i) 0 50)).take 32

/-- The share pair that slot number `i` stores: the masked share, then the seed. -/
def KeySlot.pair (k : KeySlot) (i : Nat) : List Byte :=
  List.zipWith (· ^^^ ·) (slotBytes k.key) (shareX k.seed i) ++ bytesAt k.seed 0 16

/-- The key that a share pair combines to at a unit's input stage. -/
def pairKey (b : List Byte) (i : Nat) : List Byte := List.zipWith (· ^^^ ·) (b.take 32) (shareX (b.drop 32) i)

/-- The XOR of 12-byte words. -/
def xorWords (l : List (List Byte)) : List Byte := l.foldl (List.zipWith (· ^^^ ·)) (zeros 12)

/-- The five words of a slot, one a bank: four of its pair and their XOR in the parity bank. -/
def KeySlot.bankWords (k : KeySlot) (i : Nat) : List (List Byte) :=
  let w := chunks 4 12 (k.pair i)
  w ++ [xorWords w]

/-- The word of bank `b` as a read in rebuild mode makes it, from the other four (R355, R356). -/
def rebuiltWord (w : List (List Byte)) (b : Nat) : List Byte := xorWords (w.eraseIdx b)

/-- CRC_STATUS.REBUILD: the data bank that reads rebuild, 7 for none (R356). -/
def rebuildCode (up : BitVec 5) : Nat :=
  match (List.range 5).filter fun b => !up.toNat.testBit b with
  | [b] => if b < 4 then b else 7
  | _ => 7

/-! ### Slots and handles (R346, R349) -/

/-- Parent-class slot `i`. -/
def State.parent (s : State) (i : Nat) : KeySlot := tget s.cruc.parents {} i
/-- Changes parent-class slot `i`. -/
def State.modParent (s : State) (i : Nat) (f : KeySlot → KeySlot) : State :=
  s.modCruc fun c => { c with parents := tmod c.parents {} i f }
/-- System slot `i`. -/
def State.sysKey (s : State) (i : Nat) : KeySlot := tget s.cruc.system {} i
/-- Changes system slot `i`. -/
def State.modSysKey (s : State) (i : Nat) (f : KeySlot → KeySlot) : State :=
  s.modCruc fun c => { c with system := tmod c.system {} i f }
/-- Context-class slot `i`: 2e and 2e + 1 belong to cache entry e. -/
def State.ctxKey (s : State) (i : Nat) : KeySlot := tget s.cruc.ctxKeys {} i
/-- Changes context-class slot `i`. -/
def State.modCtxKey (s : State) (i : Nat) (f : KeySlot → KeySlot) : State :=
  s.modCruc fun c => { c with ctxKeys := tmod c.ctxKeys {} i f }
/-- Zeroises both key slots of cache entry `e`. -/
def zeroCtxKeys (e : Nat) (s : State) : State :=
  s.modCruc fun c => { c with ctxKeys := tdel (tdel c.ctxKeys (2 * e)) (2 * e + 1) }

/-- The handle of parent-class slot `i` (R349). -/
def parentHandle (s : State) (i : Nat) : Nat := 2 ^ 29 + (s.parent i).use % 1024 * 2 ^ 19 + i
/-- The handle of the root, system slot 0. -/
def rootHandle : Nat := 2 ^ 30 + 2 ^ 19

/-- INDEX of a handle. -/
def hIndex (h : Nat) : Nat := fld h 0 19
/-- USE of a handle. -/
def hUse (h : Nat) : Nat := fld h 19 10
/-- CLASS of a handle. -/
def hClass (h : Nat) : Nat := fld h 29 2

/-- GEN of the slot that a recorded parent names: the root's, or the parent-class slot's. -/
def handleGen (s : State) (h : Nat) : Nat :=
  if hClass h = 2 then (s.sysKey (hIndex h)).gen else (s.parent (hIndex h)).gen

/-- Check 5 of R354: the key's recorded PGEN is its parent's GEN; a key without a parent passes (R370). -/
def pgenOk (s : State) (parent pgen : Nat) : Bool := parent == 0 || handleGen s parent == pgen

/-- Whether a recorded parent names a VALID slot whose key is absent (R352). -/
def parentAbsent (s : State) (parent : Nat) : Bool :=
  hClass parent = 1 && (s.parent (hIndex parent)).st == .valid && (s.parent (hIndex parent)).absent

/-- KEY_INVALID with a detail. -/
def keyInvalid (d : Nat) : Res := res 8 d
/-- PARENT_INVALID with a detail. -/
def parentInvalid (d : Nat) : Res := res 0x10 d

/-- Check 5 of R354 on a key's recorded parent, and the absence of that parent's key (R352). -/
def recordedCheck (s : State) (parent pgen : Nat) : Option Res :=
  if !pgenOk s parent pgen then some (parentInvalid 1)
  else if parentAbsent s parent then some (keyInvalid 9)
  else none

/-- Checks 1 to 3 of R354 and the absence of R352, on a handle for an owner. -/
def handleCheck (s : State) (h owner : Nat) : Option Res :=
  let k := s.parent (hIndex h)
  if h ≥ 2 ^ 31 || hClass h != 1 || hIndex h ≥ 4096 || k.st == .empty || k.owner != owner then some (keyInvalid 1)
  else if hUse h != k.use % 1024 then some (keyInvalid 2)
  else if k.st == .invalid then some (parentInvalid 2)
  else if k.absent then some (keyInvalid 9)
  else none

/-- Checks 1 to 5 of R354 on a handle for an owner and the kinds the use permits. -/
def parentCheck (s : State) (h owner : Nat) (kinds : List KKind) : Option Res :=
  match handleCheck s h owner with
  | some r => some r
  | none =>
    let k := s.parent (hIndex h)
    if !(kinds.contains k.kind) || k.st != .valid then some (keyInvalid 3)
    else recordedCheck s k.parent k.pgen

/-- Whether a root is loaded (R362). -/
def hasRoot (s : State) : Bool := s.cruc.root != .none

/-- NO_ROOT (R362). -/
def noRoot : Res := keyInvalid 5

/-! ### Allocation, quota and the slot table (R351, R352) -/

/-- Parent-class slots counted under an instance's slot quota (R351). -/
def slotsUsed (s : State) (owner : Nat) : Nat :=
  (s.cruc.parents.filter fun p =>
    p.2.owner == owner && p.2.st != .empty && (p.2.kind == .parent || p.2.kind == .transport)).length

/-- The lowest EMPTY slot among 129 to 4,095. -/
def freeParent (s : State) : Option Nat :=
  ((List.range (4096 - 129)).map (· + 129)).find? fun i => (s.parent i).st == .empty

/-- EMPTY slots among 129 to 4,095 (CRC_STATUS.PARENT_FREE). -/
def parentFree (s : State) : Nat :=
  4096 - 129 - (s.cruc.parents.filter fun p => p.1 ≥ 129 && p.2.st != .empty).length

/-- QUOTA of slots (R410). -/
def slotQuota : Res := res 0x22 2

/-- The record the Ledger keeps of a slot; transport and offered slots are recorded EMPTY (R352). -/
def slotRecOf (k : KeySlot) : SlotRec :=
  if k.kind == .transport || k.st == .offered || k.st == .empty then { use := k.use % 1024, gen := k.gen }
  else { st := k.st, kind := k.kind, owner := k.owner, depth := k.depth, bits := k.bits, use := k.use % 1024, gen := k.gen,
         fpr := keyPrint k.key }

/-- Writes the slot record of parent-class slot `i`; not in Test (R352). A record of a key that is absent or zeroised keeps
its fingerprint. -/
def recordSlot (i : Nat) (s : State) : State :=
  if inTest s then s
  else
    let k := s.parent i
    let r := slotRecOf k
    let old := tget s.ldg.slotTab {} i
    let r2 := if k.key.isEmpty && r.st != .empty then { r with fpr := old.fpr } else r
    s.modLdg fun l => { l with slotTab := tset l.slotTab {} i r2 }

/-- Frees a parent-class slot: EMPTY, its key zeroised, its allocation count advanced (R349). -/
def freeSlot (i : Nat) (s : State) : State :=
  s.modParent i fun k => { use := k.use + 1, gen := k.gen }

/-- Installs a key into parent-class slot `i` with its attributes; GEN advances (R350). -/
def installParent (i : Nat) (k : KeySlot) (s : State) : State :=
  drawn 16 (s.modParent i fun old =>
    { k with st := .valid, gen := (old.gen + 1) % 2 ^ 32, use := old.use, key := slotBytes k.key, seed := drawBytes s 16 })

/-- Takes a free parent slot for an owner under its quota, or says QUOTA (R351). -/
def takeParent (s : State) (owner : Nat) : Option Nat :=
  if slotsUsed s owner ≥ (s.inst owner).slotQuota then none else freeParent s

/-! ### Wraps (R367, R478) -/

/-- The count of envelopes at which a loaded key resumes after a loss of main power (R478). -/
def resumeWraps (s : State) (key : List Byte) : Nat :=
  let c := tget s.ldg.wraps 0 (keyPrint key)
  if c = 0 then 2 ^ 24 else c

/-- Counts one envelope under parent-class slot `i`, or says that its limit is reached (check 6 of R354, R478). -/
def countWrap (i : Nat) (s : State) : Option State :=
  let k := s.parent i
  let w := k.wraps + 1
  let fp := keyPrint k.key
  let ceil := tget s.ldg.wraps 0 fp
  if w > 2 ^ 32 then none
  else
    let s1 := s.modParent i fun x => { x with wraps := w }
    if w < 2 ^ 24 || w < ceil then some s1
    else if ceil = 0 && s.ldg.wraps.length ≥ 2048 then none
    else some (s1.modLdg fun l => { l with wraps := tset l.wraps 0 fp (if ceil = 0 then w + 2 ^ 20 else ceil + 2 ^ 20) })

/-- WRAP_LIMIT (R354). -/
def wrapLimit : Res := keyInvalid 4

/-- AUTH_FAIL with WRAPPED_KEY (R199). -/
def wrappedFail : Res := res 1 4

end Sys2Proof.Machine
end

