-- ==== Sys2Proof/Machine/Context.lean ====
section
/-! DEFINITION. Contexts: their kinds (R242), the resident entry's image (R243 to R246), current and next keys (R270 to
R275) and the transmit and receive number state (R181 to R186, R192, R193). -/

namespace Sys2Proof.Machine

/-! ### Kinds (R242) -/

/-- A defined kind. -/
def kindOk (k : Nat) : Bool := (1 ≤ k && k ≤ 6) || (8 ≤ k && k ≤ 0xB) || (0x10 ≤ k && k ≤ 0x17)
/-- A memory kind. -/
def isMem (k : Nat) : Bool := 1 ≤ k && k ≤ 6
/-- A MACsec kind. -/
def isMacsec (k : Nat) : Bool := 8 ≤ k && k ≤ 0xB
/-- A MACsec XPN kind. -/
def isXpn (k : Nat) : Bool := k == 0xA || k == 0xB
/-- An ESP kind. -/
def isEsp (k : Nat) : Bool := 0x10 ≤ k && k ≤ 0x17
/-- An ESP kind with HMAC. -/
def isEspMac (k : Nat) : Bool := 0x14 ≤ k && k ≤ 0x17
/-- A transmit kind. -/
def isTx (k : Nat) : Bool := (isMacsec k || isEsp k) && k % 2 = 0
/-- A receive kind. -/
def isRx (k : Nat) : Bool := (isMacsec k || isEsp k) && k % 2 = 1
/-- Salt bytes that come with a key (R271, R365). -/
def saltLen (k : Nat) : Nat := if isXpn k then 12 else if isEsp k && k / 2 != 0xA then 4 else 0
/-- Whether R168 lists a KEY_SIZE code for a kind. -/
def keySizeOk (kind size : Nat) : Bool :=
  if kind == 2 || kind == 0x12 || kind == 0x13 then size == 2
  else if kind == 5 || isMacsec kind then size == 0 || size == 2
  else size ≤ 2

/-! ### The entry's image (R243 to R246) -/

/-- The first 96 bits and the rest of a resident entry as bytes. -/
def ctxImage (c : Ctx) : List Byte :=
  let st : Nat := match c.st with | .active => 0 | .stale => 1 | .evicting => 2
  let lo := c.handle + 2 ^ 24 + b2n c.pin * 2 ^ 25 + st * 2 ^ 26 + c.cause * 2 ^ 28 + c.keySize * 2 ^ 30
    + c.owner * 2 ^ 32 + c.kind * 2 ^ 40 + c.gen * 2 ^ 48 + c.role * 2 ^ 64 + c.other * 2 ^ 65 + c.anA * 2 ^ 67
    + c.anB * 2 ^ 69 + b2n c.replay * 2 ^ 71 + b2n c.es * 2 ^ 72 + b2n c.sc * 2 ^ 73 + b2n c.scb * 2 ^ 74
    + c.co * 2 ^ 75 + b2n c.esn * 2 ^ 77 + b2n c.pnOut * 2 ^ 78 + c.failCnt * 2 ^ 80
  natLe 12 lo ++ natLe 4 c.w ++ natLe 8 c.sci ++ natLe 8 c.nA ++ natLe 8 c.nB ++ bytesAt c.tail 0 24

/-- The entry that an image describes. -/
def ctxOfImage (b : List Byte) : Ctx :=
  let n := leAt b 0 12
  { handle := fld n 0 24, pin := bit n 25, st := if fld n 26 2 = 1 then .stale else if fld n 26 2 = 2 then .evicting else .active,
    cause := fld n 28 2, keySize := fld n 30 2, owner := fld n 32 8, kind := fld n 40 5, gen := fld n 48 16,
    role := fld n 64 1, other := fld n 65 2, anA := fld n 67 2, anB := fld n 69 2, replay := bit n 71, es := bit n 72,
    sc := bit n 73, scb := bit n 74, co := fld n 75 2, esn := bit n 77, pnOut := bit n 78, failCnt := fld n 80 16,
    w := leAt b 12 4, sci := leAt b 16 8, nA := leAt b 24 8, nB := leAt b 32 8, tail := bytesAt b 40 24 }

/-- AN of a slot's key. -/
def Ctx.an (c : Ctx) (slot : Nat) : Nat := if slot = 0 then c.anA else c.anB
/-- SPI of a slot, as the 4 bytes of its byte string read little-endian. -/
def Ctx.spi (c : Ctx) (slot : Nat) : Nat := fld c.sci (32 * slot) 32
/-- HMAC slot of a slot. -/
def Ctx.hslot (c : Ctx) (slot : Nat) : Nat := fld c.w (12 * slot) 12
/-- Salt of a slot. -/
def Ctx.salt (c : Ctx) (slot : Nat) : List Byte :=
  if isXpn c.kind then bytesAt c.tail (12 * slot) 12 else bytesAt c.tail (4 * slot) 4
/-- Receive number state of a slot: NextPN or T. -/
def Ctx.rxNum (c : Ctx) (slot : Nat) : Nat := if slot = 0 then c.nA else c.nB
/-- Replay bitmap of a slot (ESP inbound). -/
def Ctx.bitmap (c : Ctx) (slot : Nat) : Nat := leAt c.tail (8 + 8 * slot) 8
/-- ICV bytes of an ESP context (R245). -/
def Ctx.icvLen (c : Ctx) : Nat :=
  if c.kind == 0x10 || c.kind == 0x11 then 16 - 4 * fld c.w 24 2 else 16
/-- Replay window bits of an ESP inbound context (R193). -/
def Ctx.espWin (c : Ctx) : Nat := if bit c.w 26 then 64 else 32
/-- The largest packet or sequence number (R181, R192). -/
def Ctx.largest (c : Ctx) : Nat :=
  if c.kind == 8 || c.kind == 9 || (isEsp c.kind && !c.esn) then 2 ^ 32 - 1 else 2 ^ 64 - 1
/-- The next transmit number, with its bit 64 (R243). -/
def Ctx.nextTx (c : Ctx) : Nat := c.nA + b2n c.pnOut * 2 ^ 64
/-- Sets the next transmit number. -/
def Ctx.setTx (c : Ctx) (n : Nat) : Ctx := { c with nA := n % 2 ^ 64, pnOut := n ≥ 2 ^ 64 }
/-- Sets a receive number of a slot. -/
def Ctx.setRx (c : Ctx) (slot n : Nat) : Ctx := if slot = 0 then { c with nA := n } else { c with nB := n }
/-- Sets the salt of a slot. -/
def Ctx.setSalt (c : Ctx) (slot : Nat) (b : List Byte) : Ctx :=
  if isXpn c.kind then { c with tail := putBytes (bytesAt c.tail 0 24) (12 * slot) (bytesAt b 0 12) }
  else { c with tail := putBytes (bytesAt c.tail 0 24) (4 * slot) (bytesAt b 0 4) }
/-- Sets the replay bitmap of a slot. -/
def Ctx.setBitmap (c : Ctx) (slot n : Nat) : Ctx :=
  { c with tail := putBytes (bytesAt c.tail 0 24) (8 + 8 * slot) (natLe 8 n) }
/-- Advances the entry's generation (R266). -/
def Ctx.bump (c : Ctx) : Ctx := { c with gen := (c.gen + 1) % 2 ^ 16 }

/-! ### Numbers and switches -/

/-- The transmit number of R272: none when exhausted, else the number used and the entry after it, its key switched where
the threshold asks. -/
def Ctx.takeTx (c : Ctx) : Option (Nat × Ctx) :=
  let limit := min c.nB (c.largest + 1)
  let c1 := if c.other = 1 && c.nextTx ≥ limit then ({ c with role := 1 - c.role, other := 2 }).setTx 1 else c
  if c1.nextTx > c1.largest then none else some (c1.nextTx, c1.setTx (c1.nextTx + 1))

/-- LowestPN of a slot (R186, R244). -/
def Ctx.lowest (c : Ctx) (slot : Nat) : Nat := max 1 (c.rxNum slot - c.w)

/-- The slot that an AN or SPI selects on a receive kind (R273). -/
def Ctx.rxSlot (c : Ctx) (isIt : Nat → Bool) : Option Nat :=
  if isIt c.role then some c.role
  else if (c.other = 1 || c.other = 2) && isIt (1 - c.role) then some (1 - c.role)
  else none

/-- A packet number recovered from its low 32 bits (R184). -/
def Ctx.recoverPn (c : Ctx) (slot low : Nat) : Nat :=
  if isXpn c.kind then
    let l := c.lowest slot
    (if low ≥ l % 2 ^ 32 then l / 2 ^ 32 else l / 2 ^ 32 + 1) * 2 ^ 32 + low
  else low

/-- A sequence number with its upper bits inferred as RFC 4303 Appendix A gives (R193). -/
def Ctx.recoverSn (c : Ctx) (slot low : Nat) : Nat :=
  if !c.esn then low
  else
    let t := c.rxNum slot
    let tl := t % 2 ^ 32
    let th := t / 2 ^ 32
    let w := c.espWin
    if tl ≥ w - 1 then (if low ≥ tl - w + 1 then th else th + 1) * 2 ^ 32 + low
    else (if low ≥ tl + 2 ^ 32 - w + 1 then (th + 2 ^ 32 - 1) % 2 ^ 32 else th) * 2 ^ 32 + low

/-- REPLAY with a detail (R199). -/
def replayRes (d : Nat) : Res := res 0x11 d

/-- The replay pre-check of R185 or R193 on a slot. -/
def Ctx.replayCheck (c : Ctx) (slot n : Nat) : Option Res :=
  if !c.replay then none
  else if isEsp c.kind then
    let t := c.rxNum slot
    if n + c.espWin ≤ t then some (replayRes 1)
    else if n ≤ t && (c.bitmap slot).testBit (t - n) then some (replayRes 2)
    else none
  else if n < c.lowest slot then some (replayRes 1)
  else none

/-- The receive state after a verified frame on a slot, and the switch of R273 (R186, R188, R193). Bit `i` of an ESP bitmap
stands for T − i. -/
def Ctx.rxUpdate (c : Ctx) (slot n : Nat) : Ctx :=
  let c1 :=
    if isEsp c.kind then
      let t := c.rxNum slot
      if n > t then
        let m := if n - t ≥ 64 then 1 else ((c.bitmap slot) * 2 ^ (n - t) + 1) % 2 ^ 64
        (c.setRx slot n).setBitmap slot m
      else if t - n < 64 then c.setBitmap slot ((c.bitmap slot) ||| 2 ^ (t - n))
      else c
    else c.setRx slot (max (c.rxNum slot) (min (n + 1) (2 ^ 64 - 1)))
  if slot != c.role && c.other = 1 then { c1 with role := slot, other := 2 } else c1

/-- Counts an outcome in the context's statistics (R196, R243, R246): `at` is the entry, whichever generation. -/
def Ctx.counted (c : Ctx) (ok : Bool) : Ctx :=
  if ok then (if isMem c.kind then { c with nA := (c.nA + 1) % 2 ^ 64 } else c)
  else { c with failCnt := min 0xFFFF (c.failCnt + 1) }

/-! ### Keys of a context (R247, R270 to R275) -/

/-- The context-class slot of a key. -/
def ctxKeyIx (e slot : Nat) : Nat := 2 * e + slot

/-- Writes a key into a context's key slot with its parent (R370); GEN of the slot advances. -/
def putCtxKey (e slot : Nat) (key : List Byte) (bits parent pgen depth owner : Nat) (s : State) : State :=
  drawn 16 <| s.modCtxKey (ctxKeyIx e slot) fun old =>
    { st := .valid, kind := .context, owner := owner, depth := depth, bits := bits, gen := (old.gen + 1) % 2 ^ 32,
      use := old.use, parent := parent, pgen := pgen, key := slotBytes key, seed := drawBytes s 16 }

/-- Installs a key in the slot that is not current: NEXT, or current at once on a memory kind (R270, R271, R274). -/
def installNext (e : Nat) (key salt : List Byte) (an parent pgen depth : Nat) (s : State) : State :=
  let c := s.ctxAt e
  let slot := 1 - c.role
  let s1 := putCtxKey e slot key c.keySize parent pgen depth c.owner s
  s1.modCtx e fun c =>
    let c1 := (if salt.isEmpty then c else c.setSalt slot salt).bump
    if isMem c.kind then { c1 with role := slot, other := 2, sci := 0 }
    else
      let c2 := { c1 with other := 1 }
      let c3 := if isMacsec c.kind then (if slot = 0 then { c2 with anA := an } else { c2 with anB := an }) else c2
      if isRx c.kind then
        let c4 := c3.setRx slot (if isMacsec c.kind then 1 else 0)
        if isEsp c.kind then c4.setBitmap slot 0 else c4
      else c3

/-- Check 8 of R158 for the key a context's slot holds: STALE with cause PARENT, no key, or an old parent generation
(R267, R275, R354). -/
def ctxKeyCheck (s : State) (e slot : Nat) : Option Res :=
  let c := s.ctxAt e
  let k := s.ctxKey (ctxKeyIx e slot)
  if c.st == .stale && c.cause = 1 then some (parentInvalid 1)
  else if k.st != .valid then some (keyInvalid 0x22)
  else recordedCheck s k.parent k.pgen

/-- Keeps the generation of a cache entry whose validity ends (R26). -/
def keepGen (e : Nat) (s : State) : State :=
  s.modVault fun v => { v with gens := tset v.gens 0 e (((s.ctxAt e).gen + 1) % 2 ^ 16) }

/-- Marks a context STALE with a cause; GEN advances (R266). -/
def markStale (e cause : Nat) (s : State) : State :=
  s.modCtx e fun c => ({ c with st := .stale, cause := cause }).bump

end Sys2Proof.Machine
end

