-- ==== Sys2Proof/Machine/Hmp.lean ====
section
/-! DEFINITION. The host memory ports: translation of accesses (R415 to R419), dirty logging (R423, R424), the issue of
requests in order (R30, R41, R44) and the delivery of table walks. -/

namespace Sys2Proof.Machine

/-- Whether HMP `k` issues requests: its clock runs, it has not failed and the block is attached (R47, R73). -/
def hmpUsable (s : State) (k : Nat) : Bool :=
  s.port.clkOk.toNat.testBit k && !(s.hmp k).failed && (s.port.att == .attached || s.port.att == .detaching)

/-- How a translation ends: the host physical address and whether an IOTLB entry gave it, a walk to begin, or a
fault. -/
inductive Xl
  | pa (addr : Nat) (viaTlb : Bool)
  | walk
  | fail (cause level : Nat)
  deriving DecidableEq, Repr

/-- Whether an address lies in the instance's window (R415). -/
def inWindow (i : Inst) (addr len : Nat) : Bool :=
  i.winBase ≤ addr && addr + len ≤ i.winBase + i.winGib * 2 ^ 30 && addr + len ≤ 2 ^ 48

/-- The fault of an access that its translation does not permit (R419). -/
def permFault (op : ReqOp) (rd wr : Bool) : Option Nat :=
  if op == .read then (if rd then none else some 4) else if wr then none else some 5

/-- Translates the address of an access of instance `i` (R415, R416). -/
def translate (s : State) (a : Access) : Xl :=
  let i := s.inst a.inst
  if a.phys then .pa a.addr false
  else if !inWindow i a.addr a.len then .fail 1 0
  else if !i.translate then .pa a.addr false
  else
    match s.mem.tlb.find? fun e => e.inst == a.inst && e.asgen == i.asgen && e.page == a.addr / 2 ^ e.bits with
    | none => .walk
    | some e =>
      match permFault a.op e.rd e.wr with
      | some c => .fail c 0
      | none => .pa (e.pa + a.addr % 2 ^ e.bits) true

/-- The address of the descriptor that level `l` of a walk reads for an I/O virtual address (R417). -/
def descAddr (table l iova : Nat) : Nat := table + 8 * fld iova (48 - 9 * l) 9

/-- The lowest request tag not outstanding on a port (R41). -/
def freeTag (out : List Req) : Nat := ((List.range 2048).find? fun t => !(out.any fun r => r.tag == t)).getD 0

/-- Counts an event of an HMP (R519). -/
def hmpCount (k j n : Nat) (s : State) : State :=
  s.modHmp k fun h => { h with cnt := tmod h.cnt 0 j fun c => (c + n) % 2 ^ 32 }

/-- Which counter of R519 a request adds to. -/
def opCounter : ReqOp → Nat
  | .read => 0
  | .write => 1
  | .writeMask => 1
  | .atomicOr => 2

/-- The 64-byte beats of a transfer of `len` bytes. -/
def beatsOf (len : Nat) : Nat := max 1 (len / 64)

/-- The Integrity Codes of the 128-bit words of a byte string that lies at an address in an instance's name (R66, R67). -/
def wordCodes (data : List Byte) (addr inst : Nat) : List (BitVec 16) :=
  (List.range (ceilDiv data.length 16)).map fun q => integrityCode (bytesAt data (16 * q) 16) (addr + 16 * q) inst

/-- The codes that an output of a port carries: those of its words where the port is IC-extended, else zeros (R69). -/
def outCodes (s : State) (port : Nat) (data : List Byte) (addr inst : Nat) : List (BitVec 16) :=
  if s.port.icx.toNat.testBit port then wordCodes data addr inst else List.replicate (ceilDiv data.length 16) 0

/-- The string with bit `n` of it inverted. -/
def flipBit (n : Nat) (l : List Byte) : List Byte := l.modify (n / 8) fun b => b ^^^ byte (2 ^ (n % 8))

/-- Whether stored words pass the check of their next consumer where a bit of the store may have flipped, a bit of the data or, beyond
it, of the codes; `codes` are the codes that words should have (R68). -/
def storedGood (flip : Option Nat) (data : List Byte) (ics : List (BitVec 16)) (codes : List Byte → List (BitVec 16)) : Bool :=
  match flip with
  | none => true
  | some n =>
    if n < 8 * data.length then codes (flipBit n data) == ics
    else codes data == ics.modify ((n - 8 * data.length) / 16) fun c => c ^^^ BitVec.ofNat 16 (2 ^ (n % 16))

/-- The request of an access at a physical address on HMP `k` (R41): whole beats, with the byte mask of a masked write and all bytes
enabled in another write. -/
def reqOf (s : State) (k : Nat) (a : Access) (pa : Nat) (viaTlb : Bool) : Req :=
  let off := pa % 64
  let n := beatsOf a.len
  let data := if a.op == .read then [] else putBytes (zeros (64 * n)) off a.data
  { tag := freeTag (s.hmp k).out, op := a.op, addr := pa - off, inst := a.inst, data := data,
    be := if a.op == .read then 0 else if a.len < 64 then (2 ^ a.len - 1) * 2 ^ off else 2 ^ 64 - 1,
    beats := n - 1, ic := outCodes s k data (pa - off) a.inst, iova := a.addr, len := a.len, viaTlb := viaTlb,
    own := a.own, dp := a.dp, seq := a.seq }

/-- Issues the request of an access on HMP `k` (R41, R44). -/
def issueReq (k : Nat) (a : Access) (pa : Nat) (viaTlb : Bool) (s : State) : State :=
  hmpCount k (opCounter a.op) 1 (s.modHmp k fun h => { h with out := h.out ++ [reqOf s k a pa viaTlb] })

/-- The read of a walk's descriptor, issued for MI (R417). -/
def issueWalk (k inst table level iova : Nat) (s : State) : State :=
  let d := descAddr table level iova
  let r : Req := { tag := freeTag (s.hmp k).out, op := .read, addr := d / 64 * 64, inst := mi, iova := iova,
                   len := 8, own := .walk inst }
  hmpCount k 0 1 (s.modHmp k fun h => { h with out := h.out ++ [r] })

/-- Whether a write is logged as dirty: it goes into the instance's own address space while logging runs
(R424, R425). -/
def loggedWrite (s : State) (a : Access) : Bool :=
  a.op != .read && !a.phys && (s.inst a.inst).dlEn && !(s.inst a.inst).dlFault

/-- The atomic OR of a page's bit, merged into one of the same word that still waits; nothing when the bit is already
set (R424). -/
def logDirty (i addr : Nat) (s : State) : State :=
  let v := s.inst i
  let p := (addr - v.winBase) / 4096
  if p ∈ v.dlSet then s
  else
    let base := if v.dlActive then v.dlB else v.dlA
    let w := base + 8 * (p / 64)
    let s1 := s.modInst i fun x => { x with dlSet := p :: x.dlSet }
    let isW : Access → Bool := fun a => a.op == .atomicOr && a.own == .dirty i && a.addr == w
    if s.mem.waiting.any isW then
      let merge : Access → Access := fun a =>
        if isW a then { a with data := natLe 8 (leNat a.data ||| 2 ^ (p % 64)) } else a
      s1.modMem fun m => { m with waiting := m.waiting.map merge }
    else
      pushAcc { inst := i, op := .atomicOr, addr := w, phys := true, len := 8, data := natLe 8 (2 ^ (p % 64)),
                own := .dirty i } s1

/-- Adds a leaf translation for an instance within its IOTLB share, replacing its least recently used entry; with a share
of 0 nothing is held (R416). -/
def tlbAdd (e : TlbEnt) (s : State) : State :=
  let share := (s.inst e.inst).iotlb
  if share = 0 then s
  else s.modMem fun m =>
    let mine := m.tlb.filter fun x => x.inst == e.inst
    let others := m.tlb.filter fun x => x.inst != e.inst
    { m with tlb := others ++ (mine.drop (mine.length + 1 - share) ++ [e]) }

/-- Marks an IOTLB entry as the most recently used of its instance (R416). -/
def tlbTouch (inst asgen addr : Nat) (s : State) : State :=
  s.modMem fun m =>
    let hit : TlbEnt → Bool := fun e => e.inst == inst && e.asgen == asgen && e.page == addr / 2 ^ e.bits
    { m with tlb := (m.tlb.filter fun e => !hit e) ++ m.tlb.filter hit }

/-- An access that failed before or after it was issued: the access's owner, cause, walk level, and whether a walk read
failed. -/
structure AccFail where
  acc : Access
  cause : Nat
  level : Nat := 0
  walkRd : Bool := false
  deriving DecidableEq, Repr

/-- One access at the front of the waiting list: kept (blocking its instance), issued, or failed. -/
inductive Tried
  | keep (a : Access) (s : State)
  | done (s : State)
  | failed (f : AccFail) (s : State)

/-- Tries to issue one access (R30, R44, R46, R416). -/
def tryIssue (a : Access) (s : State) : Tried :=
  let k := hmpOf s a.inst
  if !hmpUsable s k || a.inst ∈ s.mem.moving || (a.walk.map Walk.asked).getD false || (s.hmp k).out.length ≥ 2048 then .keep a s
  else if let some p := a.pa then
    let s1 := issueReq k a p.1 p.2 s
    .done (if a.fresh && loggedWrite s a then logDirty a.inst a.addr s1 else s1)
  else if let some w := a.walk then
    .keep { a with walk := some { w with asked := true } } (issueWalk k a.inst w.table w.level a.addr s)
  else
    match translate s a with
    | .fail c l => .failed { acc := a, cause := c, level := l } s
    | .walk =>
      let root := (s.inst a.inst).xlRoot
      .keep { a with walk := some { level := 1, table := root, asked := true } } (issueWalk k a.inst root 1 a.addr s)
    | .pa pa tlb =>
      let s1 := if tlb then tlbTouch a.inst (s.inst a.inst).asgen a.addr s else s
      let s2 := issueReq k a pa tlb s1
      .done (if loggedWrite s a then logDirty a.inst a.addr s2 else s2)

/-- Goes through the waiting accesses in order. An access that must wait holds back every later one of its
instance (R30). -/
def pumpGo (fuel : Nat) (kept : List Access) (fails : List AccFail) (s : State) : State × List AccFail :=
  match fuel with
  | 0 => (s.modMem fun m => { m with waiting := kept ++ m.waiting }, fails)
  | f + 1 =>
    match s.mem.waiting with
    | [] => (s.modMem fun m => { m with waiting := kept }, fails)
    | a :: rest =>
      let s1 := s.modMem fun m => { m with waiting := rest }
      if kept.any fun b => b.inst == a.inst then pumpGo f (kept ++ [a]) fails s1
      else
        match tryIssue a s1 with
        | .keep b s2 => pumpGo f (kept ++ [b]) fails s2
        | .done s2 => pumpGo f kept fails s2
        | .failed x s2 => pumpGo f kept (fails ++ [x]) s2

/-- Issues every access that may be issued now, and answers those whose translation failed. -/
def pump (s : State) : State × List AccFail := pumpGo (2 * s.mem.waiting.length + 64) [] [] s

/-- Replaces the waiting access of an instance whose walk is in progress. -/
def setWalking (i : Nat) (f : Access → Option Access) (s : State) : State :=
  let g : Access → Option Access := fun a => if a.inst == i && a.walk.isSome then f a else some a
  s.modMem fun m => { m with waiting := m.waiting.filterMap g }

/-- What a table descriptor says at a level of a walk: a fault, the next table, or a leaf of so many address
bits (R417). -/
inductive Desc
  | bad (cause : Nat)
  | table (addr : Nat) (rd wr : Bool)
  | leaf (addr bits : Nat) (rd wr : Bool)
  deriving DecidableEq, Repr

/-- Reads a table descriptor (R417). -/
def readDesc (d level : Nat) : Desc :=
  let addr := fld d 12 40 * 4096
  let rd := bit d 2
  let wr := bit d 3
  if !bit d 0 then .bad 2
  else if fld d 4 8 != 0 || fld d 62 2 != 0 then .bad 3
  else if bit d 1 then
    if level = 1 then .bad 3
    else if level = 2 then (if addr % 2 ^ 30 = 0 then .leaf addr 30 rd wr else .bad 3)
    else if level = 3 then (if addr % 2 ^ 21 = 0 then .leaf addr 21 rd wr else .bad 3)
    else .leaf addr 12 rd wr
  else if level = 4 then .bad 3
  else .table addr rd wr

/-- The walk read of instance `i` returned the line: the walk goes to its next level, faults, or ends in a leaf; the next read, or the
access that waited, is then issued in its turn (R46, R416, R417). -/
def walkStep (i : Nat) (line : List Byte) (s : State) : State × List AccFail :=
  match s.mem.waiting.find? fun a => a.inst == i && a.walk.isSome with
  | none => (s, [])
  | some a =>
    let w := a.walk.getD {}
    let d := leAt line (descAddr w.table w.level a.addr % 64) 8
    let gone : State := setWalking i (fun _ => none) s
    match readDesc d w.level with
    | .bad c => (gone, [{ acc := { a with walk := none }, cause := c, level := w.level }])
    | .table t rd wr =>
      let w2 : Walk := { w with level := w.level + 1, table := t, rd := w.rd && rd, wr := w.wr && wr, asked := false }
      (setWalking i (fun b => some { b with walk := some w2 }) s, [])
    | .leaf pa bits rd wr =>
      let rd2 := w.rd && rd
      let wr2 := w.wr && wr
      let share := (s.inst i).iotlb
      match permFault a.op rd2 wr2 with
      | some c => (gone, [{ acc := { a with walk := none }, cause := c, level := w.level }])
      | none =>
        let e : TlbEnt := { inst := i, asgen := (s.inst i).asgen, bits := bits, page := a.addr / 2 ^ bits, pa := pa,
                            rd := rd2, wr := wr2 }
        let s1 := setWalking i (fun b => some { b with walk := none, pa := some (pa + a.addr % 2 ^ bits, share != 0), fresh := true }) s
        (if w.stale then s1 else tlbAdd e s1, [])

/-- The walk of instance `i` failed: the access that waited faults with a cause at the level reached (R419). -/
def walkFail (i cause : Nat) (s : State) : State × List AccFail :=
  match s.mem.waiting.find? fun a => a.inst == i && a.walk.isSome with
  | none => (s, [])
  | some a =>
    (setWalking i (fun _ => none) s,
      [{ acc := { a with walk := none }, cause := cause, level := (a.walk.getD {}).level, walkRd := true }])

end Sys2Proof.Machine
end

