-- ==== Sys2Proof/Machine/Scan.lean ====
section
/-! DEFINITION. The ring scanner: entry headers (R99 to R106), the forward scan (R107 to R111), the structural checks of
R124 and the entry cache. -/

namespace Sys2Proof.Machine

/-! ### The entry header (R99) -/

/-- OWN. -/
def hOwn (h : Nat) : Bool := bit h 63
/-- LAP. -/
def hLap (h : Nat) : Bool := bit h 62
/-- LEN32. -/
def hLen (h : Nat) : Nat := fld h 56 6
/-- OPC. -/
def hOpc (h : Nat) : Nat := fld h 48 8
/-- FIRST. -/
def hFirst (h : Nat) : Bool := bit h 47
/-- LAST. -/
def hLast (h : Nat) : Bool := bit h 46
/-- BARRIER. -/
def hBarrier (h : Nat) : Bool := bit h 45
/-- IRQ_NOW. -/
def hIrq (h : Nat) : Bool := bit h 44
/-- OPFLAGS. -/
def hFlags (h : Nat) : Nat := fld h 32 12
/-- CTX. -/
def hCtx (h : Nat) : Nat := fld h 8 24
/-- SEQ8. -/
def hSeq (h : Nat) : Nat := fld h 0 8

/-- LEN32 of each data-plane opcode, none for PAD (any length) and for an undefined opcode (R140). -/
def opLen32 (o : Nat) : Option Nat :=
  match o with
  | 0x10 => some 3 | 0x11 => some 3 | 0x20 => some 2 | 0x21 => some 2 | 0x22 => some 2 | 0x23 => some 2
  | 0x30 => some 3 | 0x31 => some 3 | 0x32 => some 3 | 0x33 => some 2
  | 0x40 => some 3 | 0x41 => some 3 | 0x42 => some 3 | 0x43 => some 3 | 0x44 => some 3 | 0x45 => some 3
  | 0x46 => some 3 | 0x47 => some 3 | 0x48 => some 3 | 0x50 => some 2 | 0x51 => some 2
  | _ => none

/-- Opcodes of command packets on the control ring (R462). -/
def cmdOpcodes : List Nat :=
  [0x00, 0x01, 0x02, 0x03, 0x04, 0x05, 0x10, 0x11, 0x12, 0x13, 0x14, 0x15, 0x20, 0x21, 0x22, 0x28, 0x30, 0x31, 0x38, 0x39,
   0x3A, 0x40, 0x41, 0x48, 0x50, 0x58, 0x60, 0x68, 0x70]

/-- Whether ring `n` is MI's control ring (R92, R458). -/
def isControl (s : State) (n : Nat) : Bool := n == s.ory.ctrlRing && ringOwner s n == some mi

/-- Whether an opcode is defined on ring `n`. -/
def opcDefined (s : State) (n opc : Nat) : Bool :=
  if isControl s n then cmdOpcodes.contains opc else opc == 0 || (opLen32 opc).isSome

/-! ### Ring geometry -/

/-- Slots of a ring (R94). -/
def Ring.slots (r : Ring) : Nat := 2 ^ (6 + r.size)

/-- Address of a slot. -/
def Ring.addr (r : Ring) (slot : Nat) : Nat := r.base + 32 * slot

/-- The slot after `k` slots from `slot`, and the lap there (R100). -/
def Ring.after (r : Ring) (slot : Nat) (lap : Bool) (k : Nat) : Nat × Bool :=
  if slot + k ≥ r.slots then ((slot + k) % r.slots, !lap) else (slot + k, lap)

/-- The instance that a ring's accesses belong to. -/
def ringInst (s : State) (n : Nat) : Nat := (ringOwner s n).getD mi

/-- Advances the scan pointer of ring `n` by `k` slots (R107). -/
def scanAdvance (n k : Nat) (s : State) : State :=
  s.modRing n fun r =>
    let p := r.after r.scan r.lap k
    { r with scan := p.1, lap := p.2 }

/-! ### The forward scan (R107 to R111) -/

/-- Reads the header at the scan pointer, with the rest of its 64-byte line. -/
def readHeader (n : Nat) (s : State) : State :=
  let r := s.ring n
  let a := r.addr r.scan
  startRead (ringInst s n) a (64 - a % 64) false (.ringHdr n) (s.modRing n fun x => { x with scanSt := .reading })

/-- Goes on with a scan: at the next header, or waiting while the entry cache holds 8 entries of the ring (R107). -/
def scanOn (n : Nat) (s : State) : State :=
  let r := s.ring n
  if r.cache.length ≥ 8 && !r.drain then s.modRing n fun x => { x with scanSt := .waiting } else readHeader n s

/-- IC_ERROR of R126. -/
def icError : Res := res 0x0A 0

/-- The Integrity Codes of an entry's body words, at the addresses the ring holds them at (R66, R68). -/
def entryCodes (r : Ring) (inst : Nat) (e : Entry) : List (BitVec 16) :=
  if e.chain.isEmpty then wordCodes e.body (r.addr e.slot + 16) inst
  else e.chain.zipIdx.flatMap fun c => wordCodes (bytesAt e.body (48 * c.2) 48) (r.addr c.1.1 + 16) inst

/-- Puts an entry at the end of the entry cache with the codes of its words; while the ring drains, completes it instead with the ring's status, after
the zeros of R429 where it was admitted before a reset point. -/
def putEntry (n : Nat) (e : Entry) (s : State) : State :=
  let r := s.ring n
  if r.drain then
    let ext := ((r.zero.find? fun z => z.1 == e.slot).map Prod.snd).getD []
    let s1 := ext.foldl (fun t x => startWrite (ringInst s n) x.1 (zeros x.2) false (.ringWr n e.slot) true t) s
    s1.modRing n fun x => { x with rob := x.rob ++ [{ ent := e, fin := some (res x.stopAs 0) }],
                                   zero := x.zero.filter fun z => z.1 != e.slot }
  else s.modRing n fun x => { x with cache := x.cache ++ [{ e with ics := entryCodes r (ringInst s n) e }] }

/-- Makes one entry of the open chain (R104), with a verdict where its structure failed. BARRIER and IRQ_NOW hold where
any header of the chain sets them. -/
def chainEntry (c : List (Nat × Nat × List Byte)) (v : Option Res) : Entry :=
  let h0 := ((c.head?).map fun x => x.2.1).getD 0
  let h1 := if c.any fun x => hBarrier x.2.1 then setFld h0 45 1 1 else h0
  let h2 := if c.any fun x => hIrq x.2.1 then setFld h1 44 1 1 else h1
  { slot := ((c.head?).map Prod.fst).getD 0, slots := 2 * c.length, hdr := h2,
    body := (c.map fun x => x.2.2).flatten, chain := c.map fun x => (x.1, x.2.1), verdict := v }

/-- Closes the open chain of ring `n` into one entry, an IC_ERROR where a body of it failed (R126). -/
def closeChain (n : Nat) (v : Option Res) (s : State) : State :=
  let v1 := if v.isNone && (s.ring n).chainBad then some icError else v
  putEntry n (chainEntry (s.ring n).chain v1) (s.modRing n fun r => { r with chain := [], chainBad := false })

/-- The scan of ring `n` ends at a header the block does not own: a drain is complete, its open chain with it (R128), or a
recorded further scan starts (R108). -/
def scanEnd (n : Nat) (s : State) : State :=
  let r := s.ring n
  if r.drain then
    let s1 := if r.chain.isEmpty then s else closeChain n none s
    s1.modRing n fun x => { x with scanSt := .idle, drain := false, further := false, zero := [] }
  else if r.further && r.invDone then scanOn n (s.modRing n fun x => { x with further := false })
  else s.modRing n fun x => { x with scanSt := .idle, further := false }

/-- After an entry was taken: the scan goes on, or ends where an invalidation waits for it (R114). -/
def scanTaken (n : Nat) (s : State) : State :=
  if (s.ring n).invDone || (s.ring n).drain then scanOn n s
  else s.modRing n fun x => { x with scanSt := .idle, further := false }

/-- Takes an entry of `k` slots at the scan pointer. -/
def takeEntry (n : Nat) (e : Entry) (s : State) : State :=
  scanTaken n (scanAdvance n e.slots (putEntry n e s))

/-- MALFORMED (R124). -/
def malformed (detail : Nat) : Res := res 4 detail

/-- Checks 0x01 to 0x05 of R124 on an owned header of ring `n` at slot `slot`: the verdict and the slots it covers. -/
def hdrCheck (s : State) (n slot h : Nat) : Option (Res × Nat) :=
  let r := s.ring n
  let toEnd := r.slots - slot
  if hLen h = 0 || hLen h > 32 || (r.chained && (hLen h != 2 || slot % 2 = 1)) then some (malformed 1, toEnd)
  else if slot + hLen h > r.slots then some (malformed 2, toEnd)
  else if hSeq h != slot % 256 then some (malformed 3, hLen h)
  else if !r.chained && (hFirst h || hLast h) then some (malformed 4, hLen h)
  else if !opcDefined s n (hOpc h) then some (malformed 5, hLen h)
  else none

/-- An owned header of a chained ring whose own checks passed (R104, R124). -/
def takeChained (n slot h : Nat) (body : List Byte) (bad : Bool) (s : State) : State :=
  let c := (s.ring n).chain
  let broken := match c.head? with
    | none => false
    | some f => hFirst h || hOpc h != hOpc f.2.1 || hCtx h != hCtx f.2.1
  let s1 := if broken then closeChain n (some (malformed 8)) s else s
  let c1 := (s1.ring n).chain
  if c1.isEmpty && !hFirst h then
    takeEntry n { slot := slot, slots := 2, hdr := h, body := body, chain := [(slot, h)],
                  verdict := some (malformed 8) } s1
  else
    let s2 := scanAdvance n 2 (s1.modRing n fun r => { r with chain := r.chain ++ [(slot, h, body)], chainBad := r.chainBad || bad })
    let s3 :=
      if hLast h then closeChain n none s2
      else if (s2.ring n).chain.length ≥ 21 then closeChain n (some (malformed 9)) s2
      else s2
    scanTaken n s3

/-- An owned header whose own checks failed; in an open chain the chain's entries are covered with it. -/
def takeBad (n slot h : Nat) (v : Res) (k : Nat) (s : State) : State :=
  let c := (s.ring n).chain
  let e : Entry := { slot := slot, slots := k, hdr := h, verdict := some v }
  if c.isEmpty then takeEntry n e s
  else
    let ce := chainEntry (c ++ [(slot, h, [])]) (some v)
    scanTaken n (scanAdvance n k (putEntry n { ce with slots := 2 * c.length + k }
      (s.modRing n fun r => { r with chain := [], chainBad := false })))

/-- The line with the header at the scan pointer arrived: the scan ends at a header the block does not own, or takes the
entry, reading the part of its body beyond the line (R107, R111, R124); `bad` where a word beyond the header failed its Integrity
Code, and the entry is an IC_ERROR (R126). -/
def examineHeader (n : Nat) (line : List Byte) (bad : Bool) (s : State) : State :=
  let r := s.ring n
  let h := leAt line 0 8
  let s1 := s.modRing n fun x => { x with hdrRetry := false }
  if !(hOwn h && hLap h == r.lap) then scanEnd n s1
  else
    match hdrCheck s n r.scan h with
    | some (v, k) => takeBad n r.scan h v k s1
    | none =>
      if r.chained then takeChained n r.scan h (bytesAt line 16 48) bad s1
      else if bad then takeEntry n { slot := r.scan, slots := hLen h, hdr := h, verdict := some icError } s1
      else
        let e : Entry := { slot := r.scan, slots := hLen h, hdr := h, body := bytesAt line 16 (line.length - 16) }
        if 32 * e.slots ≤ line.length || r.drain then takeEntry n { e with body := e.body.take (32 * e.slots - 16) } s1
        else if !r.invDone then s1.modRing n fun x => { x with scanSt := .idle, further := false }
        else startRead (ringInst s n) (r.addr r.scan + line.length) (32 * e.slots - line.length) false (.ringBody n)
               (s1.modRing n fun x => { x with reading := some e })

/-- The header's read failed its Integrity Code or returned DATA_ERR: once more, and the second time the entry completes
as IC_ERROR to the end of the ring (R126). -/
def headerFailed (n : Nat) (s : State) : State :=
  let r := s.ring n
  if !r.hdrRetry then readHeader n (s.modRing n fun x => { x with hdrRetry := true })
  else
    let h := r.scan % 256 + (if r.lap then 2 ^ 62 else 0)
    takeBad n r.scan h icError (r.slots - r.scan) (s.modRing n fun x => { x with hdrRetry := false })

/-- The rest of an entry's body arrived, or failed its Integrity Code (R111, R126). -/
def bodyArrived (n : Nat) (more : List Byte) (good : Bool) (s : State) : State :=
  match (s.ring n).reading with
  | none => s
  | some e =>
    takeEntry n { e with body := e.body ++ more, verdict := if good then none else some icError }
      (s.modRing n fun x => { x with reading := none })

/-! ### Stops after a failed access (R93) -/

/-- Gives up what the scan of ring `n` reads: a later answer meets nothing. -/
def abandonScan (n : Nat) (s : State) : State :=
  (s.modMem fun m => { m with bufs := m.bufs.filter fun b => b.own != .ringHdr n && b.own != .ringBody n }).modRing n
    fun r => { r with scanSt := .idle, further := false, reading := none, hdrRetry := false }

/-- The write of an entry's retirement with access number `q` failed: from here on no done-head of ring `n`, nor a record, shows a
place past that entry, and the done-head writes not yet issued are not made (R123; log entry 171). -/
def capHead (n q : Nat) (s : State) : State :=
  let r := s.ring n
  match r.marks.reverse.find? fun m => m.seq ≤ q with
  | none => s
  | some m =>
    let c := match r.cap with
      | some c => if c.seq ≤ m.seq then c else m
      | none => m
    let past := fun (x : NrRec) => x.ring = n && x.retired != c.retired && (x.retired + 2 ^ 32 - c.retired) % 2 ^ 32 < 2 ^ 31
    let s1 := s.modRing n fun x => { x with cap := some c }
    let s2 := s1.modMem fun w => { w with waiting := w.waiting.filter fun a => a.own != .doneHead n }
    let clamp : NrRec → NrRec := fun x =>
      if past x then { x with doneHead := c.slot, dhLap := c.lap, retired := c.retired } else x
    s2.modNr r.nrn fun k => { k with recs := k.recs.map clamp }

/-- RING_FAULT's effect on a submission ring: scanning stops, cached entries not admitted go, admitted ones run on
(R93, R127). Until they have, STATE reads STOPPING, and ENABLE = 1 is recorded as PENDING_ENABLE (log entry 172). -/
def ringFault (n : Nat) (s : State) : State :=
  (abandonScan n s).modRing n fun r =>
    if r.st == .disabled then { r with fault := true }
    else { r with fault := true, endFlags := r.endFlags ||| 8, st := if r.st == .pendingEnable then .pendingEnable else .stopping,
                  cache := [], chain := [], chainBad := false, drain := false, zero := [], bell := false, invDone := true }

/-- Whether a record is the last of a run of its ring: it carries RING_STOPPED or RING_FAULT. -/
def NrRec.isLast (x : NrRec) : Bool := fld x.flags 2 2 != 0

/-- Adds the count and flags of an earlier record to the first record of the same ring in a list. -/
def NrRec.mergeInto (x : NrRec) : List NrRec → Option (List NrRec)
  | [] => none
  | y :: r =>
    if y.ring = x.ring then some ({ y with count := min 0xFFFF (y.count + x.count), flags := y.flags ||| x.flags } :: r)
    else (x.mergeInto r).map fun l => y :: l

/-- What stays pending of records decided and not written: each ring's last record of a run with the count since the record before it,
and at most one other record after it. -/
def pendingRecs : List NrRec → List NrRec
  | [] => []
  | x :: r => if x.isLast then x :: pendingRecs r else (x.mergeInto (pendingRecs r)).getD (x :: pendingRecs r)

/-- The records a notification ring had decided go back to their rings as pending counts and flags, but for the last records of runs that
have ended, which the notification ring keeps (R132). A record that ends at an IRQ_NOW entry loses its interrupt at once: a later
record carries its count (log entry 173). -/
def unwriteRecs (k : Nat) (s : State) : State :=
  let l := pendingRecs (s.nr k).recs
  (l.filter fun x => !x.isLast).foldl (fun t x => t.modRing x.ring fun r =>
    { r with since := min 0xFFFF (r.since + x.count), flags := r.flags ||| x.flags })
    (s.modNr k fun x => { x with recs := [], late := x.late ++ l.filter NrRec.isLast })

/-- A notification ring stopped by a failed access is DISABLED at once (R93, R524). -/
def nrFault (k : Nat) (s : State) : State :=
  (unwriteRecs k s).modNr k fun x => { x with fault := true, enabled := false, rdId := none, retry := false }

/-- A read of ring memory ended: the header or body goes on, or the ring stops (R93). -/
def ringReadDone (n : Nat) (hdr : Bool) (b : RdBuf) (s : State) : State :=
  if (s.ring n).scanSt != .reading then s
  else
    match b.res with
    | .pending => s
    | .xlate _ _ _ => ringFault n s
    | .ic => if hdr then headerFailed n s else bodyArrived n (zeros b.len) false s
    | .ok => if hdr then examineHeader n b.data b.bad s else bodyArrived n b.data true s

end Sys2Proof.Machine
end

