-- ==== Sys2Proof/Machine/Operands.lean ====
section
/-! DEFINITION. The bodies of ring entries: the fields of every layout (R142 to R157), their reserved bits (check 1 of R158,
R526), and the checks of fields that need no context (checks 2 and 3). Field positions are the spec's, counted from bit 0 of
entry byte 0; a body starts at bit 128. -/

namespace Sys2Proof.Machine

/-- The field of a body at entry bits `lo` upwards, `w` bits wide. -/
def bf (body : List Byte) (lo w : Nat) : Nat := fld (leAt body (lo / 8 - 16) ((lo % 8 + w + 7) / 8)) (lo % 8) w

/-- Whether any of the listed fields, each an entry bit and a width, is non-zero. -/
def anySet (body : List Byte) (fs : List (Nat × Nat)) : Bool := fs.any fun f => bf body f.1 f.2 != 0

/-! ### OPFLAGS of symmetric jobs -/

/-- INPLACE. -/
def fInplace (f : Nat) : Bool := bit f 0
/-- TAG_SEP. -/
def fTagSep (f : Nat) : Bool := bit f 1
/-- IV_CTX. -/
def fIvCtx (f : Nat) : Bool := bit f 2
/-- COMET. -/
def fComet (f : Nat) : Bool := bit f 3
/-- AAD_COPY. -/
def fAadCopy (f : Nat) : Bool := bit f 4

/-! ### Opcode groups (R140) -/

/-- SYM_ENC and SYM_DEC. -/
def isSym (o : Nat) : Bool := o == 0x10 || o == 0x11
/-- The frame jobs. -/
def isFrame (o : Nat) : Bool := 0x20 ≤ o && o ≤ 0x23
/-- DIGEST, MAC, MAC_VERIFY. -/
def isDigestOp (o : Nat) : Bool := 0x30 ≤ o && o ≤ 0x32
/-- MAC and MAC_VERIFY. -/
def isMacOp (o : Nat) : Bool := o == 0x31 || o == 0x32
/-- The Anvil opcodes. -/
def isAnvil (o : Nat) : Bool := 0x40 ≤ o && o ≤ 0x48
/-- The key jobs. -/
def isKeyJob (o : Nat) : Bool := o == 0x50 || o == 0x51
/-- Opcodes that install a next key: the key jobs and KEY_AGREE, KEM_ENCAPS, KEM_DECAPS. -/
def installsKey (o : Nat) : Bool := isKeyJob o || (0x44 ≤ o && o ≤ 0x46)
/-- Decrypting opcodes (R148). -/
def decrypts (o : Nat) : Bool := o == 0x11 || o == 0x21 || o == 0x23
/-- Opcodes whose CTX names a context; MAC and MAC_VERIFY name one unless they name an HMAC slot (R140). -/
def namesCtx (o flags : Nat) : Bool := isSym o || isFrame o || installsKey o || (isMacOp o && !bit flags 0)
/-- Opcodes that read no key (R442). -/
def readsNoKey (o : Nat) : Bool := o == 0 || o == 0x30 || o == 0x33 || o == 0x41 || o == 0x43 || o == 0x48

/-! ### Buffers -/

/-- SRC address. -/
def srcAddr (b : List Byte) : Nat := bf b 128 48
/-- SRC_SGL. -/
def srcSgl (b : List Byte) : Bool := bf b 190 1 == 1
/-- SRC_LEN, or the element count of the first page. -/
def srcLen (b : List Byte) : Nat := bf b 192 32
/-- DST address. -/
def dstAddr (b : List Byte) : Nat := bf b 256 48
/-- DST_SGL. -/
def dstSgl (b : List Byte) : Bool := bf b 318 1 == 1
/-- DST_LEN, or the element count of the first page. -/
def dstLen (b : List Byte) : Nat := bf b 320 32

/-! ### Symmetric jobs -/

/-- The IV field. -/
def symIv (b : List Byte) : List Byte := bytesAt b 32 16
/-- TAG_ADDR. -/
def symTagAddr (b : List Byte) : Nat := bf b 512 48
/-- TEXT_LEN. -/
def symText (b : List Byte) : Nat := bf b 576 32
/-- AAD_LEN. -/
def symAad (b : List Byte) : Nat := bf b 608 16
/-- TAG_LEN. -/
def symTag (b : List Byte) : Nat := bf b 624 8
/-- XTS_DU. -/
def symDu (b : List Byte) : Nat := bf b 640 5
/-- COMET_LANES. -/
def symLanes (b : List Byte) : Nat := bf b 648 5

/-! ### Frame jobs -/

/-- FRAME_LEN. -/
def frLen (b : List Byte) : Nat := bf b 384 16
/-- HDR_LEN. -/
def frHdr (b : List Byte) : Nat := bf b 400 8
/-- NEXT_HDR. -/
def frNext (b : List Byte) : Nat := bf b 408 8
/-- OUT_CLASS. -/
def frClass (b : List Byte) : Nat := bf b 416 3
/-- OUT_SEL. -/
def frSel (b : List Byte) : Nat := bf b 419 2

/-! ### Digest jobs -/

/-- ALG of digest jobs. -/
def dgAlg (b : List Byte) : Nat := bf b 384 8
/-- OUT_LEN. -/
def dgOut (b : List Byte) : Nat := bf b 392 16
/-- SLOT. -/
def dgSlot (b : List Byte) : Nat := bf b 408 12
/-- S_LEN. -/
def dgSLen (b : List Byte) : Nat := bf b 448 9
/-- S_ADDR. -/
def dgSAddr (b : List Byte) : Nat := bf b 512 48

/-- Full length of a digest algorithm code: none where undefined; 0 for SHAKE (R153). -/
def algLen (a : Nat) : Option Nat :=
  match a with
  | 0x01 => some 28 | 0x02 => some 32 | 0x03 => some 48 | 0x04 => some 64 | 0x05 => some 32
  | 0x10 => some 32 | 0x11 => some 48 | 0x12 => some 64 | 0x18 => some 0 | 0x19 => some 0
  | 0x20 => some 32 | 0x21 => some 48 | 0x22 => some 64 | 0x28 => some 32 | 0x29 => some 64
  | _ => none
/-- Whether a code is a MAC algorithm. -/
def algIsMac (a : Nat) : Bool := 0x20 ≤ a && a ≤ 0x29
/-- Whether a code is KMAC. -/
def algIsKmac (a : Nat) : Bool := a == 0x28 || a == 0x29
/-- Whether a code is SHAKE. -/
def algIsShake (a : Nat) : Bool := a == 0x18 || a == 0x19
/-- The output length that OUT_LEN asks for. -/
def dgLen (b : List Byte) : Nat := if dgOut b = 0 then (algLen (dgAlg b)).getD 0 else dgOut b

/-- Bytes of a block of a digest algorithm: its SHA-2 block, or its Keccak rate (R303). -/
def dgBlock (a : Nat) : Nat :=
  match a with
  | 0x01 => 64 | 0x02 => 64 | 0x20 => 64
  | 0x03 => 128 | 0x04 => 128 | 0x05 => 128 | 0x21 => 128 | 0x22 => 128
  | 0x18 => 168 | 0x28 => 168
  | 0x11 => 104 | 0x12 => 72
  | _ => 136
/-- Segments of a message of `n` bytes: one ends at the first block boundary at or after each 4,096-byte boundary, and what is left
is the last; the output of SHAKE is cut alike (R305). -/
def digestSegs (b : List Byte) (n : Nat) : Nat :=
  let r := dgBlock (dgAlg b)
  let ends := ((List.range (n / 4096)).filter fun k => roundUp (4096 * (k + 1)) r ≤ n).length
  1 + ends + (if algIsShake (dgAlg b) then ceilDiv (dgLen b) (roundUp 4096 r) else 0)
/-- Compressions or permutations of a message of `n` bytes (R303); `slot` where the key is an HMAC slot. -/
def digestCost (b : List Byte) (slot : Bool) (n : Nat) : Nat :=
  let a := dgAlg b
  let r := dgBlock a
  if algIsKmac a then ceilDiv (dgSLen b + 11) r + 1 + ceilDiv (n + 4) r
  else if 0x10 ≤ a && a ≤ 0x19 then ceilDiv (n + 1) r + (if algIsShake a then ceilDiv (dgLen b) r - 1 else 0)
  else ceilDiv (n + (if r = 64 then 9 else 17)) r + (if algIsMac a then (if slot then 1 else 3) else 0)

/-! ### Anvil jobs -/

/-- IN_ADDR. -/
def avIn (b : List Byte) : Nat := bf b 128 48
/-- IN_LEN. -/
def avInLen (b : List Byte) : Nat := bf b 192 32
/-- OUT_ADDR. -/
def avOut (b : List Byte) : Nat := bf b 256 48
/-- OUT_LEN. -/
def avOutLen (b : List Byte) : Nat := bf b 320 32
/-- KEY_ADDR. -/
def avKey (b : List Byte) : Nat := bf b 384 48
/-- ALG. -/
def avAlg (b : List Byte) : Nat := bf b 448 8
/-- KEY_LEN. -/
def avKeyLen (b : List Byte) : Nat := bf b 456 16
/-- PARENT. -/
def avParent (b : List Byte) : Nat := bf b 512 32
/-- LABEL. -/
def avLabel (b : List Byte) : List Byte := bytesAt b 56 8

/-- Opcodes that take an Anvil ALG code: none where the code is undefined (R155). -/
def avOpcodes (a : Nat) : Option (List Nat) :=
  if a = 0x00 then some [0x48]
  else if a = 0x01 then some [0x40, 0x41, 0x47]
  else if 0x10 ≤ a && a ≤ 0x12 then some [0x42, 0x43, 0x47]
  else if 0x14 ≤ a && a ≤ 0x16 then some [0x44, 0x47]
  else if a = 0x18 || a = 0x19 then some [0x42, 0x43, 0x47]
  else if a = 0x20 || a = 0x21 then some [0x44, 0x47]
  else if 0x30 ≤ a && a ≤ 0x32 then some [0x45, 0x46, 0x47]
  else if 0x38 ≤ a && a ≤ 0x3A then some [0x42, 0x43, 0x47]
  else none

/-! ### Key jobs -/

/-- PARENT of a key job. -/
def kjParent (b : List Byte) : Nat := bf b 128 32
/-- LABEL of a key job. -/
def kjLabel (b : List Byte) : List Byte := bytesAt b 8 8
/-- BLOB_ADDR. -/
def kjBlob (b : List Byte) : Nat := bf b 256 48
/-- BLOB_LEN. -/
def kjBlobLen (b : List Byte) : Nat := bf b 320 16
/-- KEY_BITS. -/
def kjBits (b : List Byte) : Nat := bf b 384 8

/-! ### Check 1: reserved fields (R18, R526) -/

/-- Reserved bits of a source that may be listed. -/
def srcResv (b : List Byte) : List (Nat × Nat) :=
  [(176, 14), (191, 1), (224, 32)] ++ if srcSgl b then [(201, 23)] else []
/-- Reserved bits of a destination that may be listed. -/
def dstResv (b : List Byte) : List (Nat × Nat) :=
  [(304, 14), (319, 1), (352, 32)] ++ if dstSgl b then [(329, 23)] else []

/-- Reserved fields of an opcode's body. -/
def bodyResv (o flags : Nat) (b : List Byte) : List (Nat × Nat) :=
  if isSym o then
    srcResv b ++ dstResv b ++ [(560, 16), (632, 8), (645, 3), (653, 115)]
      ++ (if fTagSep flags then [] else [(512, 48)]) ++ (if fIvCtx flags then [(384, 128)] else [])
      ++ (if fComet flags then [] else [(648, 5)])
  else if isFrame o then
    srcResv b ++ dstResv b ++ [(421, 91)] ++ (if o = 0x22 then [] else [(408, 8)])
      ++ (if frSel b = 0 then [(416, 3)] else [])
  else if isDigestOp o then
    srcResv b ++ [(304, 16), (352, 32), (420, 28), (457, 55), (560, 208)]
      ++ (if isMacOp o && bit flags 0 then [] else [(408, 12)]) ++ (if algIsKmac (dgAlg b) then [] else [(448, 9)])
      ++ (if dgSLen b = 0 then [(512, 48)] else [])
  else if o = 0x33 then [(176, 16), (224, 32), (304, 16), (352, 32), (384, 128)]
  else if isAnvil o then
    [(176, 16), (224, 32), (304, 16), (352, 32), (432, 16), (472, 40), (544, 32), (640, 128)]
      ++ (if 0x44 ≤ o && o ≤ 0x46 then [] else [(576, 64)])
  else if isKeyJob o then
    [(160, 32), (304, 16), (336, 48), (392, 120)] ++ if o = 0x51 then [(192, 64)] else []
  else []

/-- Bits of OPFLAGS that an Anvil opcode defines for an ALG; with an undefined ALG, those that it defines for any (R327). -/
def anvilFlags (o a : Nat) : Nat :=
  let ecdsa := 0x10 ≤ a && a ≤ 0x12
  let mldsa := 0x38 ≤ a && a ≤ 0x3A
  let any := (avOpcodes a).isNone
  if o = 0x42 then (if any then 0x1F else if ecdsa then 0xF else if mldsa then 0x18 else 0)
  else if o = 0x43 then (if any then 0x17 else if ecdsa then 7 else if mldsa then 0x10 else 0)
  else if o = 0x47 then (if any || a = 1 then 0x1F else 0x10)
  else if installsKey o then 3
  else 0

/-- Reserved bits of OPFLAGS of an entry. -/
def flagsResv (o : Nat) (b : List Byte) : Nat :=
  if isSym o then 0xFE0
  else if isFrame o then 0xFFE
  else if isMacOp o then 0xFFE
  else if isKeyJob o then 0xFFC
  else if isAnvil o then 0xFFF - anvilFlags o (avAlg b)
  else 0xFFF

/-- Whether a reserved field of a header is set: an option that its opcode does not define, or a CTX where R140 requires zero. -/
def hdrReserved (o h : Nat) (b : List Byte) : Bool := hFlags h &&& flagsResv o b != 0 || (!namesCtx o (hFlags h) && hCtx h != 0)

/-- Check 1 of R158: reserved fields of the body and the header. -/
def reservedSet (o h : Nat) (b : List Byte) : Bool := anySet b (bodyResv o (hFlags h) b) || hdrReserved o h b

/-- The bytes of a body beyond its layout in chained format (R141). -/
def beyondLayout (o : Nat) (b : List Byte) : List Byte :=
  match opLen32 o with
  | some n => b.drop (32 * n - 16)
  | none => []

/-- LEN_OPCODE: an entry whose length is not its opcode's (R140, R141). -/
def lenWrong (o : Nat) (e : Entry) : Bool :=
  match opLen32 o with
  | none => if e.chain.isEmpty then e.slots > 31 else e.chain.length != 1
  | some n => if e.chain.isEmpty then e.slots != n else e.chain.length != ceilDiv (32 * n - 16) 48

/-! ### Check 2: fields that need no context -/

/-- An element count outside 1 to 256 of a listed buffer (R143). -/
def badCount (sgl : Bool) (n : Nat) : Bool := sgl && (n = 0 || n > 256)

/-- MALFORMED with PARAM. -/
def paramBad : Res := res 4 0x12
/-- UNSUPPORTED with OPTION. -/
def optionBad : Res := res 5 3

/-- OUT_LEN within its range for a digest algorithm (R153). -/
def outLenOk (a n : Nat) : Bool :=
  if algIsShake a then 1 ≤ n
  else if algIsKmac a then n = 0 || (4 ≤ n && n ≤ 64)
  else if algIsMac a then n = 0 || (4 ≤ n && n ≤ (algLen a).getD 0)
  else n = 0 || n = (algLen a).getD 0

/-- Check 2 of R158: values out of their ranges, a HDR_LEN beyond FRAME_LEN among them (log entry 177). -/
def paramCheck (o : Nat) (b : List Byte) : Bool :=
  if isSym o then badCount (srcSgl b) (bf b 192 9) || badCount (dstSgl b) (bf b 320 9)
  else if isFrame o then
    badCount (srcSgl b) (bf b 192 9) || badCount (dstSgl b) (bf b 320 9) || frSel b = 3
      || frLen b < 32 || frLen b > 16384 || frHdr b < 12 || frHdr b > 128
      || ((o = 0x20 || o = 0x21) && frHdr b != 12) || frHdr b > frLen b
  else if isDigestOp o then
    badCount (srcSgl b) (bf b 192 9) || (algLen (dgAlg b)).isNone || !outLenOk (dgAlg b) (dgOut b)
      || dgSLen b > 256 || (o = 0x32 && dstLen b != dgLen b)
  else if o = 0x33 then srcLen b = 0 || srcLen b > 1024 || dstLen b != srcLen b
  else if isAnvil o then (avOpcodes (avAlg b)).isNone || avInLen b > 65536 || avKeyLen b > 8192
  else if isKeyJob o then
    kjBits b = 0 || kjBits b > 3 || (o = 0x50 && (kjBlobLen b > 256 || (kjBlobLen b = 0 && kjBlob b != 0)))
  else false

/-! ### Check 3: INPLACE (R146) -/

/-- Check 3 of R158. -/
def inplaceBad (o flags : Nat) (b : List Byte) : Bool :=
  let dstZero := bf b 256 64 = 0 && bf b 320 64 = 0
  if isSym o then
    fInplace flags && (!dstZero || (o = 0x10 && !fTagSep flags) || fAadCopy flags)
  else if isFrame o then
    if fInplace flags then o = 0x20 || o = 0x22 || !dstZero || frSel b != 0
    else frSel b != 0 && !dstZero
  else false

/-- The declared source length of a job: the sum that R149, R151 and R155 require of the source. -/
def declaredLen (o flags : Nat) (b : List Byte) : Nat :=
  if isSym o then symAad b + symText b + (if o = 0x11 && !fTagSep flags then symTag b else 0)
  else if isFrame o then frLen b
  else srcLen b

/-! ### Output lengths of frames -/

/-- Padding bytes of ESP_OUT for a payload (R190). -/
def espPad (kind payload : Nat) : Nat :=
  let m := if kind / 2 = 0xA then 16 else 4
  roundUp (payload + 2) m - payload - 2

/-- Bytes of the explicit IV of an ESP kind (R191). -/
def espIvLen (kind : Nat) : Nat := if kind / 2 = 0xA then 16 else 8

/-- Output length of a transmit frame job (R179, R190). -/
def txOut (c : Ctx) (len hdr : Nat) : Nat :=
  if isMacsec c.kind then len + (if c.sc then 32 else 24)
  else
    let p := len - hdr
    hdr + 8 + espIvLen c.kind + (p + espPad c.kind p + 2) + c.icvLen

end Sys2Proof.Machine
end

