-- ==== Sys2Proof/Machine/AnvilOps.lean ====
section
/-! DEFINITION. Operand lengths of the Anvil schemes (R155, R326, R327) and the check of an Anvil job's parameters. -/

namespace Sys2Proof.Machine

/-- Bytes of a public or encapsulation key of a scheme (R326); RSA's follow from its modulus. -/
def avPub (a : Nat) : Nat :=
  match a with
  | 0x10 => 65 | 0x11 => 97 | 0x12 => 133 | 0x14 => 65 | 0x15 => 97 | 0x16 => 133 | 0x18 => 32 | 0x19 => 57 | 0x20 => 32
  | 0x21 => 56 | 0x30 => 800 | 0x31 => 1184 | 0x32 => 1568 | 0x38 => 1312 | 0x39 => 1952 | 0x3A => 2592 | _ => 0

/-- Bytes of a private key's plaintext (R326). -/
def avPriv (a : Nat) : Nat :=
  match a with
  | 0x10 => 32 | 0x11 => 48 | 0x12 => 66 | 0x14 => 32 | 0x15 => 48 | 0x16 => 66 | 0x18 => 32 | 0x19 => 57 | 0x20 => 32
  | 0x21 => 56 | 0x30 => 1632 | 0x31 => 2400 | 0x32 => 3168 | 0x38 => 2560 | 0x39 => 4032 | 0x3A => 4896 | _ => 0

/-- Bytes of a signature or ciphertext (R326). -/
def avSig (a : Nat) : Nat :=
  match a with
  | 0x10 => 64 | 0x11 => 96 | 0x12 => 132 | 0x18 => 64 | 0x19 => 114 | 0x30 => 768 | 0x31 => 1088 | 0x32 => 1568
  | 0x38 => 2420 | 0x39 => 3309 | 0x3A => 4627 | _ => 0

/-- Bytes of an RSA private key's plaintext for a modulus of `k` bytes (R326). -/
def rsaPriv (k : Nat) : Nat := 5 * k / 2 + 32

/-- Whether `k` is a modulus length that the block takes (R326). -/
def rsaLenOk (k : Nat) : Bool := k % 8 = 0 && 128 ≤ k && k ≤ 1024

/-- The hash of an ECDSA job: 0 SHA-256, 1 SHA-384, 2 SHA-512 (R327). -/
def ecdsaHash (a flags : Nat) : Nat := if flags % 4 = 0 then a - 0x10 else flags % 4 - 1

/-- Bytes of that hash. -/
def hashLen (h : Nat) : Nat := if h = 0 then 32 else if h = 1 then 48 else 64

/-- RSA modulus bytes of a job: from the wrapped key's length, the public key's length, or MODK. -/
def rsaK (o flags : Nat) (b : List Byte) : Nat :=
  if o = 0x40 then (avKeyLen b - 76) * 2 / 5
  else if o = 0x41 then avKeyLen b - 32
  else flags % 16 * 128

/-- Whether an Anvil job uses a wrapped private key or makes one. -/
def usesWrapped (o : Nat) (b : List Byte) : Bool :=
  o == 0x40 || o == 0x42 || (o == 0x44 && avKeyLen b != 0) || o == 0x46 || o == 0x47

/-- Bytes that an Anvil job writes to OUT (R155, R326). -/
def avOutNeed (o flags : Nat) (b : List Byte) : Nat :=
  let a := avAlg b
  if o = 0x40 || o = 0x41 then rsaK o flags b
  else if o = 0x42 then avSig a
  else if o = 0x44 then (if avKeyLen b = 0 then avPub a else 0)
  else if o = 0x45 then avSig a
  else if o = 0x47 then (if a = 1 then rsaK o flags b + 32 else avPub a)
  else if o = 0x48 then avOutLen b
  else 0

/-- Plaintext bytes of the private key that a job reads or makes. -/
def avPrivNeed (o flags : Nat) (b : List Byte) : Nat := if avAlg b = 1 then rsaPriv (rsaK o flags b) else avPriv (avAlg b)

/-- Whether IN_LEN does not match the scheme (R155, R326, R327). -/
def avInBad (o flags : Nat) (b : List Byte) : Bool :=
  let a := avAlg b
  let n := avInLen b
  if o = 0x40 || o = 0x41 then n != rsaK o flags b
  else if o = 0x42 || o = 0x43 then
    if 0x10 ≤ a && a ≤ 0x12 then bit flags 2 && n != hashLen (ecdsaHash a flags)
    else 0x38 ≤ a && bit flags 4 && n = 0
  else if o = 0x44 || o = 0x45 then n != avPub a
  else if o = 0x46 then n != avSig a
  else n != 0

/-- Whether KEY_LEN does not match the scheme; a capacity is compared later. -/
def avKeyBad (o flags : Nat) (b : List Byte) : Bool :=
  let a := avAlg b
  let n := avKeyLen b
  if o = 0x40 then n != 44 + rsaPriv (rsaK o flags b) || !rsaLenOk (rsaK o flags b)
  else if o = 0x41 then !rsaLenOk (rsaK o flags b)
  else if o = 0x42 || o = 0x46 then n != 44 + avPriv a
  else if o = 0x43 then n != avPub a
  else if o = 0x44 then n != 0 && n != 44 + avPriv a
  else if o = 0x47 then a = 1 && (flags % 16 < 2 || flags % 16 > 8)
  else n != 0

/-- Whether OUT_LEN does not match the scheme; a capacity is compared later. -/
def avOutBad (o : Nat) (b : List Byte) : Bool :=
  let n := avOutLen b
  if o = 0x43 then n != avSig (avAlg b)
  else if o = 0x44 then avKeyLen b != 0 && n != 0
  else if o = 0x46 then n != 0
  else if o = 0x48 then n = 0 || n > 65536
  else false

/-- Whether the operands of an Anvil job whose ALG takes its opcode break R155 or R326. -/
def anvilBad (o flags : Nat) (b : List Byte) : Bool :=
  match avOpcodes (avAlg b) with
  | none => true
  | some l =>
    l.contains o && (avInBad o flags b || avKeyBad o flags b || avOutBad o b || (!usesWrapped o b && avParent b != 0))

/-- Whether an Anvil job's OUT, or a KEYGEN's place for the wrapped key, is too small (R328). -/
def avDstSmall (o flags : Nat) (b : List Byte) : Bool :=
  (o != 0x43 && avOutLen b < avOutNeed o flags b) || (o = 0x47 && avKeyLen b < 44 + avPrivNeed o flags b)

end Sys2Proof.Machine
end

