-- ==== Sys2Proof/Machine/Chacha.lean ====
section
/-! DEFINITION. ChaCha20-Poly1305 of RFC 8439 (R172; log entry 6). -/

namespace Sys2Proof.Machine

/-- Rotation left of a 32-bit word. -/
def rotl32 (x n : Nat) : Nat := (x * 2 ^ n % 2 ^ 32) ||| (x / 2 ^ (32 - n))

/-- The quarter round on words `a b c d` of the state. -/
def quarter (s : List Nat) (i j k l : Nat) : List Nat :=
  let a := s.getD i 0
  let b := s.getD j 0
  let c := s.getD k 0
  let d := s.getD l 0
  let a := (a + b) % 2 ^ 32
  let d := rotl32 (d ^^^ a) 16
  let c := (c + d) % 2 ^ 32
  let b := rotl32 (b ^^^ c) 12
  let a := (a + b) % 2 ^ 32
  let d := rotl32 (d ^^^ a) 8
  let c := (c + d) % 2 ^ 32
  let b := rotl32 (b ^^^ c) 7
  ((((s.set i a).set j b).set k c).set l d)

/-- A column round and a diagonal round. -/
def doubleRound (s : List Nat) : List Nat :=
  let s := quarter (quarter (quarter (quarter s 0 4 8 12) 1 5 9 13) 2 6 10 14) 3 7 11 15
  quarter (quarter (quarter (quarter s 0 5 10 15) 1 6 11 12) 2 7 8 13) 3 4 9 14

/-- The key-stream block of a counter. -/
def chachaBlock (key nonce : List Byte) (ctr : Nat) : List Byte :=
  let s := [0x61707865, 0x3320646e, 0x79622d32, 0x6b206574] ++ (chunks 8 4 key).map leNat ++ [ctr % 2 ^ 32]
    ++ (chunks 3 4 nonce).map leNat
  let r := (List.range 10).foldl (fun x _ => doubleRound x) s
  ((List.zipWith (fun a b => natLe 4 ((a + b) % 2 ^ 32)) s r)).flatten

/-- The text of ChaCha20 from block counter 1. -/
def chachaText (key nonce text : List Byte) : List Byte :=
  ((chunks (text.length / 64 + 1) 64 text).zipIdx.map fun p => xorBytes p.1 (chachaBlock key nonce (p.2 + 1))).flatten

/-- The Poly1305 accumulator after blocks that follow `a`. -/
def polyFrom (r a : Nat) (l : List Byte) : Nat :=
  (blocks16 l).foldl (fun a b => (a + leNat b + 2 ^ (8 * b.length)) * r % (2 ^ 130 - 5)) a

/-- The multiplier of a Poly1305 key. -/
def polyR (key : List Byte) : Nat := leNat (key.take 16) &&& 0x0ffffffc0ffffffc0ffffffc0fffffff

/-- The tag of a Poly1305 key from its accumulator. -/
def polyEnd (key : List Byte) (a : Nat) : List Byte := natLe 16 ((a + leNat (key.drop 16)) % 2 ^ 128)

/-- Poly1305. -/
def poly1305 (key msg : List Byte) : List Byte := polyEnd key (polyFrom (polyR key) 0 msg)

/-- Zeros to the next multiple of 16. -/
def padTo16 (l : List Byte) : List Byte := zeros (roundUp l.length 16 - l.length)

/-- The tag over AAD and ciphertext. -/
def chachaTag (key nonce aad ct : List Byte) : List Byte :=
  poly1305 ((chachaBlock key nonce 0).take 32)
    (aad ++ padTo16 aad ++ ct ++ padTo16 ct ++ natLe 8 aad.length ++ natLe 8 ct.length)

end Sys2Proof.Machine
end

