-- ==== Sys2Proof/Machine/Sha2.lean ====
section
/-! DEFINITION. SHA-2 (R153, R301): SHA-224, SHA-256, SHA-384, SHA-512 and SHA-512/256 of byte strings (log entry 6). -/

namespace Sys2Proof.Machine

/-- Round constants of SHA-256. -/
def sha256K : List Nat :=
    [0x428a2f98, 0x71374491, 0xb5c0fbcf, 0xe9b5dba5, 0x3956c25b, 0x59f111f1, 0x923f82a4, 0xab1c5ed5]
    ++ [0xd807aa98, 0x12835b01, 0x243185be, 0x550c7dc3, 0x72be5d74, 0x80deb1fe, 0x9bdc06a7, 0xc19bf174]
    ++ [0xe49b69c1, 0xefbe4786, 0x0fc19dc6, 0x240ca1cc, 0x2de92c6f, 0x4a7484aa, 0x5cb0a9dc, 0x76f988da]
    ++ [0x983e5152, 0xa831c66d, 0xb00327c8, 0xbf597fc7, 0xc6e00bf3, 0xd5a79147, 0x06ca6351, 0x14292967]
    ++ [0x27b70a85, 0x2e1b2138, 0x4d2c6dfc, 0x53380d13, 0x650a7354, 0x766a0abb, 0x81c2c92e, 0x92722c85]
    ++ [0xa2bfe8a1, 0xa81a664b, 0xc24b8b70, 0xc76c51a3, 0xd192e819, 0xd6990624, 0xf40e3585, 0x106aa070]
    ++ [0x19a4c116, 0x1e376c08, 0x2748774c, 0x34b0bcb5, 0x391c0cb3, 0x4ed8aa4a, 0x5b9cca4f, 0x682e6ff3]
    ++ [0x748f82ee, 0x78a5636f, 0x84c87814, 0x8cc70208, 0x90befffa, 0xa4506ceb, 0xbef9a3f7, 0xc67178f2]

/-- Round constants of SHA-512. -/
def sha512K : List Nat :=
    [0x428a2f98d728ae22, 0x7137449123ef65cd, 0xb5c0fbcfec4d3b2f, 0xe9b5dba58189dbbc]
    ++ [0x3956c25bf348b538, 0x59f111f1b605d019, 0x923f82a4af194f9b, 0xab1c5ed5da6d8118]
    ++ [0xd807aa98a3030242, 0x12835b0145706fbe, 0x243185be4ee4b28c, 0x550c7dc3d5ffb4e2]
    ++ [0x72be5d74f27b896f, 0x80deb1fe3b1696b1, 0x9bdc06a725c71235, 0xc19bf174cf692694]
    ++ [0xe49b69c19ef14ad2, 0xefbe4786384f25e3, 0x0fc19dc68b8cd5b5, 0x240ca1cc77ac9c65]
    ++ [0x2de92c6f592b0275, 0x4a7484aa6ea6e483, 0x5cb0a9dcbd41fbd4, 0x76f988da831153b5]
    ++ [0x983e5152ee66dfab, 0xa831c66d2db43210, 0xb00327c898fb213f, 0xbf597fc7beef0ee4]
    ++ [0xc6e00bf33da88fc2, 0xd5a79147930aa725, 0x06ca6351e003826f, 0x142929670a0e6e70]
    ++ [0x27b70a8546d22ffc, 0x2e1b21385c26c926, 0x4d2c6dfc5ac42aed, 0x53380d139d95b3df]
    ++ [0x650a73548baf63de, 0x766a0abb3c77b2a8, 0x81c2c92e47edaee6, 0x92722c851482353b]
    ++ [0xa2bfe8a14cf10364, 0xa81a664bbc423001, 0xc24b8b70d0f89791, 0xc76c51a30654be30]
    ++ [0xd192e819d6ef5218, 0xd69906245565a910, 0xf40e35855771202a, 0x106aa07032bbd1b8]
    ++ [0x19a4c116b8d2d0c8, 0x1e376c085141ab53, 0x2748774cdf8eeb99, 0x34b0bcb5e19b48a8]
    ++ [0x391c0cb3c5c95a63, 0x4ed8aa4ae3418acb, 0x5b9cca4f7763e373, 0x682e6ff3d6b2b8a3]
    ++ [0x748f82ee5defb2fc, 0x78a5636f43172f60, 0x84c87814a1f0ab72, 0x8cc702081a6439ec]
    ++ [0x90befffa23631e28, 0xa4506cebde82bde9, 0xbef9a3f7b2c67915, 0xc67178f2e372532b]
    ++ [0xca273eceea26619c, 0xd186b8c721c0c207, 0xeada7dd6cde0eb1e, 0xf57d4f7fee6ed178]
    ++ [0x06f067aa72176fba, 0x0a637dc5a2c898a6, 0x113f9804bef90dae, 0x1b710b35131c471b]
    ++ [0x28db77f523047d84, 0x32caab7b40c72493, 0x3c9ebe0a15c9bebc, 0x431d67c49c100d4c]
    ++ [0x4cc5d4becb3e42b6, 0x597f299cfc657e2a, 0x5fcb6fab3ad6faec, 0x6c44198c4a475817]

/-- Initial state of SHA-224. -/
def sha224Iv : List Nat := [0xc1059ed8, 0x367cd507, 0x3070dd17, 0xf70e5939, 0xffc00b31, 0x68581511, 0x64f98fa7, 0xbefa4fa4]
/-- Initial state of SHA-256. -/
def sha256Iv : List Nat := [0x6a09e667, 0xbb67ae85, 0x3c6ef372, 0xa54ff53a, 0x510e527f, 0x9b05688c, 0x1f83d9ab, 0x5be0cd19]
/-- Initial state of SHA-384. -/
def sha384Iv : List Nat :=
    [0xcbbb9d5dc1059ed8, 0x629a292a367cd507, 0x9159015a3070dd17, 0x152fecd8f70e5939]
    ++ [0x67332667ffc00b31, 0x8eb44a8768581511, 0xdb0c2e0d64f98fa7, 0x47b5481dbefa4fa4]
/-- Initial state of SHA-512. -/
def sha512Iv : List Nat :=
    [0x6a09e667f3bcc908, 0xbb67ae8584caa73b, 0x3c6ef372fe94f82b, 0xa54ff53a5f1d36f1]
    ++ [0x510e527fade682d1, 0x9b05688c2b3e6c1f, 0x1f83d9abfb41bd6b, 0x5be0cd19137e2179]
/-- Initial state of SHA-512/256. -/
def sha512256Iv : List Nat :=
    [0x22312194fc2bf72c, 0x9f555fa3c84c64c2, 0x2393b86b6f53b151, 0x963877195940eabd]
    ++ [0x96283ee2a88effe3, 0xbe5e1e2553863992, 0x2b0199fc2c85b8aa, 0x0eb72ddc81c52ca2]

/-- Rotation right of a word of `w` bits. -/
def rotrN (w x n : Nat) : Nat := x / 2 ^ n + x % 2 ^ n * 2 ^ (w - n)

/-- What tells the two families of SHA-2 apart: the word width and the six rotation triples, the third of a small sigma a
shift. -/
structure ShaP where
  w : Nat
  s0 : Nat × Nat × Nat
  s1 : Nat × Nat × Nat
  b0 : Nat × Nat × Nat
  b1 : Nat × Nat × Nat

/-- SHA-256's parameters. -/
def shaP256 : ShaP := { w := 32, s0 := (7, 18, 3), s1 := (17, 19, 10), b0 := (2, 13, 22), b1 := (6, 11, 25) }
/-- SHA-512's parameters. -/
def shaP512 : ShaP := { w := 64, s0 := (1, 8, 7), s1 := (19, 61, 6), b0 := (28, 34, 39), b1 := (14, 18, 41) }

/-- A small sigma: two rotations and a shift. -/
def shaSmall (w : Nat) (t : Nat × Nat × Nat) (x : Nat) : Nat := rotrN w x t.1 ^^^ rotrN w x t.2.1 ^^^ (x / 2 ^ t.2.2)
/-- A big sigma: three rotations. -/
def shaBig (w : Nat) (t : Nat × Nat × Nat) (x : Nat) : Nat := rotrN w x t.1 ^^^ rotrN w x t.2.1 ^^^ rotrN w x t.2.2

/-- One round on the eight working words. -/
def shaRound (p : ShaP) (v : List Nat) (k w : Nat) : List Nat :=
  match v with
  | [a, b, c, d, e, f, g, h] =>
    let ch := (e &&& f) ^^^ ((2 ^ p.w - 1 - e) &&& g)
    let t1 := h + shaBig p.w p.b1 e + ch + k + w
    let t2 := shaBig p.w p.b0 a + ((a &&& b) ^^^ (a &&& c) ^^^ (b &&& c))
    [(t1 + t2) % 2 ^ p.w, a, b, c, (d + t1) % 2 ^ p.w, e, f, g]
  | _ => v

/-- All rounds, the message schedule kept as the last sixteen words, oldest first. -/
def shaRounds (p : ShaP) (ks win v : List Nat) : List Nat :=
  match ks with
  | [] => v
  | k :: r =>
    let w0 := win.headD 0
    let nw := (w0 + shaSmall p.w p.s0 (win.getD 1 0) + win.getD 9 0 + shaSmall p.w p.s1 (win.getD 14 0)) % 2 ^ p.w
    shaRounds p r (win.drop 1 ++ [nw]) (shaRound p v k w0)

/-- The compression function over one block. -/
def shaBlock (p : ShaP) (ks h : List Nat) (blk : List Byte) : List Nat :=
  let win := (chunks 16 (p.w / 8) blk).map beNat
  List.zipWith (fun a b => (a + b) % 2 ^ p.w) h (shaRounds p ks win h)

/-- The compression function over whole blocks. -/
def shaAbsorb (p : ShaP) (ks h : List Nat) (l : List Byte) : List Nat :=
  (chunks (l.length / (2 * p.w) + 1) (2 * p.w) l).foldl (fun a b => shaBlock p ks a b) h

/-- The padding of a message of which `pre` bytes were absorbed before. -/
def shaPad (p : ShaP) (pre : Nat) (l : List Byte) : List Byte :=
  let bl := 2 * p.w
  let n := l.length + 1 + bl / 8
  l ++ [0x80] ++ zeros (roundUp n bl - n) ++ natBe (bl / 8) (8 * (pre + l.length))

/-- A state as bytes. -/
def shaOut (p : ShaP) (h : List Nat) : List Byte := (h.map fun x => natBe (p.w / 8) x).flatten

/-- The digest of `l` continued from state `h` after `pre` bytes. -/
def shaFrom (p : ShaP) (ks h : List Nat) (pre : Nat) (l : List Byte) : List Byte :=
  shaOut p (shaAbsorb p ks h (shaPad p pre l))

/-- SHA-224. -/
def sha224 (l : List Byte) : List Byte := (shaFrom shaP256 sha256K sha224Iv 0 l).take 28
/-- SHA-256. -/
def sha256 (l : List Byte) : List Byte := shaFrom shaP256 sha256K sha256Iv 0 l
/-- SHA-384. -/
def sha384 (l : List Byte) : List Byte := (shaFrom shaP512 sha512K sha384Iv 0 l).take 48
/-- SHA-512. -/
def sha512 (l : List Byte) : List Byte := shaFrom shaP512 sha512K sha512Iv 0 l
/-- SHA-512/256. -/
def sha512t256 (l : List Byte) : List Byte := (shaFrom shaP512 sha512K sha512256Iv 0 l).take 32

end Sys2Proof.Machine
end

