-- ==== Sys2Proof/Machine/Frames.lean ====
section
/-! DEFINITION. What the lanes and pipes compute for the symmetric jobs (R149, R169 to R177), MACsec frames (R163, R179 to R188), ESP
frames (R189 to R194, R314) and the digest algorithms (R153, R301, R302). -/

namespace Sys2Proof.Machine

/-! ### Digests and MACs (R299 to R302, R309, R314) -/

/-- The compression parameters, constants and initial state of an HMAC hash: 0 SHA-256, 1 SHA-384, 2 SHA-512. -/
def hmacHash (h : Nat) : ShaP × List Nat × List Nat :=
  if h = 0 then (shaP256, sha256K, sha256Iv) else if h = 1 then (shaP512, sha512K, sha384Iv) else (shaP512, sha512K, sha512Iv)

/-- Block bytes of an HMAC hash. -/
def hmacBlock (h : Nat) : Nat := if h = 0 then 64 else 128

/-- Digest bytes of an HMAC hash. -/
def hmacLen (h : Nat) : Nat := if h = 0 then 32 else if h = 1 then 48 else 64

/-- The plain hash of an HMAC hash code. -/
def hashOf (h : Nat) (l : List Byte) : List Byte := if h = 0 then sha256 l else if h = 1 then sha384 l else sha512 l

/-- K0: a key longer than the block is hashed first, and the rest is zeros (R309). -/
def hmacKey0 (h : Nat) (key : List Byte) : List Byte :=
  bytesAt (if key.length > hmacBlock h then hashOf h key else key) 0 (hmacBlock h)

/-- The inner and outer states of an HMAC key (R308). -/
def hmacStates (h : Nat) (key : List Byte) : List Nat × List Nat :=
  let p := hmacHash h
  let st := fun (m : Byte) => shaAbsorb p.1 p.2.1 p.2.2 ((hmacKey0 h key).map fun b => b ^^^ m)
  (st 0x36, st 0x5C)

/-- HMAC from its two states. -/
def hmacFrom (h : Nat) (st : List Nat × List Nat) (msg : List Byte) : List Byte :=
  let p := hmacHash h
  let inner := (shaFrom p.1 p.2.1 st.1 (hmacBlock h) msg).take (hmacLen h)
  (shaFrom p.1 p.2.1 st.2 (hmacBlock h) inner).take (hmacLen h)

/-- The digest of an ALG code with an output length (R153, R301). -/
def digestOf (a : Nat) (n : Nat) (l : List Byte) : List Byte :=
  if a = 1 then (sha224 l).take n
  else if a = 2 then (sha256 l).take n
  else if a = 3 then (sha384 l).take n
  else if a = 4 then (sha512 l).take n
  else if a = 5 then (sha512t256 l).take n
  else if a = 0x10 then (sha3 32 l).take n
  else if a = 0x11 then (sha3 48 l).take n
  else if a = 0x12 then (sha3 64 l).take n
  else if a = 0x18 then shake 168 l n
  else shake 136 l n

/-! ### What a lane makes of a text or frame -/

/-- What a lane makes of a text or frame: its output short of a tag that it adds, the string it authenticates, and the outcome that the
output itself decides once the tag holds. -/
structure Made where
  out : List Byte
  sc : Script := {}
  ends : Option Res := none
  deriving DecidableEq, Repr

/-- The string of an AEAD: the padded AAD and the ciphertext. -/
def aeadText (aad ct : List Byte) : List Byte := pad16 aad ++ ct

/-! ### Symmetric jobs -/

/-- The text of a memory cipher, deciphered or enciphered (R169 to R177). -/
def symText1 (dec : Bool) (kind : Nat) (keyA keyB iv text : List Byte) (du : Nat) : List Byte :=
  if kind = 1 then gcmText (aesKeys keyA) (iv.take 12) text
  else if kind = 2 then chachaText keyA (iv.take 12) text
  else if kind = 3 then aesCtr keyA iv text
  else if kind = 4 then aesCbc dec keyA iv text
  else aesXts dec (keyA ++ keyB) iv text du

/-- A symmetric job's text with its string; `copy` puts the AAD ahead of the output (R149). -/
def symMade (dec : Bool) (kind : Nat) (keyA keyB iv aad text : List Byte) (du : Nat) (copy : Bool) (given : List Byte) (want : Nat) : Made :=
  let x := symText1 dec kind keyA keyB iv text du
  { out := (if copy then aad else []) ++ x,
    sc := { alg := if kind = 1 then .ghash else if kind = 2 then .poly else .none, text := aeadText aad (if dec then text else x),
            head := aad.length, lead := if copy then aad.length else 0, base := roundUp aad.length 16,
            unit := if kind = 4 || kind = 5 then 16 else 1, aad := aad.length, nonce := iv.take 12, given := given, want := want } }

/-! ### MACsec (R163, R179 to R188) -/

/-- Confidentiality offset in bytes. -/
def coBytes (co : Nat) : Nat := if co = 1 then 30 else if co = 2 then 50 else 0

/-- The IV of a MACsec frame (R180). -/
def macsecIv (c : Ctx) (slot pn : Nat) : List Byte :=
  if isXpn c.kind then
    xorBytes (natBe 4 (if isTx c.kind then c.w else c.sci % 2 ^ 32) ++ natBe 8 pn) (c.salt slot)
  else natLe 8 c.sci ++ natBe 4 (pn % 2 ^ 32)

/-- MACSEC_TX on a frame, short of its ICV (R179, R180). -/
def macsecTxMade (c : Ctx) (key : List Byte) (slot pn : Nat) (l : List Byte) : Made :=
  let ud := l.drop 12
  let clear := if c.co = 3 then ud.length else min ud.length (coBytes c.co)
  let tci := b2n c.es * 64 + b2n c.sc * 32 + b2n c.scb * 16 + (if c.co = 3 then 0 else 12) + c.an slot
  let sl := if ud.length < 48 then ud.length else 0
  let tag := [0x88, 0xE5, byte tci, byte sl] ++ natBe 4 (pn % 2 ^ 32) ++ (if c.sc then natLe 8 c.sci else [])
  let head := l.take 12 ++ tag ++ ud.take clear
  let iv := macsecIv c slot pn
  let ct := gcmText (aesKeys key) iv (ud.drop clear)
  { out := head ++ ct,
    sc := { alg := .ghash, text := aeadText head ct, head := 12 + clear, lead := head.length, base := roundUp head.length 16,
            aad := head.length, nonce := iv, slot := slot, num := pn, want := 16 } }

/-- BAD_SECTAG. -/
def secTagRes : Res := res 4 0x14
/-- BAD_ESP. -/
def espRes : Res := res 4 0x15
/-- PN_ZERO. -/
def pnZero : Res := res 0x11 3
/-- AUTH_FAIL with TAG. -/
def tagFail : Res := res 1 1
/-- AUTH_FAIL with MAC. -/
def macFail : Res := res 1 2

/-- Length of the SecTAG at an offset: 8 bytes, or 16 with an SCI. -/
def secTagLen (l : List Byte) (o : Nat) : Nat := if bit (leAt l (o + 2) 1) 5 then 16 else 8

/-- The length checks of R163 on the secure data after a SecTAG: the length of the secure data, or an outcome. -/
def secureLen (l : List Byte) (o : Nat) : Except Res Nat :=
  let sl := fld (leAt l (o + 3) 1) 0 6
  let n := l.length - (o + secTagLen l o)
  if sl ≥ 48 then .error secTagRes
  else if sl != 0 then
    (if n < sl + 16 then .error (res 2 3)
     else if n > sl + 16 && l.length != 60 then .error (res 3 3)
     else .ok sl)
  else if n < 64 then .error (res 2 3)
  else .ok (n - 16)

/-- Steps 1 to 5 of R183 on a frame with its SecTAG at offset `o`, and the deciphered output that step 6 verifies; `key` gives the key of
a slot. -/
def macsecRxMade (c : Ctx) (key : Nat → List Byte) (l : List Byte) (o : Nat) : Except Res Made :=
  if l.length < o + 8 || bytesAt l o 2 != [0x88, 0xE5] || l.length < o + secTagLen l o then .error secTagRes
  else
    match secureLen l o with
    | .error r => .error r
    | .ok n =>
      let tci := leAt l (o + 2) 1
      let enc := bit tci 3
      if bit tci 7 || fld (leAt l (o + 3) 1) 6 2 != 0 || (bit tci 5 && (bit tci 6 || bit tci 4)) || (enc && !bit tci 2) then
        .error secTagRes
      else
        match c.rxSlot fun k => c.an k == tci % 4 with
        | none => .error (keyInvalid 0x20)
        | some k =>
          let pn := c.recoverPn k (beNat (bytesAt l (o + 4) 4)) % 2 ^ 64
          if pn = 0 then .error pnZero
          else
            match c.replayCheck k pn with
            | some r => .error r
            | none =>
              let s := o + secTagLen l o
              let sd := bytesAt l s n
              let clear := if enc then min n (coBytes c.co) else n
              let aad := l.take 12 ++ bytesAt l o (secTagLen l o) ++ sd.take clear
              let iv := macsecIv c k pn
              .ok { out := l.take 12 ++ sd.take clear ++ gcmText (aesKeys (key k)) iv (sd.drop clear),
                    sc := { alg := .ghash, text := aeadText aad (sd.drop clear), head := s + clear, lead := 12 + clear,
                            base := roundUp aad.length 16, aad := aad.length, nonce := iv, slot := k, num := pn,
                            given := bytesAt l (s + n) 16, want := 16 } }

/-! ### ESP (R189 to R194) -/

/-- Passes over up to two VLAN tags: the offset of the EtherType. -/
def typeOff (l : List Byte) : Nat :=
  let vlan := fun (n : Nat) => bytesAt l n 2 == [0x81, 0x00] || bytesAt l n 2 == [0x88, 0xA8]
  if vlan 12 then (if vlan 16 then 20 else 16) else 12

/-- Where the IP header starts and whether it is IPv6: none where the header before HDR_LEN breaks R189. -/
def espOuter (l : List Byte) (hdr : Nat) : Option (Nat × Bool) :=
  let o := typeOff l + 2
  let t := bytesAt l (o - 2) 2
  if t == [0x08, 0x00] then
    let v := leAt l o 1
    let frag := beNat (bytesAt l (o + 6) 2)
    if hdr < o + 20 || v / 16 != 4 || o + v % 16 * 4 != hdr || frag % 2 ^ 14 != 0 then none else some (o, false)
  else if t == [0x86, 0xDD] then (if hdr < o + 40 then none else some (o, true))
  else none

/-- The ones' complement checksum of an IPv4 header whose checksum field counts as zero. -/
def ipChecksum (h : List Byte) : Nat :=
  let ws := (List.range (h.length / 2)).map fun i => if i = 5 then 0 else beNat (bytesAt h (2 * i) 2)
  let s := ws.sum
  let s1 := s % 65536 + s / 65536
  let s2 := s1 % 65536 + s1 / 65536
  65535 - s2

/-- The outer header with its lengths, next header and checksum after ESP was put in or taken out (R190); `len` is the
length of the whole output. -/
def outerUpdate (l : List Byte) (hdr ip : Nat) (v6 : Bool) (len nxt : Nat) : List Byte :=
  let h := l.take hdr
  if v6 then
    let h1 := putBytes h (ip + 4) (natBe 2 ((len - ip - 40) % 65536))
    if hdr = ip + 40 then putBytes h1 (ip + 6) [byte nxt] else h1
  else
    let h1 := putBytes (putBytes h (ip + 2) (natBe 2 ((len - ip) % 65536))) (ip + 9) [byte nxt]
    putBytes h1 (ip + 10) (natBe 2 (ipChecksum (h1.drop ip)))

/-- The AAD of the AEAD suites (R191). -/
def espAad (c : Ctx) (slot num : Nat) : List Byte :=
  natLe 4 (c.spi slot) ++ (if c.esn then natBe 8 num else natBe 4 (num % 2 ^ 32))

/-- The nonce of an ESP suite but CBC. -/
def espNonce (c : Ctx) (slot : Nat) (eiv : List Byte) : List Byte := c.salt slot ++ eiv

/-- The text of an ESP suite, deciphered or enciphered (R191). -/
def espText (dec : Bool) (c : Ctx) (slot : Nat) (key eiv text : List Byte) : List Byte :=
  let s := c.kind / 2
  let nonce := espNonce c slot eiv
  if s = 8 then gcmText (aesKeys key) nonce text
  else if s = 9 then chachaText key nonce text
  else if s = 0xA then aesCbc dec key eiv text
  else aesCtr key (nonce ++ [0, 0, 0, 1]) text

/-- The string that the ICV of an ESP frame covers (R191, R314): `lead` are the SPI, the sequence number and the explicit IV as they
stand in the frame. -/
def espScript (c : Ctx) (slot num : Nat) (lead eiv ct : List Byte) : Script :=
  if isEspMac c.kind then
    { alg := .sha false, text := lead ++ ct ++ (if c.esn then natBe 4 (num / 2 ^ 32) else []), base := lead.length, want := 16,
      unit := if c.kind / 2 = 0xA then 16 else 1, slot := slot, num := num }
  else
    let aad := espAad c slot num
    { alg := if c.kind / 2 = 8 then .ghash else .poly, text := aeadText aad ct, base := roundUp aad.length 16, aad := aad.length,
      nonce := espNonce c slot eiv, want := c.icvLen, slot := slot, num := num }

/-- ESP_OUT on a frame, short of its ICV (R189 to R191); `fresh` are the bytes of a CBC IV. -/
def espOutMade (c : Ctx) (key : List Byte) (slot num hdr nxt : Nat) (fresh l : List Byte) : Except Res Made :=
  match espOuter l hdr with
  | none => .error espRes
  | some (ip, v6) =>
    let pay := l.drop hdr
    let m := if c.kind / 2 = 0xA then 16 else 4
    let pad := roundUp (pay.length + 2) m - pay.length - 2
    let pt := pay ++ ((List.range pad).map fun i => byte (i + 1)) ++ [byte pad, byte nxt]
    let eiv := if c.kind / 2 = 0xA then fresh.take 16 else natBe 8 num
    let ct := espText false c slot key eiv pt
    let lead := natLe 4 (c.spi slot) ++ natBe 4 (num % 2 ^ 32) ++ eiv
    let len := hdr + lead.length + ct.length + c.icvLen
    .ok { out := outerUpdate l hdr ip v6 len 50 ++ lead ++ ct,
          sc := { espScript c slot num lead eiv ct with head := hdr, lead := hdr + lead.length } }

/-- Step 8 of R193 and the output: the padding is taken off, and the outer header is updated. -/
def espInOut (c : Ctx) (plain : List Byte) (ip : Nat) (v6 : Bool) (l : List Byte) (hdr : Nat) : Except Res (List Byte) :=
  let n := plain.length
  let pad := leAt plain (n - 2) 1
  let nxt := leAt plain (n - 1) 1
  if n < 2 || n < pad + 2 || (c.kind / 2 = 0xA && n % 16 != 0)
      || bytesAt plain (n - 2 - pad) pad != (List.range pad).map (fun i => byte (i + 1)) then .error espRes
  else
    let pay := plain.take (n - 2 - pad)
    .ok (outerUpdate l hdr ip v6 (hdr + pay.length) nxt ++ pay)

/-- Steps 1 to 5 of R193 with the deciphered output, which step 6 verifies and whose padding step 8 has judged; `key` gives the key of a
slot. -/
def espInMade (c : Ctx) (key : Nat → List Byte) (l : List Byte) (hdr : Nat) : Except Res Made :=
  let ivn := if c.kind / 2 = 0xA then 16 else 8
  match espOuter l hdr with
  | none => .error espRes
  | some (ip, v6) =>
    if l.length < hdr + 8 + ivn + c.icvLen then .error espRes
    else
      match c.rxSlot fun k => c.spi k == leAt l hdr 4 with
      | none => .error (keyInvalid 0x21)
      | some k =>
        let num := c.recoverSn k (beNat (bytesAt l (hdr + 4) 4)) % 2 ^ 64
        if num = 0 && !c.esn then .error pnZero
        else
          match c.replayCheck k num with
          | some r => .error r
          | none =>
            let n := l.length - hdr - 8 - ivn - c.icvLen
            let eiv := bytesAt l (hdr + 8) ivn
            let ct := bytesAt l (hdr + 8 + ivn) n
            let sc := { espScript c k num (bytesAt l hdr (8 + ivn)) eiv ct with
              head := hdr + 8 + ivn, lead := hdr, given := bytesAt l (hdr + 8 + ivn + n) c.icvLen }
            match espInOut c (espText true c k (key k) eiv ct) ip v6 l hdr with
            | .error r => .ok { out := [], sc := sc, ends := some r }
            | .ok out => .ok { out := out, sc := sc }

end Sys2Proof.Machine
end

