-- ==== Sys2Proof/Machine/Engines.lean ====
section
/-! DEFINITION. What an engine does with the string of a job segment by segment (R169, R170, R200, R201, R301 to R306, R314): absorbing
whole blocks up to a position, the tag or digest at the end, and the GHASH arithmetic of Comet mode (R207 to R209). -/

namespace Sys2Proof.Machine

/-! ### Absorbing a string -/

/-- Bytes of a block of an algorithm. -/
def EngAlg.block : EngAlg → Nat
  | .none => 1
  | .ghash => 16
  | .poly => 16
  | .sha wide => if wide then 128 else 64
  | .sponge r _ => r

/-- The GHASH key or the Poly1305 multiplier of a key and nonce. -/
def EngAlg.mult (a : EngAlg) (key nonce : List Byte) : Nat :=
  match a with
  | .ghash => gcmKey key
  | .poly => polyR (chachaBlock key nonce 0)
  | _ => 0

/-- The parameters and constants of SHA-2 on 32-bit or 64-bit words. -/
def shaFamily (wide : Bool) : ShaP × List Nat := if wide then (shaP512, sha512K) else (shaP256, sha256K)

/-- Absorbs whole blocks; `m` is the multiplier. -/
def EngAlg.absorb (a : EngAlg) (m : Nat) (e : Eng) (l : List Byte) : Eng :=
  match a with
  | .none => e
  | .ghash => { e with acc := ghashFrom m e.acc l }
  | .poly => { e with acc := polyFrom m e.acc l }
  | .sha wide => { e with words := shaAbsorb (shaFamily wide).1 (shaFamily wide).2 e.words l }
  | .sponge r _ => { e with words := keccakFrom r e.words l }

/-- Absorbs the string up to byte `t`, in whole blocks. -/
def Script.pass (c : Script) (m t : Nat) (e : Eng) : Eng :=
  let n := t / c.alg.block * c.alg.block
  if n ≤ e.pos then e else { c.alg.absorb m e (bytesAt c.text e.pos (n - e.pos)) with pos := n }

/-! ### Positions of the input stream (R200, R201) -/

/-- Bytes of the string that the first `p` bytes of the input stream give. -/
def Script.textAt (c : Script) (p : Nat) : Nat := if p < c.head then min p c.base else min c.text.length (c.base + (p - c.head))

/-- Bytes of the output that the first `p` bytes of the input stream give, in whole units. -/
def Script.outAt (c : Script) (p : Nat) : Nat :=
  if p < c.head then min p c.lead else c.lead + (p - c.head) / c.unit * c.unit

/-- The last ciphertext block before byte `p` of the input stream (R174). -/
def Script.lastBlock (c : Script) (p : Nat) : List Byte := bytesAt c.text (c.textAt p - 16) 16

/-! ### The end of a string -/

/-- The rest of an AEAD's string with its two lengths. -/
def Script.aeadRest (c : Script) (len : Nat → List Byte) (e : Eng) : List Byte :=
  pad16 (c.text.drop e.pos) ++ len c.aad ++ len (c.text.length - c.base)

/-- The tag of a key from a GHASH (R169). -/
def gcmEnd (key nonce : List Byte) (s : Nat) : List Byte := xorBytes (aesEncBlock (aesKeys key) (nonce ++ natBe 4 1)) (natBe 16 s)

/-- The hash of the rest of a string of SHA-2, of which `pre` bytes went before the string. -/
def Script.shaEnd (c : Script) (wide : Bool) (pre : Nat) (e : Eng) : List Byte :=
  shaFrom (shaFamily wide).1 (shaFamily wide).2 e.words (pre + e.pos) (c.text.drop e.pos)

/-- HMAC from the engine's inner state and the outer state of a key, under an HMAC hash code (R309). -/
def Script.hmacEnd (c : Script) (hash : Nat) (outer : List Nat) (e : Eng) : List Byte :=
  let p := hmacHash hash
  let inner := (c.shaEnd (hash != 0) (hmacBlock hash) e).take (hmacLen hash)
  (shaFrom p.1 p.2.1 outer (hmacBlock hash) inner).take (hmacLen hash)

/-- The tag or ICV of a text or frame: `outer` is the outer HMAC state of an encrypt-then-MAC suite (R169, R170, R314). -/
def Script.tag (c : Script) (key : List Byte) (outer : List Nat) (e : Eng) : List Byte :=
  (match c.alg with
    | .ghash => gcmEnd key c.nonce (ghashFrom (gcmKey key) e.acc (c.aeadRest (fun n => natBe 8 (8 * n)) e))
    | .poly =>
      let k := chachaBlock key c.nonce 0
      polyEnd (k.take 32) (polyFrom (polyR k) e.acc (c.aeadRest (natLe 8) e))
    | .sha _ => c.hmacEnd 0 outer e
    | _ => []).take c.want

/-- The state of a sponge once the rest of its string and the padding are absorbed. -/
def Script.spongeEnd (c : Script) (r suffix : Nat) (e : Eng) : List Nat := keccakFrom r e.words (spongePad r suffix (c.text.drop e.pos))

/-! ### Digest jobs (R301 to R305) -/

/-- The engine of a digest algorithm code (R153). -/
def digestAlg (a : Nat) : EngAlg :=
  if algIsKmac a then .sponge (dgBlock a) 0x04
  else if algIsShake a then .sponge (dgBlock a) 0x1F
  else if 0x10 ≤ a && a ≤ 0x12 then .sponge (dgBlock a) 0x06
  else .sha (dgBlock a = 128)

/-- The hash of an HMAC algorithm code. -/
def algHash (a : Nat) : Nat := a - 0x20

/-- The state that the message of a digest job follows: the initial value, the inner state of an HMAC key, or what KMAC absorbs first;
`inner` is the inner state of an HMAC slot (R302, R305). -/
def digestStart (a : Nat) (key custom : List Byte) (inner : Option (List Nat)) : List Nat :=
  if algIsKmac a then keccakFrom (dgBlock a) keccakZero (kmacHead (dgBlock a) key custom)
  else if algIsMac a then inner.getD (hmacStates (algHash a) key).1
  else if 0x10 ≤ a then keccakZero
  else if a = 1 then sha224Iv else if a = 2 then sha256Iv else if a = 3 then sha384Iv else if a = 4 then sha512Iv else sha512256Iv

/-- The string of a digest job: its message, with the output length of KMAC at its end. -/
def digestScript (a n : Nat) (msg : List Byte) : Script :=
  { alg := digestAlg a, text := msg ++ if algIsKmac a then rightEncode (8 * n) else [], want := n }

/-- The result of a digest or MAC job that has no squeeze of its own: `outer` is the outer state of an HMAC key. -/
def digestEnd (a n : Nat) (c : Script) (outer : List Nat) (e : Eng) : List Byte :=
  match c.alg with
  | .sponge r suffix => keccakSqueeze (n / r + 1) r n (c.spongeEnd r suffix e)
  | _ => (if algIsMac a then c.hmacEnd (algHash a) outer e else c.shaEnd (dgBlock a = 128) 0 e).take n

/-- Where the segment that ends segment `k` of a message ends: the first block boundary at or after its 4,096-byte boundary (R305). -/
def digestStop (r k : Nat) : Nat := roundUp (4096 * k) r

/-- Squeezes `n` bytes and gives the state that the next squeeze starts from. -/
def squeezeOn (r n : Nat) (words : List Nat) : List Byte × List Nat :=
  (keccakSqueeze (n / r + 1) r n words, (List.range (ceilDiv n r)).foldl (fun a _ => keccakF a) words)

/-! ### HMAC states (R308) -/

/-- The states of an HMAC slot, inner and outer, with its mask taken off. -/
def HSlot.states (h : HSlot) : List Nat × List Nat :=
  (List.zipWith (· ^^^ ·) h.inner (h.mask.take 8), List.zipWith (· ^^^ ·) h.outer (h.mask.drop 8))

/-- The sixteen words of a mask drawn for two states of a hash: 0 is SHA-256. -/
def hmacMask (hash : Nat) (b : List Byte) : List Nat := (chunks 16 (if hash = 0 then 4 else 8) b).map beNat

/-- A slot that holds two states under a mask. -/
def HSlot.store (h : HSlot) (st : List Nat × List Nat) (mask : List Nat) : HSlot :=
  { h with mask := mask, inner := List.zipWith (· ^^^ ·) st.1 (mask.take 8), outer := List.zipWith (· ^^^ ·) st.2 (mask.drop 8) }

/-! ### Comet mode (R206 to R209) -/

/-- Chunks of a text. -/
def cometChunks (text : Nat) : Nat := ceilDiv text 16384

/-- Product in GF(2^128). -/
def gmul (a b : Nat) : Nat := ghMul 128 a b 0

/-- The ciphertext of segment `g` of chunk `k`. -/
def Script.chunkSeg (c : Script) (k g : Nat) : List Byte :=
  let off := 16384 * k + 4096 * g
  bytesAt c.text (c.base + off) (min 4096 (c.text.length - c.base - off))

/-- A chunk's partial after one more segment, zero-padded; chunk 0 begins with the padded AAD (R207). -/
def Script.partial1 (c : Script) (h k g part : Nat) : Nat :=
  let p0 := if k = 0 && g = 0 then ghashFrom h 0 (c.text.take c.base) else part
  ghashFrom h p0 (pad16 (c.chunkSeg k g))

/-- A stripe of `l` in all after the segment it stands at: where it stands next, and the partial of the last chunk where that is what it
finished (R209). -/
def Script.stripeStep (c : Script) (h hL l : Nat) (p : StripePos) : StripePos × Option Nat :=
  let n := cometChunks (c.text.length - c.base)
  let x := c.partial1 h p.chunk p.seg p.part
  let stop := min (c.text.length - c.base) (16384 * (p.chunk + 1))
  if 16384 * p.chunk + 4096 * (p.seg + 1) < stop then ({ p with seg := p.seg + 1, part := x }, none)
  else if p.chunk + 1 = n then ({ p with chunk := p.chunk + l, seg := 0, part := 0 }, some x)
  else ({ chunk := p.chunk + l, seg := 0, part := 0, acc := gmul p.acc hL ^^^ x }, none)

/-- The combiner's sum over the stripes (R209): `acc l` is what stripe `l` accumulated over its full chunks. -/
def combineStripes (n l h1024 : Nat) (acc : Nat → Nat) : Nat :=
  (List.range (min l (n - 1))).foldr (fun j t => gmul t h1024 ^^^ acc ((n - 2 - j) % l)) 0

/-- The GHASH that the combiner computes from the stripes' results (R209). -/
def Script.combined (c : Script) (h h1024 l tail : Nat) (acc : Nat → Nat) : Nat :=
  let text := c.text.length - c.base
  let n := cometChunks text
  let r := ceilDiv (text - 16384 * (n - 1)) 16
  let len := beNat (natBe 8 (8 * c.aad) ++ natBe 8 (8 * text))
  gmul (combineStripes n l h1024 acc) (ghPow 16 h (r + 1)) ^^^ gmul (tail ^^^ len) h

end Sys2Proof.Machine
end

