-- ==== Sys2Proof/Machine/JobIo.lean ====
section
/-! DEFINITION. The buffers of an admitted operation: walking scatter-gather lists (R143, R144), reading its data, and
writing its output (R148, R149, R160). -/

namespace Sys2Proof.Machine

/-! ### Operations by their contexts -/

/-- The kind of the context that an operation was admitted with, 0 for none. -/
def Job.kind (j : Job) : Nat := j.adm.kind

/-- Whether an operation is an encrypt-then-MAC frame. -/
def Job.etm (j : Job) : Bool := isFrame j.opc && isEspMac j.kind

/-- Whether an operation depends on HMAC slot `n`: it names it, or it is a received frame whose other slot names it (R273, R311). -/
def Job.usesHmac (j : Job) (n : Nat) : Bool :=
  j.phase != .finished && (j.hslot == some n || (j.etm && isRx j.kind && (j.adm.hslot 0 = n || j.adm.hslot 1 = n)))

/-- Whether an admitted operation depends on HMAC slot `n` (R311). -/
def hslotInUse (s : State) (n : Nat) : Bool := s.jobs.any fun j => j.usesHmac n

/-! ### What a read of an operation is for -/

/-- A page of the source list. -/
def partSrcPage : Nat := 0
/-- A page of the destination list. -/
def partDstPage : Nat := 1
/-- The source data. -/
def partData : Nat := 2
/-- The second operand: the expected tag, buffer B, the signature or the blob. -/
def partSecond : Nat := 3
/-- The key of an Anvil job. -/
def partKey : Nat := 4
/-- A separate tag. -/
def partTag : Nat := 5
/-- The customisation string of KMAC. -/
def partCustom : Nat := 6

/-! ### Lists (R143, R144, R160) -/

/-- One element of a list page. -/
structure SgElem where
  addr : Nat
  len : Nat
  chain : Bool
  last : Bool
  resv : Bool
  deriving DecidableEq, Repr

/-- Reads the 16 bytes of an element (R143). -/
def sgElem (b : List Byte) : SgElem :=
  let n := leAt b 0 16
  { addr := fld n 0 48, len := fld n 64 32, chain := bit n 126, last := bit n 127,
    resv := fld n 48 16 != 0 || fld n 96 30 != 0 }

/-- Whether a page of `cnt` elements at `addr` breaks R144. -/
def pageBad (addr cnt : Nat) : Bool :=
  addr % 16 != 0 || cnt = 0 || cnt > 256 || addr % 4096 + 16 * cnt > 4096

/-- Takes in the elements of a page up to the one that ends it: LAST, CHAIN, or one that breaks R144. -/
def walkPage (es : List SgElem) (b : Buf) : Buf :=
  match es with
  | [] => { b with tail := .bad }
  | e :: r =>
    if e.resv || e.len = 0 || (e.chain && e.last) then { b with tail := .bad }
    else if e.chain then
      if !r.isEmpty || pageBad e.addr e.len || b.pages ≥ 16 then { b with tail := .bad }
      else { b with tail := .page, pageAddr := e.addr, pageCnt := e.len }
    else if e.len > 16777216 || b.elems.length ≥ 4096 then { b with tail := .bad }
    else
      let b1 := { b with elems := b.elems ++ [(e.addr, e.len)], count := b.count + e.len }
      if e.last then { b1 with tail := .last } else walkPage r b1

/-- The elements in the bytes of a page. -/
def pageElems (l : List Byte) : List SgElem := (blocks16 l).map sgElem

/-- How far a buffer serves: its pieces reach, a page comes next, or the walk ends with an outcome. -/
inductive Reach
  | ok
  | page
  | stop (r : Res)
  deriving DecidableEq, Repr

/-- MALFORMED with SGL_BAD. -/
def sglBad : Res := res 4 0x10
/-- MALFORMED with DST_SMALL. -/
def dstSmall : Res := res 4 0x11

/-- How a source whose pieces so far have been read goes on; `need` is the declared length where there is one (R160). A page that breaks
R144 is met when it is reached. -/
def Buf.source (b : Buf) (need : Option Nat) : Reach :=
  match need with
  | some n => if b.count > n then .stop (res 3 2) else if b.count = n && b.tail != .last then .stop (res 3 2) else go n
  | none => go b.count
where
  /-- The verdict by what follows the pieces. -/
  go (n : Nat) : Reach :=
    match b.tail with
    | .last => if b.count < n then .stop (res 2 2) else .ok
    | .bad => .stop sglBad
    | .page => if pageBad b.pageAddr b.pageCnt then .stop sglBad else .page

/-- How a destination serves output up to byte `n` (R149). -/
def Buf.dest (b : Buf) (n : Nat) : Reach :=
  if n ≤ b.count then .ok
  else match b.tail with
    | .last => .stop dstSmall
    | .bad => .stop sglBad
    | .page => if pageBad b.pageAddr b.pageCnt then .stop sglBad else .page

/-! ### Extents -/

/-- The extents that hold bytes `off` to `off + len - 1` of a buffer made of extents: address and length. -/
def sliceExt (ext : List (Nat × Nat)) (off len : Nat) : List (Nat × Nat) :=
  match ext with
  | [] => []
  | (a, n) :: r =>
    if len = 0 then []
    else if off ≥ n then sliceExt r (off - n) len
    else
      let k := min len (n - off)
      (a + off, k) :: sliceExt r 0 (len - k)

/-- The lines of a chain of extents, with their offsets in the whole. -/
def extLines (ext : List (Nat × Nat)) (off : Nat) : List (Nat × Nat × Nat) :=
  match ext with
  | [] => []
  | (a, n) :: r => (lineChunks (n / 64 + 2) a off n) ++ extLines r (off + n)

/-! ### Reads of an operation -/

/-- Starts a read for part `p` of operation `tag` over extents. -/
def jobRead (tag p : Nat) (ext : List (Nat × Nat)) (s : State) : State :=
  match s.job? tag with
  | none => s
  | some j =>
    let id := s.mem.nextId
    startReadParts j.inst 0 (extLines ext 0) false (.job tag p)
      (s.modJob tag fun x => { x with reads := x.reads ++ [(p, id)] })

/-- Starts the read of a list page of an operation. -/
def jobReadPage (tag p addr cnt : Nat) (s : State) : State := jobRead tag p [(addr, 16 * cnt)] s

/-- The bytes read for part `p` of an operation, one read after another; empty where it reads none. -/
def jobPart (s : State) (j : Job) (p : Nat) : List Byte :=
  ((j.reads.filter fun r => r.1 == p).map fun r => ((s.buf? r.2).map fun b => b.data).getD []).flatten

/-- Whether every read of an operation has its data. -/
def readsDone (s : State) (j : Job) : Bool :=
  j.reads.all fun r => match s.buf? r.2 with
    | none => true
    | some b => b.res == .ok

/-- Decides an operation's outcome before or without its computation. -/
def failJob (tag : Nat) (r : Res) (s : State) : State :=
  s.modJob tag fun j => if j.res.isNone then { j with res := some r, phase := .computed, segs := 1, segDone := 1, outQ := [] } else j

/-- An operation cut short with an outcome, its engine state and output discarded. -/
def Job.cut (j : Job) (r : Res) : Job :=
  { j with res := some r, phase := .computed, out := [], outQ := [], post := [], segs := 1, segDone := 1, saved := false, handed := false,
           comet := none, stop := none, pipe := none, dslot := none, sc := {}, eng := {}, back := (0, {}), ops := [] }

/-- Ends an operation with an outcome wherever it stands, its output discarded. -/
def endJob (tag : Nat) (r : Res) (s : State) : State := s.modJob tag fun j => j.cut r

/-- Source bytes an operation reads in all. -/
def Job.srcNeed (j : Job) : Nat := declaredLen j.opc j.flags j.body

/-- Whether the destination of an opcode is a buffer it writes. -/
def writesDst (o : Nat) : Bool := isSym o || isFrame o

/-- Destination bytes a symmetric job writes (R149). -/
def symDstNeed (o flags : Nat) (b : List Byte) : Nat :=
  (if fAadCopy flags then symAad b else 0) + symText b + (if o = 0x10 && !fTagSep flags then symTag b else 0)

/-- Destination bytes known to be needed before an operation's data is read: a symmetric job's, or the output of a transmit frame. -/
def Job.dstNeed (j : Job) : Nat :=
  if isSym j.opc then symDstNeed j.opc j.flags j.body
  else if j.opc = 0x20 || j.opc = 0x22 then txOut j.adm (frLen j.body) (frHdr j.body)
  else 0

/-- The declared length that a source must meet; a digest job's message has none. -/
def Job.need (j : Job) : Option Nat := if isDigestOp j.opc then none else some j.srcNeed

/-- The length of a source's pieces that the job takes. -/
def Job.known (j : Job) : Nat :=
  match j.need with
  | some n => min n j.srcBuf.count
  | none => j.srcBuf.count

/-- Starts a read of extents that are not empty. -/
def jobReadSome (tag p : Nat) (ext : List (Nat × Nat)) (s : State) : State := if (ext.map Prod.snd).sum = 0 then s else jobRead tag p ext s

/-- Starts the reads of an operation's operands beside its source. -/
def jobReadOthers (tag : Nat) (s : State) : State :=
  match s.job? tag with
  | none => s
  | some j =>
    let b := j.body
    let rd := jobReadSome tag
    if isSym j.opc then (if j.opc = 0x11 && fTagSep j.flags then rd partTag [(symTagAddr b, symTag b)] s else s)
    else if isDigestOp j.opc then
      rd partCustom [(dgSAddr b, dgSLen b)] (if j.opc = 0x32 then rd partSecond [(dstAddr b, dstLen b)] s else s)
    else if j.opc = 0x33 then rd partSecond [(dstAddr b, dstLen b)] (rd partData [(srcAddr b, srcLen b)] s)
    else if isAnvil j.opc then
      let s1 := rd partData [(avIn b, avInLen b)] s
      let s2 := if j.opc = 0x43 then rd partSecond [(avOut b, avOutLen b)] s1 else s1
      if j.opc = 0x47 then s2 else rd partKey [(avKey b, avKeyLen b)] s2
    else if isKeyJob j.opc then rd partSecond [(kjBlob b, kjBlobLen b)] s
    else s

/-- An operation's source goes on (R144, R160): the pieces known and not yet read are read; then the walk is complete, reaches its next
page, or has decided the outcome. A symmetric job keeps that outcome for its end, since it works on what it has read. -/
def jobSource (tag : Nat) (s : State) : State :=
  match s.job? tag with
  | none => s
  | some j =>
    let b := j.srcBuf
    if b.taken < j.known then
      jobRead tag partData (sliceExt b.elems b.taken (j.known - b.taken))
        (s.modJob tag fun x => { x with srcBuf := { b with taken := j.known } })
    else
      match b.source j.need with
      | .ok => s
      | .page => jobReadPage tag partSrcPage b.pageAddr b.pageCnt (s.modJob tag fun x => { x with srcBuf := { b with tail := .bad } })
      | .stop r => if isSym j.opc || isFrame j.opc then s.modJob tag fun x => { x with ends := some r } else failJob tag r s

/-- Starts the data reads of an operation whose destination's first page is known or that has none. -/
def jobReadData (tag : Nat) (s : State) : State :=
  match s.job? tag with
  | none => s
  | some j =>
    let s1 := if j.frame.isEmpty && (isSym j.opc || isFrame j.opc || isDigestOp j.opc) then jobSource tag s else s
    if ((s1.job? tag).map fun x => x.res.isNone).getD false then jobReadOthers tag s1 else s1

/-- Whether an operation's output goes to a listed destination. -/
def Job.listedDst (j : Job) : Bool := writesDst j.opc && j.dstBuf.listed && !fInplace j.flags && j.egress.isNone

/-- Starts an admitted operation's reads: the first page of its source's list, then of its destination's, then its data (R149). -/
def jobStart (tag : Nat) (s : State) : State :=
  match s.job? tag with
  | none => s
  | some j =>
    if j.srcBuf.tail == .page && j.srcBuf.pages = 0 then
      (if pageBad j.srcBuf.pageAddr j.srcBuf.pageCnt then failJob tag sglBad s
        else jobReadPage tag partSrcPage j.srcBuf.pageAddr j.srcBuf.pageCnt s)
    else if j.listedDst && j.dstBuf.pages = 0 then
      (if pageBad j.dstBuf.pageAddr j.dstBuf.pageCnt then failJob tag sglBad s
        else jobReadPage tag partDstPage j.dstBuf.pageAddr j.dstBuf.pageCnt s)
    else jobReadData tag s

/-- A list page of an operation that still reads has arrived: it goes on reading, unless the destination's first page already runs short
(R149). -/
def jobPage (tag p : Nat) (l : List Byte) (s : State) : State :=
  match s.job? tag with
  | none => s
  | some j =>
    if p = partSrcPage then
      let first := j.srcBuf.pages = 0
      let s1 := s.modJob tag fun x => { x with srcBuf := walkPage (pageElems l) { j.srcBuf with pages := j.srcBuf.pages + 1 } }
      if first then jobStart tag s1 else jobSource tag s1
    else
      let b := walkPage (pageElems l) { j.dstBuf with pages := j.dstBuf.pages + 1 }
      let s1 := s.modJob tag fun x => { x with dstBuf := b }
      if b.tail == .last && b.count < j.dstNeed then failJob tag dstSmall s1 else jobReadData tag s1

/-- XLATE_FAULT with its cause (R419). -/
def xlateRes (cause : Nat) : Res := res 9 cause

/-! ### Output -/

/-- The buffer that an operation's output goes to: the destination, or the source from its first text byte in place (R146). -/
def Job.outBuf (j : Job) : Buf :=
  if fInplace j.flags && writesDst j.opc then
    let ext := sliceExt j.srcBuf.elems (if isSym j.opc then symAad j.body else 0) (2 ^ 40)
    { elems := ext, count := (ext.map Prod.snd).sum }
  else j.dstBuf

/-- Whether an instance is in its reset, so that no effect of its work leaves the block (R428). -/
def voided (s : State) (i : Nat) : Bool := suppressed (s.inst i)

/-- Writes bytes into the extents, in order. -/
def writeExt (i : Nat) (own : Owner) (ext : List (Nat × Nat)) (data : List Byte) (s : State) : State :=
  match ext with
  | [] => s
  | (a, n) :: r => writeExt i own r (data.drop n) (startWrite i a (data.take n) false own true s)

/-- Writes bytes `off` to `off + len - 1` of an operation's output and records where (R148). -/
def jobWrite (tag off len : Nat) (s : State) : State :=
  match s.job? tag with
  | none => s
  | some j =>
    let ext := if voided s j.inst then [] else sliceExt j.outBuf.elems off (min len (j.out.length - off))
    writeExt j.inst (.jobWr tag) ext ((j.out.drop off).take len)
      (s.modJob tag fun x => { x with written := x.written ++ ext })

/-- A destination that does not serve its output ends the operation, unless it has failed already (R149). -/
def outFail (tag : Nat) (r : Res) (s : State) : State :=
  s.modJob tag fun j =>
    { j with outQ := [], segDone := j.segs, handed := false, saved := false, comet := none, phase := .computed,
             res := if (j.res.map fun x => x.status != 0).getD false then j.res else some r }

/-- Writes the output that waits, as far as the destination's pieces are known; where they run out, its next page is read, or the
operation ends (R144, R149). -/
def jobFlush (fuel tag : Nat) (s : State) : State :=
  match fuel, s.job? tag with
  | f + 1, some j =>
    (match j.outQ with
      | [] => s
      | (off, len) :: rest =>
        let b := j.outBuf
        match b.dest (off + len) with
        | .ok => jobFlush f tag (jobWrite tag off len (s.modJob tag fun x => { x with outQ := rest }))
        | d =>
          let k := min len (b.count - off)
          let s1 := jobWrite tag off k (s.modJob tag fun x => { x with outQ := (off + k, len - k) :: rest })
          match d with
          | .stop r => outFail tag r s1
          | _ => jobReadPage tag partDstPage b.pageAddr b.pageCnt (s1.modJob tag fun x => { x with dstBuf := { x.dstBuf with tail := .bad } }))
  | _, _ => s

/-- Whether an operation reads a page of its destination's list. -/
def dstPageRead (s : State) (j : Job) : Bool := j.reads.any fun r => r.1 == partDstPage && ((s.buf? r.2).map fun b => b.res == .pending).getD false

/-- Writes the output that waits, unless a page of the destination is being read. -/
def jobPump (tag : Nat) (s : State) : State :=
  match s.job? tag with
  | none => s
  | some j => if dstPageRead s j then s else jobFlush (j.outQ.length + 1) tag s

/-- Hands over bytes of an operation's output for writing; the output of a stream job goes to its egress frame as a whole. -/
def jobEmit (tag off len : Nat) (s : State) : State :=
  match s.job? tag with
  | none => s
  | some j =>
    if j.egress.isSome || len = 0 then s
    else jobPump tag (s.modJob tag fun x => { x with outQ := x.outQ ++ [(off, len)] })

/-- A page of the destination's list arrives while the output is written: the writing goes on (R149). -/
def jobDstPage (tag : Nat) (l : List Byte) (s : State) : State :=
  jobPump tag (s.modJob tag fun x => { x with dstBuf := walkPage (pageElems l) { x.dstBuf with pages := x.dstBuf.pages + 1 } })

/-- Whether the source of an operation goes on once what was asked for has arrived. -/
def Job.sourceOpen (j : Job) : Bool := j.frame.isEmpty && j.srcBuf.listed && j.ends.isNone

/-- A read of an operation ended (R43, R70, R419). -/
def jobReadDone (tag p : Nat) (b : RdBuf) (s : State) : State :=
  match s.job? tag with
  | none => s
  | some j =>
    let early := j.phase == .reading
    match b.res with
    | .pending => s
    | .xlate c _ _ => if early then failJob tag (xlateRes c) s else if p = partDstPage then outFail tag (xlateRes c) s else s
    | .ic => if early then failJob tag icError s else if p = partDstPage then outFail tag icError s else s
    | .ok =>
      if !early then (if p = partDstPage then jobDstPage tag b.data s else s)
      else if p = partSrcPage || p = partDstPage then jobPage tag p b.data s
      else if p = partData && j.sourceOpen then jobSource tag s
      else s

/-- Writes an operation's separate outputs: tag, wrapped key, public key. -/
def jobPost (tag : Nat) (s : State) : State :=
  match s.job? tag with
  | none => s
  | some j => if voided s j.inst then s else j.post.foldl (fun t p => startWrite j.inst p.1 p.2 false (.jobWr tag) true t) s

/-- The output extents in memory that a decrypting entry names (R429): the destination, or in place the text, and of a frame the
whole source, since its output's length is not known before it completes (R146). -/
def namedExt (o flags : Nat) (body : List Byte) (src dst : Buf) : List (Nat × Nat) :=
  if !decrypts o then []
  else if isFrame o && frSel body != 0 then []
  else if fInplace flags then
    (if isSym o then sliceExt src.elems (symAad body) (symText body) else sliceExt src.elems 0 (frLen body))
  else dst.elems

/-- The output extents in memory of a decrypting operation. -/
def Job.zeroExt (j : Job) : List (Nat × Nat) := if j.egress.isSome then [] else namedExt j.opc j.flags j.body j.srcBuf j.dstBuf

/-- The owner of scrub writes: no tag, so that no later operation meets their responses. -/
def scrubOwner : Owner := .jobWr 32768

/-- Overwrites the extents with zeros (R148). -/
def scrubExt (i : Nat) (ext : List (Nat × Nat)) (s : State) : State :=
  ext.foldl (fun t p => startWrite i p.1 (zeros p.2) false scrubOwner true t) s

/-- Whether R148 or R442 asks an operation with an outcome to be scrubbed. -/
def scrubs (o : Nat) (r : Res) : Bool :=
  r.status != 0 && (decrypts o || r.status = 2 || r.status = 3 || r.status = 0x21)

/-- Whether any access of an operation's writes waits or is outstanding. -/
def jobWritesOut (s : State) (tag : Nat) : Bool :=
  (s.mem.waiting.any fun a => a.own == .jobWr tag) || (s.mem.hmp0.out.any fun r => r.own == .jobWr tag)
    || (s.mem.hmp1.out.any fun r => r.own == .jobWr tag)

/-- Discards the read buffers of an operation. -/
def dropReads (j : Job) (s : State) : State := j.reads.foldl (fun t r => dropBuf r.2 t) s

/-- The output an operation with these values gives: computed and written. -/
def computeJob (tag : Nat) (out : List Byte) (post : List (Nat × List Byte)) (r : Res) (s : State) : State :=
  jobPost tag (jobEmit tag 0 out.length (s.modJob tag fun j =>
    { j with out := out, post := post, res := some r, phase := .computed, segs := 1, segDone := 1 }))

end Sys2Proof.Machine
end

