-- ==== Sys2Proof/Machine/RingOps.lean ====
section
/-! DEFINITION. Operations on rings that several commands share: enabling and stopping (R95, R127, R129), done-heads and
retirement (R121, R122), notification records (R130 to R134) and interrupt vectors (R421, R422). -/

namespace Sys2Proof.Machine

/-! ### Formats and addresses -/

/-- Whether a mode's ring format is chained (R106, R483). -/
def chainedMode : Mode → Bool
  | .boot => true | .recovery => true | .test => true | _ => false

/-- Whether a ring enabled now is chained (R106). -/
def chainedNow (s : State) : Bool :=
  match s.modes.mode with
  | .eclipse => chainedMode s.modes.prior
  | .zeroised => if s.modes.zFrom == .eclipse then chainedMode s.modes.prior else chainedMode s.modes.zFrom
  | m => chainedMode m

/-- Whether the writes of ring `n` are data-plane writes: the control ring's are not (R24). -/
def ringDp (s : State) (n : Nat) : Bool := !isControl s n

/-- Address of the done-head word of ring `n` (R97). -/
def dhAddr (s : State) (n : Nat) : Nat :=
  (s.inst (ringInst s n)).dhBase.toNat * 0x10000 + 8 * (n % 1024)

/-- The done-head that a ring shows: never past an entry whose writes failed (R123). -/
def Ring.head (r : Ring) : DhMark := r.cap.getD { slot := r.doneHead, lap := r.dhLap, retired := r.retired }

/-- The done-head word (R122). -/
def dhWord (r : Ring) : Nat := r.head.slot + b2n r.head.lap * 2 ^ 16 + r.head.retired * 2 ^ 32

/-- Writes the done-head word of ring `n`. -/
def writeDoneHead (n : Nat) (s : State) : State :=
  startWrite (ringInst s n) (dhAddr s n) (natLe 8 (dhWord (s.ring n))) false (.doneHead n) (ringDp s n) s

/-! ### Interrupt vectors (R421, R422) -/

/-- Sends a message of vector `v` of instance `i`, or holds it pending while the vector is masked; `dp` is false for the interrupt of a
control-ring record, which is no data-plane write (R24). -/
def sendVector (i v : Nat) (dp : Bool) (s : State) : State :=
  let x := s.inst i
  let e := tget x.vecs (0, 0) v
  if x.mask.toNat.testBit v then s.modInst i fun y => { y with pend := y.pend ||| BitVec.ofNat 8 (2 ^ v),
                                                                    pendCp := if dp then y.pendCp else y.pendCp ||| BitVec.ofNat 8 (2 ^ v) }
  else if e.1 = 0 then s
  else pushAcc { inst := i, op := .writeMask, addr := e.1, phys := true, len := 4, data := natLe 4 e.2.toNat,
                 own := .vec i, dp := dp } s

/-! ### Notification rings (R130 to R134, R524) -/

/-- The instance of notification ring `k`. -/
def nrInst (s : State) (k : Nat) : Nat := (nrOwner s k).getD mi

/-- Records of a notification ring. -/
def Notif.records (r : Notif) : Nat := 2 * 2 ^ (6 + r.size)

/-- Number of the next record. -/
def Notif.next (r : Notif) : Nat := 2 * r.scan + b2n r.half

/-- Moves to the record after the next one. -/
def Notif.advance (r : Notif) : Notif :=
  let k := (r.next + 1) % r.records
  { r with scan := k / 2, half := k % 2 = 1 }

/-- Starts the read that R131 asks for before a record is written: the 64-byte line of record k, and the line of record k + 1 where that
is another. It serves the records decided by now. -/
def nrRead (k : Nat) (s : State) : State :=
  let r := s.nr k
  let first := r.next - r.next % 4
  let after := (r.next + 1) % r.records
  let parts := (r.base + 16 * first, 0, 64) :: (if after / 4 = first / 4 then [] else [(r.base + 16 * after, 64, 64)])
  startReadParts (nrInst s k) 0 parts false (.notif k)
    (s.modNr k fun x => { x with rdId := some s.mem.nextId, rdRec := first, rdFor := x.recs.length })

/-- Starts the read for the oldest record waiting, where none is in progress. -/
def nrKick (k : Nat) (s : State) : State :=
  let r := s.nr k
  if r.enabled && !r.ovf && r.rdId.isNone && !r.recs.isEmpty then nrRead k s else s

/-- The record of what a ring has pending (R130). -/
def ringRec (n : Nat) (r : Ring) (urgent : Bool) : NrRec :=
  { ring := n, doneHead := r.head.slot, dhLap := r.head.lap, flags := r.flags, count := r.since, retired := r.head.retired,
    now := urgent }

/-- Decides to write a record of ring `n` for what it has pending; while its notification ring overflows or is DISABLED the
count and flags stay pending (R132). -/
def noteRing (n : Nat) (urgent : Bool) (s : State) : State :=
  let r := s.ring n
  let k := r.nrn
  if r.nrEn && (s.nr k).enabled && !(s.nr k).ovf then
    nrKick k ((s.modNr k fun x => { x with recs := x.recs ++ [ringRec n r urgent] }).modRing n fun x =>
      { x with since := 0, flags := 0 })
  else s

/-- The 16 bytes of a record (R130). -/
def recBytes (r : NrRec) : List Byte :=
  natLe 16 (r.ring + r.doneHead * 2 ^ 16 + b2n r.dhLap * 2 ^ 32 + r.flags * 2 ^ 40 + r.count * 2 ^ 48
    + r.retired * 2 ^ 64 + 2 ^ 127)

/-- The OVERFLOW marker (R131). -/
def markerBytes : List Byte := natLe 16 (2 ^ 40 + 2 ^ 127)

/-- Writes the 16 bytes of a record at the next place: bytes 0 to 7, then bytes 8 to 15 (R130). -/
def nrWrite (k : Nat) (b : List Byte) (dp : Bool) (s : State) : State :=
  let i := nrInst s k
  let a := (s.nr k).base + 16 * (s.nr k).next
  let s1 := startWrite i a (b.take 8) false (.notif k) dp s
  let s2 := startWrite i (a + 8) (b.drop 8) false (.notif k) dp s1
  s2.modNr k Notif.advance

/-- Whether an interrupt of the notification ring was sent within the last HOLDOFF µs (R134). -/
def nrHolding (s : State) (k : Nat) : Bool :=
  ((s.nr k).sent.map fun t => decide (now s < t + 1000 * (s.nr k).holdoff)).getD false

/-- Sends the interrupt of a notification ring: a holdoff starts, and nothing is owed any more. -/
def nrSend (k v : Nat) (dp : Bool) (s : State) : State :=
  sendVector (nrInst s k) v dp (s.modNr k fun x => { x with sent := some (now s), owed := none })

/-- The interrupt after a record, with the vector, enable and holdoff as they stand (R96): at once when urgent or outside the holdoff,
else owed at the holdoff's end (R134). One sent at once during a holdoff covers what was owed, and the holdoff starts anew
(log entry 174). It is a data-plane write only where no record it covers is the control ring's (R24). -/
def nrInterrupt (k : Nat) (urgent dp : Bool) (s : State) : State :=
  let r := s.nr k
  let d := dp && (r.owed.map Prod.snd).getD true
  if !r.irqEn then s
  else if urgent || !nrHolding s k then nrSend k r.vec d s
  else s.modNr k fun x => { x with owed := some (r.vec, d) }

/-- NR_OVF: no record is written while it stays set, and the waiting records go back to their rings (R131, R132). -/
def nrOverflow (k : Nat) (dp : Bool) (s : State) : State :=
  nrInterrupt k true dp ((unwriteRecs k s).modNr k fun x => { x with ovf := true })

/-- Where record `j` lies in the lines that the read returned. -/
def Notif.recAt (r : Notif) (j : Nat) : Nat := 16 * ((j % r.records + r.records - r.rdRec) % r.records)

/-- Serves up to `n` waiting records from the lines of one read: each writes its record, a marker, or neither. A record for which the
lines do not show both itself and the next waits for a read of its own (R131). -/
def nrServe (n k : Nat) (b : List Byte) (s : State) : State :=
  match n with
  | 0 => nrKick k s
  | m + 1 =>
    let r := s.nr k
    match r.recs with
    | [] => s
    | x :: rest =>
      let dp := ringDp s x.ring
      let at0 := r.recAt r.next
      let at1 := r.recAt (r.next + 1)
      if at1 + 16 > b.length then nrKick k s
      else if bit (leAt b at0 16) 127 then nrOverflow k dp s
      else if bit (leAt b at1 16) 127 then nrOverflow k dp (nrWrite k markerBytes dp s)
      else nrServe m k b (nrInterrupt k x.now dp (nrWrite k (recBytes x) dp (s.modNr k fun y => { y with recs := rest })))

/-- The read before a record returned: it serves the records decided before it was issued (R131). -/
def nrDeliver (k : Nat) (b : List Byte) (s : State) : State := nrServe (s.nr k).rdFor k b s

/-! ### Configuration, enable and stop (R95, R127, R129) -/

/-- Whether an enable of ring `n` is refused: its configuration is invalid (R127). -/
def ringCfgBad (s : State) (n : Nat) : Bool :=
  let r := s.ring n
  r.size > 10 || (s.inst (ringInst s n)).dhBase == 0
    || (r.nrEn && (nrOwner s r.nrn != ringOwner s n || !(s.nr r.nrn).enabled))

/-- Applies ENABLE to a ring that is DISABLED: it starts fresh, no position, lap, count or flag of an earlier run with it (R127, R129). -/
def applyEnable (n : Nat) (s : State) : State :=
  if ringCfgBad s n then s.modRing n fun r => { r with st := .disabled, cfgErr := true }
  else
    let r := s.ring n
    writeDoneHead n (s.setRing n
      { size := r.size, base := r.base, auto := r.auto, fault := r.fault, cfgErr := r.cfgErr, nrn := r.nrn,
        nrEn := r.nrEn, burst := r.burst, st := .enabled, chained := chainedNow s })

/-- Starts a scan of ring `n`, or records one further scan (R107, R108). -/
def startScan (n : Nat) (s : State) : State :=
  if (s.ring n).scanSt == .idle then scanOn n s else s.modRing n fun r => { r with further := true }

/-- Marks every admitted operation of ring `n` to stop at its next segment boundary with an outcome (R127). -/
def stopJobs (n : Nat) (r : Res) (s : State) : State :=
  { s with jobs := s.jobs.map fun j =>
      match j.src with
      | .ring k _ => if k = n then { j with stop := some r } else j
      | _ => j }

/-- Completes every owned entry of ring `n` from its scan pointer on with a status: the cached ones first, then those a scan
meets, up to the first header the block does not own (R87, R127, R429). -/
def drainRing (n status : Nat) (s : State) : State :=
  let r := s.ring n
  let items := r.cache.map fun e => ({ ent := e, fin := some (res status 0) } : RobItem)
  let s1 := s.setRing n { r with cache := [], rob := r.rob ++ items, drain := true, stopAs := status, bell := false,
                                 further := false, noScan := false, invBell := false }
  if r.scanSt == .reading then s1 else readHeader n s1

/-- A write of ENABLE = 0 (R127). -/
def stopRing (n : Nat) (s : State) : State :=
  match (s.ring n).st with
  | .enabled => drainRing n 0x24 (stopJobs n (res 0x24 0) (s.modRing n fun r => { r with st := .stopping, endFlags := 4 }))
  | .pendingEnable => s.modRing n fun r => { r with st := .stopping }
  | _ => s

/-- Whether an instance runs the re-enable of R429: a ring of it completes its owned entries as ABORTED_RESET, and RESET_HELD
still reads one. -/
def reEnabling (s : State) (i : Nat) : Bool :=
  (tkeys s.rings).any fun n => (s.ring n).drain && (s.ring n).stopAs = 0x20 && ringInst s n = i

/-- Whether an instance refuses enables of its rings (R428). -/
def enableHeld (s : State) (n : Nat) : Bool := (s.inst (ringInst s n)).resetHeld || reEnabling s (ringInst s n)

/-- A write of ENABLE = 1 (R127). -/
def enableRing (n : Nat) (s : State) : State :=
  if enableHeld s n then s.modRing n fun r => { r with cfgErr := true }
  else
    match (s.ring n).st with
    | .disabled => applyEnable n s
    | .stopping => s.modRing n fun r => { r with st := .pendingEnable }
    | _ => s

/-- Whether ring `n` has nothing in flight and its forward scan is complete (R127). -/
def ringQuiet (s : State) (n : Nat) : Bool :=
  let r := s.ring n
  !r.drain && r.scanSt == .idle && r.rob.isEmpty && r.cache.isEmpty
    && s.jobs.all fun j => match j.src with
      | .ring k _ => k != n
      | _ => true

/-- The last record of a ring that reaches DISABLED: decided now, or kept by the notification ring while that writes none (R127,
R132). -/
def endNote (n : Nat) (s : State) : State :=
  let r := s.ring n
  let k := r.nrn
  if !r.nrEn then s
  else if (s.nr k).enabled && !(s.nr k).ovf then noteRing n false s
  else (s.modNr k fun x => { x with late := x.late ++ [ringRec n r false] }).modRing n fun x => { x with since := 0, flags := 0 }

/-- The stop of ring `n` is complete: DISABLED with its final done-head and record, RING_STOPPED, RING_FAULT or both, then any pending
enable (R93, R127). CHAINED reads 0 from here to the next enable (log entry 175). -/
def ringStopped (n : Nat) (s : State) : State :=
  let r := s.ring n
  let s1 := writeDoneHead n s
  let s2 := s1.modRing n fun x => { x with st := .disabled, endFlags := 0, chained := false,
                                           flags := if x.nrEn then x.flags ||| x.endFlags else x.flags }
  let s3 := endNote n s2
  if r.st == .pendingEnable then applyEnable n s3 else s3

/-- Stops every submission ring enabled in a format that the mode now in force does not have (R106). -/
def reformatRings (s : State) : State :=
  (tkeys s.rings).foldl (fun t n =>
    if (t.ring n).st == .enabled && (t.ring n).chained != chainedNow t then stopRing n t else t) s

/-- Header slots of the cached entries of a ring that are not admitted, each with the number of its entry in the cache and its place in
that entry's chain; those of the open chain last. -/
def Ring.cachedHeads (r : Ring) : List (Nat × Nat × Nat) :=
  (r.cache.zipIdx.flatMap fun x =>
      if x.1.chain.isEmpty then [(x.1.slot, x.2, 0)] else x.1.chain.zipIdx.map fun c => (c.1.1, x.2, c.2))
    ++ r.chain.zipIdx.map fun c => (c.1.1, r.cache.length, c.2)

/-- The first `j` headers with their bodies of the cached entry with number `k`, or of the open chain behind them all. -/
def Ring.chainPrefix (r : Ring) (k j : Nat) : List (Nat × Nat × List Byte) :=
  match r.cache[k]? with
  | some e => (e.chain.take j).zipIdx.map fun c => (c.1.1, c.1.2, bytesAt e.body (48 * c.2) 48)
  | none => r.chain.take j

/-- Discards the cached entries of ring `n` from the first header slot on that `p` holds of, and moves its scan pointer back to that
header; earlier entries of its chain stay, as an open chain (R114, R430, R498). -/
def uncacheFrom (n : Nat) (p : Nat → Bool) (s : State) : State :=
  match (s.ring n).cachedHeads.find? fun h => p h.1 with
  | none => s
  | some h => s.modRing n fun r =>
    { r with cache := r.cache.take h.2.1, chain := r.chainPrefix h.2.1 h.2.2, scan := h.1,
             lap := if h.1 ≥ r.scan then !r.lap else r.lap,
             chainBad := h.2.2 != 0 && (r.chainBad || ((r.cache[h.2.1]?).bind fun e => e.verdict) == some icError) }

/-- Scans ring `n` for a doorbell held back, or because its scans resume (R440, R485). -/
def rescan (n : Nat) (s : State) : State :=
  let r := s.ring n
  if r.st != .enabled || (r.noScan && !r.bell) then s
  else if !r.invDone then s.modRing n fun x => { x with invBell := true, bell := false }
  else startScan n (s.modRing n fun x => { x with bell := false, noScan := false })

/-! ### Retirement (R105, R121, R122) -/

/-- The header slots and headers of an entry. -/
def Entry.headers (e : Entry) : List (Nat × Nat) := if e.chain.isEmpty then [(e.slot, e.hdr)] else e.chain

/-- A status word (R102). -/
def statusWord (r : Res) : Nat := r.status + r.detail * 2 ^ 8 + r.result % 2 ^ 32 * 2 ^ 32

/-- The writes of one retirement: the IV used, the extended reply, the statuses and then the headers with OWN = 0. -/
def retireWrites (n : Nat) (it : RobItem) (r : Res) (s : State) : State :=
  let g := s.ring n
  let i := ringInst s n
  let dp := ringDp s n
  let w := fun (a : Nat) (b : List Byte) (t : State) => startWrite i a b false (.ringWr n it.ent.slot) dp t
  let a0 := g.addr it.ent.slot
  let s1 := if it.iv.isEmpty then s else w (a0 + 48) it.iv s
  let s2 := if isControl s n && it.ent.verdict.isNone && it.ent.slots ≥ 2 then w (a0 + 56) (natLe 8 it.replyX) s1 else s1
  let s3 := it.ent.headers.foldl (fun t h => w (g.addr h.1 + 8) (natLe 8 (statusWord r)) t) s2
  it.ent.headers.foldl (fun t h => w (g.addr h.1) (natLe 8 (h.2 % 2 ^ 63)) t) s3

/-- Whether a retirement write of ring `n` waits or is outstanding. -/
def ringWriting (s : State) (n : Nat) : Bool :=
  let own : Owner → Bool := fun o => match o with
    | .ringWr k _ => k == n
    | _ => false
  (s.mem.waiting.any fun a => own a.own) || (s.mem.hmp0.out.any fun r => own r.own) || (s.mem.hmp1.out.any fun r => own r.own)

/-- Retires the oldest entry of ring `n`. -/
def retireOne (n : Nat) (it : RobItem) (r : Res) (s : State) : State :=
  (retireWrites n it r s).modRing n fun g =>
    let p := g.after g.doneHead g.dhLap it.ent.slots
    { g with rob := g.rob.drop 1,
             marks := (if ringWriting s n then g.marks else [])
               ++ [{ seq := s.mem.nextAcc, slot := g.doneHead, lap := g.dhLap, retired := g.retired }],
             doneHead := p.1, dhLap := p.2, retired := (g.retired + 1) % 2 ^ 32,
             since := min 0xFFFF (g.since + 1), flags := if r.status = 0 then g.flags else g.flags ||| 2 }

/-- Retires a burst: consecutive finished entries, up to 256, ending at an entry with IRQ_NOW; answers whether the burst
ended at such an entry (R122). -/
def retireRun (fuel n : Nat) (s : State) : State × Bool :=
  match fuel with
  | 0 => (s, false)
  | f + 1 =>
    match (s.ring n).rob with
    | [] => (s, false)
    | it :: _ =>
      match it.fin with
      | none => (s, false)
      | some r =>
        let s1 := retireOne n it r s
        if hIrq it.ent.hdr then (s1, true) else retireRun f n s1

/-- A retirement burst of ring `n` with its done-head and record (R122). -/
def retireBurst (n : Nat) (s : State) : State :=
  let p := retireRun 256 n s
  noteRing n p.2 (writeDoneHead n p.1)

/-- Puts the outcome of the entry of ring `n` whose header is at `slot` into the reorder buffer. -/
def finishItem (n slot : Nat) (r : Res) (replyX : Nat) (iv : List Byte) (s : State) : State :=
  s.modRing n fun g =>
    { g with rob := g.rob.map fun it =>
        if it.ent.slot = slot && it.fin.isNone then { it with fin := some r, replyX := replyX, iv := iv } else it }

end Sys2Proof.Machine
end

