-- ==== Sys2Proof/Machine/Response.lean ====
section
/-! DEFINITION. The tamper chain from a qualified event to its response (R436 to R446), the abort of key operations (R442),
key invalidation (R375, R443) and the hardware zeroise line (R376, R377, R494). -/

namespace Sys2Proof.Machine

/-! ### Aborting key operations (R442) -/

/-- TAMPER_ABORT with its detail: 1 for PURGE_SESSION, 2 for ZEROISE. -/
def tamperAbort (d : Nat) : Res := res 0x21 d

/-- Removes the egress frame of an operation without filling its length word. -/
def dropEgress (tag : Nat) (s : State) : State :=
  let f : StreamSt → StreamSt := fun p => { p with eg := p.eg.filter fun e => e.tag != some tag }
  s.modStr fun t => { t with p0 := f t.p0, p1 := f t.p1 }

/-- Removes a stored ingress frame of a port. -/
def dropIngress (port id : Nat) (s : State) : State :=
  s.modSp port fun p => { p with ing := p.ing.filter fun f => f.id != id }

/-- Aborts an operation: its engine state and output are cleared and its frames leave the stream stores. -/
def abortJob (d : Nat) (j : Job) (s : State) : State :=
  let s1 := s.modJob j.tag fun x => x.cut (tamperAbort d)
  let s2 := dropEgress j.tag s1
  match j.src with
  | .stream p id => dropIngress p id s2
  | _ => s2

/-- Command codes that read a key (R442). -/
def keyCommands : List Nat := [0x01, 0x10, 0x11, 0x12, 0x13, 0x14, 0x15, 0x20, 0x21, 0x28, 0x31]

/-- Whether a command packet in flight is a key operation short of its commit point (R442, R464). -/
def Packet.abortable (p : Packet) : Bool := keyCommands.contains p.opc && !p.committed && p.res.isNone

/-- Aborts every key operation in flight: operations, and command packets short of their commit point, whose writes are overwritten with
zeros. -/
def abortKeyOps (d : Nat) (s : State) : State :=
  let s1 := s.jobs.foldl (fun t j => if readsNoKey j.opc then t else abortJob d j t) s
  let s2 := s1.modOry fun o =>
    { o with packets := o.packets.map fun p =>
        if p.abortable then { p with res := some (tamperAbort d), waits := false, keep := [] } else p }
  (s1.ory.packets.filter Packet.abortable).foldl (fun t p => scrubExt mi p.written t) s2

/-! ### Key invalidation (R267, R312, R375, R443) -/

/-- Whether a recorded parent is one of the listed parent-class slots. -/
def namesSlot (s : State) (set : List Nat) (h : Nat) : Bool := set.any fun i => h == parentHandle s i

/-- The parent-class slots directly below any of the listed ones and not listed. -/
def slotsUnder (s : State) (set : List Nat) : List Nat :=
  (s.cruc.parents.filter fun p => p.2.st != .empty && !set.contains p.1 && namesSlot s set p.2.parent).map Prod.fst

/-- The listed slots and every slot below them, `n` levels deep. -/
def slotTree (n : Nat) (s : State) (set : List Nat) : List Nat :=
  match n with
  | 0 => set
  | k + 1 => slotTree k s (set ++ slotsUnder s set)

/-- Whether an admitted operation refers to cache entry `e`. -/
def entryInUse (s : State) (e : Nat) : Bool := s.jobs.any fun j => j.ctxEnt == some e

/-- Marks a context STALE with cause PARENT; its key slots are zeroised once no admitted operation refers to it
(R267, R375). -/
def staleParent (e : Nat) (s : State) : State :=
  let s1 := if (s.ctxAt e).st == .stale && (s.ctxAt e).cause = 1 then s else markStale e 1 s
  if entryInUse s e then s1.modCtx e fun c => { c with zeroAt := true } else zeroCtxKeys e s1

/-- The resident contexts with a key whose parent is one of the listed slots. -/
def ctxUnder (s : State) (set : List Nat) : List Nat :=
  (tkeys s.ctx).filter fun e =>
    namesSlot s set (s.ctxKey (2 * e)).parent || namesSlot s set (s.ctxKey (2 * e + 1)).parent

/-- Clears an HMAC slot: it keeps its owner and its count of failures since the last load, and advances its generation (R312). -/
def clearHSlot (h : HSlot) : HSlot := { owner := h.owner, gen := (h.gen + 1) % 256, pending := h.pending, failCnt := h.failCnt }

/-- Clears an HMAC slot under an invalidated parent, once no operation admitted with it is left (R312, R375). -/
def invalidHSlot (s : State) (n : Nat) (h : HSlot) : HSlot := if hslotInUse s n then { h with clearAt := true } else clearHSlot h

/-- Clears the HMAC slots whose clear waited for their last operation. -/
def clearWaiting (s : State) : State :=
  s.modDig fun d => { d with slots := tmap d.slots {} fun n h => if h.clearAt && !hslotInUse s n then clearHSlot h else h }

/-- KEY_INVALIDATE without DESTROY on the listed parent-class slots: steps 1, 2, 4 and 5 of R375. -/
def invalidateUnder (named : List Nat) (s : State) : State :=
  let tree := slotTree 5 s named
  let below := tree.filter fun i => !named.contains i
  let s1 := (ctxUnder s tree).foldl (fun t e => staleParent e t) s
  let s2 := s1.modDig fun d =>
    { d with slots := tmap d.slots {} fun n h => if h.valid && namesSlot s tree h.parent then invalidHSlot s n h else h }
  let s3 := named.foldl (fun t i => if (t.parent i).st == .empty then t else
    t.modParent i fun k => { k with gen := (k.gen + 1) % 2 ^ 32 }) s2
  let s4 := below.foldl (fun t i => t.modParent i fun k =>
    { k with st := .invalid, gen := (k.gen + 1) % 2 ^ 32, key := [], seed := [] }) s3
  tree.foldl (fun t i => recordSlot i t) s4

/-- PURGE_SESSION's destruction of session keys (R443). -/
def purgeKeys (s : State) : State :=
  let inst := (tkeys s.cruc.parents).filter fun i => i ≤ 128
  let s1 := invalidateUnder inst s
  let orphan := (tkeys s1.ctx).filter fun e =>
    ((s1.ctxKey (2 * e)).st == .valid && (s1.ctxKey (2 * e)).parent == 0)
      || ((s1.ctxKey (2 * e + 1)).st == .valid && (s1.ctxKey (2 * e + 1)).parent == 0)
  let s2 := (tkeys s1.ctx).foldl (fun t e => if orphan.contains e then staleParent e t else t) s1
  let gone := (tkeys s2.cruc.parents).filter fun i => (s2.parent i).kind == .transport || (s2.parent i).st == .offered
  gone.foldl (fun t i => recordSlot i (freeSlot i t)) s2

/-! ### The zeroise line (R376, R377) -/

/-- The clear of the zeroise line; the ZEROISE form also clears the Vault root. -/
def clearKeys (full : Bool) (halt : Bool) (s : State) : State :=
  let s1 := s.modCruc fun c =>
    { c with parents := [], system := [], ctxKeys := [], root := .none, rootKey := [], debug := false,
             zLast := if full then 1 else 2, zFill := false, zCount := min 0xFFFF (c.zCount + 1),
             zRun := .verify (halt || c.zRun == .verify true) }
  let s2 := { (tkeys s1.ctx).foldl (fun t e => keepGen e t) s1 with ctx := [] }
  let s3 := s2.modDig fun d => { d with slots := [] }
  let s4 := s3.modAnv fun a => { a with drbg := if a.drbg == .stopped then .stopped else .unseeded }
  let s5 := s4.modVault fun v => { v with fetches := [], evicts := [], misses := [] }
  let s6 := { s5 with jobs := s5.jobs.map fun j => { j with keyA := [], keyB := [], ops := [] } }
  if full then s6.modVigil fun v => { v with root := none } else s6

/-- Stops every enabled data ring (R494). -/
def stopDataRings (s : State) : State :=
  (tkeys s.rings).foldl (fun t n => if isControl t n then t else stopRing n t) s

/-- The counter area is in use again once the block has left Test (R477). -/
def restoreCounters (s : State) : State :=
  match s.ldg.kept with
  | none => s
  | some k => s.modLdg fun l =>
    { l with kept := none, vkeyGen := k.vkeyGen, treeEpoch := k.treeEpoch, cursor := k.cursor, reseal := k.reseal, epochs := k.epochs,
             wraps := k.wraps, live := k.live }

/-- The ZEROISE and ZEROISE_HALT responses (R440, R442, R494): the clear, then the aborts, then the mode. A clear in progress
is not started again; a key clear in progress gives way to it. During the start-up the mode is selected at its end (R446, R487). -/
def zeroise (halt : Bool) (s : State) : State :=
  match s.cruc.zRun, s.cruc.zLast with
  | .verify h, 1 => s.modCruc fun c => { c with zRun := .verify (h || halt) }
  | _, _ =>
    let s1 := clearKeys true halt (s.modVigil fun v => { v with zpend := true })
    let s2 := abortKeyOps 2 (s1.modPort fun p => { p with zDriven := true })
    if s.modes.mode == .boot then s2.modModes fun m => { m with bootZero := true }
    else if s.modes.mode == .zeroised then s2
    else restoreCounters (stopDataRings (enterMode .zeroised (s2.modModes fun m => { m with zFrom := m.mode, eclipseDone := false })))

/-! ### Responses (R440, R441) -/

/-- PURGE_SESSION (R442, R443). -/
def purge (s : State) : State := purgeKeys (abortKeyOps 1 s)

/-- Applies a response code with the actions of every response above it in the table, the most severe first; in a halt no
response adds an action (R440, R441, R445). An entry to Zeroised has sent both interrupts already (R58, R503). -/
def respond (code : Nat) (s : State) : State :=
  if s.modes.halted then s
  else
    let s0 := s.modTam fun t => { t with last := max t.last code }
    let s1 := if code ≥ 4 then zeroise (code ≥ 5) s0 else s0
    let s2 := if code = 3 then purge s1 else s1
    let s3 := if code ≥ 2 then s2.modTam fun t => { t with frozen := true } else s2
    if code = 0 then s3
    else if s.modes.mode != .zeroised && s3.modes.mode == .zeroised then s3
    else raiseIbi (faultMsg s3)

/-! ### The count stage (R438, R439) -/

/-- The tamper configuration record in force for a source: the fused word during start-up, with the lid polarity that the Vigil domain
retains (log entry 166), else the configured one (R445, R446). -/
def tRec (s : State) (k : Nat) : TRec :=
  if s.tam.fusedTable then
    let f := tget s.tam.fused (true, 1) k
    { arm := f.1, response := f.2, n := 1, w := 1, debounce := 1, rearm := 1, polarity := (tget s.vigil.vArm {} k).polarity }
  else tget s.tam.recs {} k

/-- Whether a source is armed under main power: its record arms it and its disable fuse is intact (R435). -/
def armed (s : State) (k : Nat) : Bool := (tRec s k).arm && !(k < 16 && s.tam.disabled.toNat.testBit k)

/-- The chain of source `k`. -/
def State.tsrc (s : State) (k : Nat) : Src := tget s.tam.src {} k
/-- Changes the chain of source `k`. -/
def State.modTsrc (s : State) (k : Nat) (f : Src → Src) : State :=
  s.modTam fun t => { t with src := tmod t.src {} k f }

/-- A TMP_EVT_FIFO word (R450). -/
def tWord (s : State) (k kind resp cls : Nat) : Nat :=
  k + kind * 2 ^ 5 + resp * 2 ^ 7 + cls % 32 * 2 ^ 10 + b2n s.tam.fusedTable * 2 ^ 15
    + now s / 1000000 % 32768 * 2 ^ 16 + 2 ^ 31

/-- Writes an entry to TMP_EVT_FIFO and, unless the block is halted, to the event log (R439, R445, R450). -/
def tEntry (k kind resp cls : Nat) (s : State) : State :=
  let w := tWord s k kind resp cls
  let s1 := s.modTam fun t =>
    if t.fifo.length < 64 then { t with fifo := t.fifo ++ [w] } else { t with evtOvf := true }
  if s.modes.halted then s1 else logEvent 1 kind w s1

/-- An alarm: its entry, the count of alarms and its response (R439 to R441). -/
def alarm (k resp cls : Nat) (s : State) : State :=
  respond resp ((tEntry k 1 resp cls s).modTam fun t => { t with alarms := min 0xFFFF (t.alarms + 1) })

/-- Closes a count window that has run for W (R438). -/
def Src.expire (x : Src) (r : TRec) (t : Nat) : Src :=
  if x.opened && t - x.start ≥ r.w * 1000000 then { x with opened := false, ignored := false, bounces := [] } else x

/-- The count stage on one event at time `t`: the chain after it, whether it opened a window, whether it raises the
alarm (R438). -/
def Src.counts (x : Src) (r : TRec) (t : Nat) : Src × Bool × Bool :=
  let y := x.expire r t
  let opens := !y.opened
  let z := if opens then { y with opened := true, start := t, count := 1 } else { y with count := y.count + 1 }
  if z.count ≥ r.n then ({ z with opened := false, ignored := false, bounces := [] }, opens, true) else (z, opens, false)

/-- A qualified event of source `k` with a class: the lifetime counter, the count stage, and its entry or alarm. -/
def qualified (k cls : Nat) (s : State) : State :=
  let r := tRec s k
  let c := (s.tsrc k).counts r (now s)
  let s1 := (s.modTsrc k fun _ => c.1).modLdg fun l =>
    { l with live := { l.live with tamper := tmod l.live.tamper 0 k fun n => (n + 1) % 2 ^ 32 } }
  if c.2.2 then
    alarm k r.response cls (if inTest s then s1 else s1.modLdg fun l => { l with saved := { l.saved with tamper := l.live.tamper } })
  else if c.2.1 then tEntry k 0 0 cls s1
  else s1

/-- An occurrence of DISAGREE that concerns source `j` (R433). -/
def disagree (j : Nat) (s : State) : State :=
  let s1 := s.modTam fun t => { t with disagree := t.disagree ||| BitVec.ofNat 16 (2 ^ j) }
  if armed s 16 then qualified 16 j s1 else s1

/-- A self-test failure of a detector of source `j`: an occurrence of DISAGREE of kind SELFTEST (R434, R439). -/
def selfTestFail (j : Nat) (s : State) : State :=
  let s1 := s.modTam fun t => { t with selftest := t.selftest ||| BitVec.ofNat 16 (2 ^ j) }
  let s2 := tEntry 16 3 0 j s1
  if armed s 16 then qualified 16 j s2 else s2

/-- A storm of source `k` (R437): its entry, one qualified event, and one occurrence of CHATTER. -/
def storm (k : Nat) (s : State) : State :=
  let cls := (s.tsrc k).cls
  let s1 := s.modTam fun t => { t with chatter := t.chatter ||| BitVec.ofNat 16 (2 ^ k) }
  let s2 := qualified k cls (tEntry k 2 0 cls (s1.modTsrc k fun x => { x with bounces := [], ignored := true }))
  let s3 := if (s2.tsrc k).opened then s2 else s2.modTsrc k fun x => { x with ignored := false }
  if armed s 17 then qualified 17 0 s3 else s3

/-- A bounce of source `k` (R437). -/
def bounce (k : Nat) (s : State) : State :=
  let t := now s
  let x := (s.tsrc k).expire (tRec s k) t
  if x.ignored then s.modTsrc k fun _ => x
  else
    let from0 := if x.opened then x.start else t - 1000000
    let bs := (x.bounces.filter fun b => b ≥ from0) ++ [t]
    let s1 := s.modTsrc k fun _ => { x with bounces := bs }
    if bs.length ≥ 8 then storm k s1 else s1

/-- An occurrence of a report source that both of its count paths record (R431, R436). -/
def occurrence (k : Nat) (s : State) : State := if armed s k then qualified k 0 s else s

/-- A word failed its Integrity Code: one occurrence of ICVIOL (R70, R431). -/
def icViolation (s : State) : State := occurrence 14 s

end Sys2Proof.Machine
end

