-- ==== Sys2Proof/Machine/Settle.lean ====
section
/-! DEFINITION. What follows when accesses are issued, answered or fail: fault records (R419, R420), the stop of rings (R93),
the outcome of operations, the failure of an HMP (R47), and the loop that runs until nothing more follows. -/

namespace Sys2Proof.Machine

/-! ### Fault records (R420) -/

/-- Where a failed access came from: SOURCE of R420 with its ring and slot; none where no record is written. -/
structure Blame where
  source : Nat := 0
  ring : Nat := 0
  slot : Nat := 0
  deriving DecidableEq, Repr

/-- The ring and header slot of an operation. -/
def jobBlame (s : State) (tag : Nat) : Option Blame :=
  (s.job? tag).map fun j => match j.src with
    | .ring r k => { source := 0, ring := r, slot := k }
    | .stream _ _ => { source := 0 }

/-- The SOURCE of a read. -/
def readBlame (s : State) (o : RdOwn) : Option Blame :=
  match o with
  | .ringHdr n => some { source := 1, ring := n, slot := (s.ring n).scan }
  | .ringBody n => some { source := 1, ring := n, slot := (s.ring n).scan }
  | .job t _ => jobBlame s t
  | .cmd k _ => some { source := 0, ring := s.ory.ctrlRing, slot := k }
  | .notif k => some { source := 2, ring := ((s.nr k).recs.head?.map fun r => r.ring).getD 0 }
  | .flt _ => some { source := 5 }
  | .sit _ => some { source := 3 }
  | .sitEvt _ => some { source := 4 }
  | .vault _ _ => some { source := 0 }

/-- The SOURCE of an access. -/
def blame (s : State) (o : Owner) : Option Blame :=
  match o with
  | .rd id _ => (s.buf? id).bind fun b => readBlame s b.own
  | .walk _ => none
  | .ringWr r k => some { source := 1, ring := r, slot := k }
  | .doneHead r => some { source := 2, ring := r }
  | .notif _ => some { source := 2 }
  | .jobWr t => jobBlame s t
  | .cmdWr k => some { source := 0, ring := s.ory.ctrlRing, slot := k }
  | .vec _ => none
  | .fltWr _ => some { source := 5 }
  | .sitWr _ => some { source := 3 }
  | .sitEvtWr _ => some { source := 4 }
  | .vaultWr _ => some { source := 0 }
  | .dirty _ => none
  | .msg => none

/-- Address of an instance's fault area (R420). -/
def fltAddr (i : Inst) : Nat := i.dhBase.toNat * 0x10000 + 0x2000 + 32 * i.fltNext

/-- Starts the read that precedes the next fault record. -/
def fltKick (i : Nat) (s : State) : State :=
  let v := s.inst i
  if v.fltRd.isNone && v.fltWr.isNone && !v.fltRecs.isEmpty then
    startReadParts i 0 [(fltAddr v, 0, 32)] false (.flt i) (s.modInst i fun x => { x with fltRd := some s.mem.nextId })
  else s

/-- Drops a fault record: OVF and DROPPED (R420). -/
def fltDrop (i : Nat) (s : State) : State :=
  s.modInst i fun x => { x with fltOvf := true, fltDropped := min 0xFFFF (x.fltDropped + 1) }

/-- Decides to write a fault record for a failed access. A fault of the fault area itself, met while a record of such a fault is
written, only drops it. -/
def faultRecord (f : AccFail) (s : State) : State :=
  let i := f.acc.inst
  let v := s.inst i
  match blame s f.acc.own with
  | none => s
  | some b =>
    if !v.fltEn || f.cause = 0 then s
    else if b.source = 5 && ((v.fltRecs.head?.map fun r => r.source == 5).getD false) then s
    else
      let t := now s
      let access := if f.walkRd then 2 else if f.acc.op == .read then 0 else 1
      let r : FltRec := { iova := f.acc.addr, cause := f.cause, access := access, level := f.level, source := b.source,
                          ring := b.ring, slot := b.slot, sec := t / 1000000000 % 2 ^ 32, ns := t % 1000000000 }
      fltKick i (s.modInst i fun x => { x with fltRecs := x.fltRecs ++ [r] })

/-! ### INST_STATUS (R410) -/

/-- STATE of INST_STATUS. -/
def iCode : IState → Nat
  | .unused => 0 | .disabled => 1 | .enabled => 2 | .stopping => 3 | .resetting => 4 | .pendingEnable => 5 | .eclipse => 6

/-- Contexts an instance holds. -/
def ctxUsed (s : State) (o : Nat) : Nat := (s.ctx.filter fun p => p.2.owner = o).length

/-- Whether an instance's use of contexts exceeds its quota, INST_STATUS.OVER_QUOTA (R407). -/
def overQuota (s : State) (o : Nat) : Bool := ctxUsed s o > (s.inst o).ctxQuota

/-- INST_STATUS. -/
def instStatus (s : State) (i : Nat) : Nat :=
  let x := s.inst i
  iCode x.st + flags [(x.resetHeld, 3), (overQuota s i, 4), (x.dlFault, 5)] + x.gen % 2 ^ 16 * 2 ^ 16

/-! ### Outcomes -/

/-- The outcome of an access that failed: XLATE_FAULT with its cause, or IC_ERROR for cause 0. -/
def failRes (cause : Nat) : Res := if cause = 0 then icError else xlateRes cause

/-- A write of an operation's output failed: the operation does not complete as OK (R43, R419). -/
def failWrite (tag : Nat) (r : Res) (s : State) : State :=
  s.modJob tag fun j =>
    if (j.res.map fun x => x.status != 0).getD false then j else { j with res := some r, phase := .computed, segDone := j.segs, comet := none, saved := false, handed := false }

/-- Sets bits of VLT_FAULT with an entry of the event log (R255, R520). -/
def vaultFault (b h code : Nat) (s : State) : State :=
  logEvent 6 code h (s.modVault fun v => { v with fault := v.fault ||| word (2 ^ b) })

/-- What follows once a read is complete (R93, R43). Reads that a command of their own consumes stay where they are. -/
def readDone (b : RdBuf) (s : State) : State :=
  match b.own with
  | .ringHdr n => ringReadDone n true b (dropBuf b.id s)
  | .ringBody n => ringReadDone n false b (dropBuf b.id s)
  | .job t p => if (s.job? t).isNone then dropBuf b.id s else jobReadDone t p b s
  | _ => s

/-- One line of a read is answered: its bytes, or a failure with its cause. -/
def lineDone (id off : Nat) (bytes : List Byte) (fail : Option RdRes) (s : State) : State :=
  match s.buf? id with
  | none => s
  | some b =>
    let r1 := match fail with
      | some f => if b.res == .pending then f else b.res
      | none => b.res
    let b1 : RdBuf := { b with data := if fail.isNone then putBytes b.data off bytes else b.data, left := b.left - 1,
                               res := if b.left ≤ 1 && r1 == .pending then .ok else r1 }
    let s1 := s.modMem fun m => { m with bufs := m.bufs.map fun x => if x.id == id then b1 else x }
    if b.left ≤ 1 then readDone b1 s1 else s1

/-- The effect of a failed access on what it was made for. -/
def failAccess (f : AccFail) (s0 : State) : State :=
  let s := faultRecord f s0
  match f.acc.own with
  | .rd id off => lineDone id off [] (some (if f.cause = 0 then .ic else .xlate f.cause f.acc.addr f.level)) s
  | .walk _ => s
  | .ringWr r _ => ringFault r (capHead r f.acc.seq s)
  | .doneHead r => ringFault r s
  | .notif k => nrFault k s
  | .jobWr t => failWrite t (failRes f.cause) s
  | .cmdWr k => s.modOry fun o =>
      { o with packets := o.packets.map fun p =>
          if p.slot = k && (p.res.map fun x => x.status == 0).getD true then { p with res := some (failRes f.cause) } else p }
  | .vec i => if f.cause = 7 then s.modInst i fun x => { x with lost := true } else s
  | .fltWr i =>
      if (s.inst i).fltWr.isSome then s.modInst i fun x => { x with fltWr := some false }
      else if f.acc.len = 8 then fltDrop i s else s
  | .sitWr _ => s
  | .sitEvtWr i => s.modInst i fun x =>
      { x with sit := if x.sit.wr.isSome then { x.sit with wr := some false } else { x.sit with evtOvf := true } }
  | .vaultWr h => if f.cause = 0 then s else vaultFault 2 h 3 s
  | .dirty i =>
      if f.cause = 7 then
        let s1 := s.modInst i fun x => { x with dlFault := true }
        reportFault 6 (instStatus s1 i) 0xFF i s1
      else s
  | .msg => s

/-- Issues what may be issued and works through what fails, until nothing follows. -/
def settleGo (fuel : Nat) (s : State) : State :=
  match fuel with
  | 0 => s
  | f + 1 =>
    let p := pump s
    match p.2 with
    | [] => if p.1.mem.waiting.length = s.mem.waiting.length then p.1 else settleGo f p.1
    | fails => settleGo f (fails.foldl (fun t x => failAccess x t) p.1)

/-- What follows after a command queued accesses. -/
def settle (s : State) : State := settleGo (64 + 2 * s.mem.waiting.length) s

/-! ### An HMP fails (R47) -/

/-- A request that is issued again on the other HMP. -/
def reissue (r : Req) : Access :=
  let off := r.iova % 64
  { inst := r.inst, op := r.op, addr := r.iova, phys := true, len := r.len,
    data := if r.op == .read then [] else (r.data.drop off).take r.len, own := r.own, dp := r.dp, seq := r.seq,
    pa := some (r.addr + (if r.own == .walk r.inst then 0 else off), r.viaTlb) }

/-- A walk's read is issued again for the descriptor it wants. -/
def reissueReq (r : Req) : Access :=
  match r.own with
  | .walk _ => { inst := r.inst, op := .read, addr := r.iova, phys := true, len := 8, own := r.own,
                 pa := some (r.addr, false) }
  | _ => reissue r

/-- HMP `k` has failed: a block-level fault when the other has too; else every instance moves to the other, and every
unanswered request is issued again there in order, before any new one (R47, R499). -/
def hmpFail (k : Nat) (s : State) : State :=
  if (s.hmp k).failed then s
  else
    let s1 := portFault (2 ^ (8 + k)) (s.modHmp k fun h => { h with failed := true })
    if (s1.hmp (1 - k)).failed then blockFault 2 s1
    else
      let again := (s1.hmp k).out.map reissueReq
      let s2 := s1.modHmp k fun h => { h with out := [] }
      let s3 := s2.modMem fun m => { m with waiting := again ++ m.waiting, moving := [] }
      let s4 := s3.modPort fun p => { p with hmpMap := if k = 0 then BitVec.allOnes 128 else 0, miHmp := k = 0 }
      reportFault 5 (s4.port.fault.toNat) k 0xFF (hmpCount (1 - k) 7 again.length s4)

/-- An Integrity Code error at an HMP's boundary: the counts, ICVIOL, and the failure at three within 1 ms (R47, R70). -/
def hmpIcError (k : Nat) (s : State) : State :=
  let t := now s
  let times := ((s.hmp k).icTimes.filter fun x => t - x < 1000000) ++ [t]
  let s1 := hmpCount k 5 1 (s.modHmp k fun h => { h with icTimes := times })
  let s2 := icViolation (portFault (2 ^ (10 + k)) s1)
  if times.length ≥ 3 then hmpFail k s2 else s2

/-! ### Responses (R43) -/

/-- Whether the Integrity Code of word `q` of a response holds, on a port that is IC-extended (R66, R69). -/
def wordGood (s : State) (k : Nat) (r : Req) (data : List Byte) (ics : List (BitVec 16)) (q : Nat) : Bool :=
  !(s.port.icx.toNat.testBit k) || ics.getD q 0 == integrityCode (bytesAt data (16 * q) 16) (r.addr + 16 * q) r.inst

/-- Whether the four Integrity Codes of each beat hold, on a port that is IC-extended (R66, R69). -/
def beatGood (s : State) (k : Nat) (r : Req) (data : List Byte) (ics : List (BitVec 16)) : Bool :=
  (List.range (data.length / 16)).all (wordGood s k r data ics)

/-- The response of a walk read: the walk goes on, or its access fails (R417, R419). -/
def walkAnswer (i : Nat) (data : List Byte) (cause : Option Nat) (s : State) : State :=
  let p := match cause with
    | none => walkStep i data s
    | some c => walkFail i c s
  p.2.foldl (fun t x => failAccess x t) p.1

/-- The access that a request was made for, as a failure with a cause. -/
def reqFail (r : Req) (cause : Nat) : AccFail :=
  { acc := { inst := r.inst, op := r.op, addr := r.iova, len := r.len, own := r.own, seq := r.seq }, cause := cause }

/-- A request was answered with a failure: ADDR_ERR (7) or an Integrity Code error (0). -/
def reqFailed (r : Req) (cause : Nat) (s : State) : State :=
  match r.own with
  | .walk i => walkAnswer i [] (some (if cause = 7 then 6 else 0)) s
  | _ => failAccess (reqFail r cause) s

/-- The read buffer of a ring header whose line holds words that failed while the header's own word passed (R126). -/
def bodyOnly (s : State) (k : Nat) (r : Req) (data : List Byte) (ics : List (BitVec 16)) : Option Nat :=
  match r.own with
  | .rd id _ =>
    match (s.buf? id).map RdBuf.own with
    | some (.ringHdr _) => if wordGood s k r data ics (r.iova % 64 / 16) then some id else none
    | _ => none
  | _ => none

/-- Marks a read buffer as one with a failed word beyond its header. -/
def markBad (id : Nat) (s : State) : State :=
  s.modMem fun m => { m with bufs := m.bufs.map fun b => if b.id == id then { b with bad := true } else b }

/-- A read was answered with its line. -/
def reqData (r : Req) (data : List Byte) (s : State) : State :=
  match r.own with
  | .walk i => walkAnswer i data none s
  | .rd id off => lineDone id off (bytesAt data (r.iova % 64) r.len) none s
  | _ => s

end Sys2Proof.Machine
end

