-- ==== Sys2Proof/Machine/StreamOps.lean ====
section
/-! DEFINITION. Operations on the stream ports that several commands share: counters, stores and latches (R378 to R383,
R392), the order of release and length words (R385 to R390), gate schedules (R400 to R405), policing (R397), frame
selectors (R165, R387) and the outcome of frames without a descriptor (R166, R390, R395). -/

namespace Sys2Proof.Machine

/-! ### Counters (R392) -/

/-- Key of a counter: SCOPE, ID, INDEX. -/
def cntKey (scope id ix : Nat) : Nat := scope * 2 ^ 15 + id * 2 ^ 7 + ix

/-- Adds to a counter of port `p`. -/
def spCount (p scope id ix n : Nat) (s : State) : State :=
  s.modSp p fun x => { x with cnt := tmod x.cnt 0 (cntKey scope id ix) fun c => (c + n) % 2 ^ 64 }

/-- Adds one to a counter of a class of port `p`. -/
def classCount (p id cls : Nat) (s : State) : State := spCount p 0 id cls 1 s

/-! ### Stores and watermarks (R379 to R383) -/

/-- Cells that so many bytes occupy. -/
def cellsOf (bytes : Nat) : Nat := ceilDiv bytes 256

/-- Cells held by class `c` in the ingress store. -/
def inOcc (x : StreamSt) (c : Nat) : Nat :=
  ((x.ing.filter fun f => f.f.cls.val = c).map fun f => cellsOf f.f.data.length).sum

/-- Cells held or reserved by class `c` in the egress store. -/
def egOcc (x : StreamSt) (c : Nat) : Nat := ((x.eg.filter fun f => f.cls = c).map fun f => f.cells).sum

/-- Watermarks of class `c`. -/
def StreamSt.wmOf (x : StreamSt) (c : Nat) : Wm := tget x.wm {} c

/-- Ceiling of class `c` in cells (R380). -/
def ceiling (x : StreamSt) (c : Nat) : Nat := (x.wmOf c).high + 132

/-- A latch after an occupancy (R381). -/
def latchBit (w : Wm) (occ : Nat) (old : Bool) : Bool := if occ ≥ w.high then true else if occ ≤ w.low then false else old

/-- Both latches of every class after a change of occupancy (R381). -/
def relatch (p : Nat) (s : State) : State :=
  s.modSp p fun x =>
    let f := fun (occ : Nat → Nat) (old : BitVec 8) =>
      BitVec.ofNat 8 (((List.range 8).map fun c => 2 ^ c * b2n (latchBit (x.wmOf c) (occ c) (old.toNat.testBit c))).sum)
    { x with inLatch := f (inOcc x) x.inLatch, egLatch := f (egOcc x) x.egLatch }

/-- Whether the mode admits stream ingress (R483). -/
def streamMode (s : State) : Bool :=
  s.modes.mode == .service || s.modes.mode == .degraded || s.modes.mode == .test

/-- SPn_XOFF as driven (R87, R381, R440, R483). -/
def xoff (s : State) (p : Nat) : BitVec 8 :=
  if !streamMode s || s.tam.frozen || s.port.att != .attached || s.port.clamped then 0xFF
  else (s.sp p).inLatch ||| (s.sp p).egLatch

/-- Whether SPn is in service: attached or detaching, its clock running (R73). -/
def spUp (s : State) (p : Nat) : Bool :=
  s.port.clkOk.toNat.testBit (2 + p) && (s.port.att == .attached || s.port.att == .detaching)

/-! ### Length words and egress frames (R385 to R390) -/

/-- The length word (R388). -/
def lengthWord (len colour : Nat) (byp stub : Bool) (r : Res) (h : Nat) : List Byte :=
  natLe 8 (len + colour * 2 ^ 16 + b2n byp * 2 ^ 18 + b2n stub * 2 ^ 19 + r.status * 2 ^ 24 + r.detail * 2 ^ 32
    + h * 2 ^ 40)

/-- An egress frame with the Integrity Codes of its words, counted from its length word (R66, R67). -/
def EgFrame.coded (f : EgFrame) : EgFrame := { f with ics := wordCodes f.bytes 0 f.inst }

/-- Puts a frame into the egress store of port `p` with the next egress sequence. -/
def putEgress (p : Nat) (f : EgFrame) (s : State) : State :=
  relatch p (s.modSp p fun x => { x with eg := x.eg ++ [{ f.coded with seq := x.nextSeq }], nextSeq := x.nextSeq + 1 })

/-- Cells that the dispatcher reserves for a frame of so many input bytes (R379). -/
def reserveCells (bytes : Nat) : Nat := cellsOf (min 16392 (8 + bytes + 64))

/-! ### Outcomes of frames without a descriptor (R166, R390, R392, R395) -/

/-- Key of a tenant event combination: its entry without the count (R395). -/
def evtKey (p cls : Nat) (r : Res) : Nat := r.status + r.detail * 2 ^ 8 + p * 2 ^ 16 + cls * 2 ^ 17

/-- Counts a combination within the 1 ms window, saturating at 0xFFF. -/
def evtBump (k : Nat) (l : List (Nat × Nat)) : List (Nat × Nat) :=
  match l with
  | [] => [(k, 1)]
  | (j, n) :: r => if j = k then (j, min 0xFFF (n + 1)) :: r else (j, n) :: evtBump k r

/-- The outcome of a stream ingress frame without a descriptor: its counter, the instance's event count and the stub. -/
def frameOutcome (p cls i h colour : Nat) (r : Res) (s : State) : State :=
  let s1 := spCount p 1 (0x40 + r.status) i 1 s
  if r.status = 0 then s1
  else
    let s2 := s1.modInst i fun x => { x with evtCounts := evtBump (evtKey p cls r) x.evtCounts }
    let s3 := if r.status = 0x14 then classCount p 8 cls s2 else s2
    if (s.sp p).stubEn && !suppressed (s.inst i) then
      classCount p 0xB cls (putEgress p
        { seq := 0, cls := cls, inst := i, cells := 1, committed := true, stub := true,
          bytes := lengthWord 0 colour false true r h } s3)
    else s3

/-- Ends a stored ingress frame with a failed outcome. -/
def failFrame (p id : Nat) (r : Res) (s : State) : State :=
  match (s.sp p).ing.find? fun f => f.id == id with
  | none => s
  | some f =>
    let h := match f.st with
      | .named h => h
      | _ => 0
    frameOutcome p f.f.cls.val f.f.inst.val h f.colour r (relatch p (dropIngress p id s))

/-! ### Frame selectors (R165, R387) -/

/-- Passes over up to two VLAN tags: the offset of the EtherType that follows. -/
def etherOff (l : List Byte) (n : Nat) : Nat :=
  let t := beNat (bytesAt l n 2)
  if t = 0x8100 || t = 0x88A8 then
    let t2 := beNat (bytesAt l (n + 4) 2)
    if t2 = 0x8100 || t2 = 0x88A8 then n + 8 else n + 4
  else n

/-- Priority of a class 7 frame (R387). -/
def ctrlPrio (x : StreamSt) (l : List Byte) : Nat :=
  let t := beNat (bytesAt l (etherOff l 12) 2)
  ((x.ctrlEt.find? fun w => fld w.toNat 31 1 = 1 && fld w.toNat 0 16 = t).map fun w => fld w.toNat 16 3).getD 0

/-- What a frame without a hint selects: a lookup of (TYPE, AN, KEY), or an outcome (R163, R165, R166). -/
inductive Selector
  | key (typ an key : Nat)
  | bad (r : Res)
  deriving DecidableEq, Repr

/-- BAD_SECTAG. -/
def badSecTag : Res := res 4 0x14
/-- BAD_ESP. -/
def badEsp : Res := res 4 0x15

/-- Whether the TCI byte breaks R166: V set. -/
def tciBad (tci : Nat) : Bool := bit tci 7

/-- Checks that a complete SecTAG header stands at an offset and obeys R163 and R166 before any check of SL. -/
def secTagBad (l : List Byte) (o : Nat) : Bool :=
  let tci := beNat (bytesAt l (o + 2) 1)
  l.length < o + 8 || beNat (bytesAt l o 2) != 0x88E5 || tciBad tci || fld (beNat (bytesAt l (o + 3) 1)) 6 2 != 0
    || (bit tci 5 && l.length < o + 16)

/-- The SCI that a SecTAG at an offset stands for (R165). -/
def secTagSci (l : List Byte) (o : Nat) : List Byte :=
  let tci := beNat (bytesAt l (o + 2) 1)
  if bit tci 5 then bytesAt l (o + 8) 8
  else if bit tci 6 then bytesAt l 6 6 ++ [0, 1]
  else zeros 8

/-- Selects by the frame's own headers (step 3 of R165). -/
def selector (l : List Byte) : Selector :=
  let o := etherOff l 12
  let t := beNat (bytesAt l o 2)
  if t = 0x88E5 then
    if secTagBad l o then .bad badSecTag
    else .key 0 (fld (beNat (bytesAt l (o + 2) 1)) 0 2) (beNat (secTagSci l o))
  else if t = 0x0800 && beNat (bytesAt l (o + 11) 1) = 50 then
    let e := o + 2 + 4 * fld (beNat (bytesAt l (o + 2) 1)) 0 4
    if l.length < e + 8 then .bad badEsp else .key 1 0 (beNat (bytesAt l e 4))
  else if t = 0x86DD && beNat (bytesAt l (o + 8) 1) = 50 then
    if l.length < o + 50 then .bad badEsp else .key 1 0 (beNat (bytesAt l (o + 42) 4))
  else .bad (res 5 5)

/-! ### The policer (R397) -/

/-- A frame meets its policer: the colour and the policer after it; levels are in 1/8000 of a byte. -/
def meter (q : Policer) (t len inColour : Nat) : Nat × Policer :=
  let el := t - q.last
  let tc := min (q.cbs * 8000) (q.tc + q.cir * el)
  let tp := min (q.pbs * 8000) (q.tp + q.pir * el)
  let b := len * 8000
  let p1 := { q with tc := tc, tp := tp, last := t }
  if (q.aware && inColour = 2) || tp < b then (2, p1)
  else if (q.aware && inColour = 1) || tc < b then (1, { p1 with tp := tp - b })
  else (0, { p1 with tp := tp - b, tc := tc - b })

/-! ### Gate schedules (R400 to R405) -/

/-- The intervals of one cycle: the list in order, cut short at the cycle's end, its last entry held to that end (R401). -/
def cycleSegs (es : List GateEnt) (cycle : Nat) : List (Nat × Nat) :=
  match es with
  | [] => []
  | [e] => if cycle = 0 then [] else [(e.gates, cycle)]
  | e :: r => if cycle = 0 then [] else (e.gates, min e.ns cycle) :: cycleSegs r (cycle - min e.ns cycle)

/-- Drops the first `t` nanoseconds of a run of intervals. -/
def dropSegs (t : Nat) (l : List (Nat × Nat)) : List (Nat × Nat) :=
  match l with
  | [] => []
  | (g, n) :: r => if t ≥ n then dropSegs (t - n) r else (g, n - t) :: r

/-- How long class `c` stays open from the start of a run of intervals. -/
def openRun (c : Nat) (l : List (Nat × Nat)) : Nat :=
  match l with
  | [] => 0
  | (g, n) :: r => if g.testBit c then n + openRun c r else 0

/-- The longest open run of class `c`. -/
def longestRun (c run best : Nat) (l : List (Nat × Nat)) : Nat :=
  match l with
  | [] => max run best
  | (g, n) :: r => if g.testBit c then longestRun c (run + n) best r else longestRun c 0 (max run best) r

/-- Whether the operating list governs: enabled, taken over once, and not set aside while TIME_LOST holds. -/
def gateRuns (s : State) (g : Gate) : Bool := g.en && !g.oper.isEmpty && !(s.time.lost && (g.lostAct = 1 || g.lostAct = 2))

/-- The administrative list as the entries of a takeover. -/
def adminList (g : Gate) : List GateEnt := (List.range g.len).map fun i => tget g.admin {} i

/-- The intervals from now on, for two cycles of the operating list. -/
def operFrom (g : Gate) (t : Nat) : List (Nat × Nat) :=
  let segs := cycleSegs g.oper g.operCycle
  dropSegs ((t - g.operStart) % max 1 g.operCycle) segs ++ segs ++ segs

/-- The gate states that the schedule gives now (R400, R401, R404, R405). -/
def gatesNow (s : State) (g : Gate) : Nat :=
  if !g.en then 0xFF
  else if s.time.lost && g.lostAct = 1 then 0xFF
  else if s.time.lost && g.lostAct = 2 then 0
  else if g.oper.isEmpty then 0xFF
  else ((operFrom g (now s)).head?.map Prod.fst).getD 0xFF

/-- Open time that remains for class `c` from now, none where it is unbounded (R402). -/
def openLeft (s : State) (g : Gate) (c : Nat) : Option Nat :=
  if !g.en then none
  else if s.time.lost && g.lostAct = 1 then none
  else if s.time.lost && g.lostAct = 2 then some 0
  else
    let t := now s
    let segs := operFrom g t
    let left : Option Nat :=
      if g.oper.isEmpty then none
      else if (cycleSegs g.oper g.operCycle).all fun x => x.1.testBit c then none
      else some (openRun c segs)
    match g.pending with
    | none => left
    | some at0 =>
      let reaches := match left with
        | none => true
        | some n => t + n ≥ at0
      if !reaches then left
      else
        let next := cycleSegs (adminList g) g.cycle
        if next.all fun x => x.1.testBit c then none else some ((at0 - t) + openRun c (next ++ next))

/-- Longest open interval of class `c` in the operating list, none where it is unbounded (R403). -/
def longestOpen (g : Gate) (c : Nat) : Option Nat :=
  let segs := cycleSegs g.oper g.operCycle
  if !g.en || g.oper.isEmpty || (segs.all fun x => x.1.testBit c) then none
  else some (longestRun c 0 0 (segs ++ segs))

/-- Whether a frame of `len` bytes fits an open time: its transmission time is (LEN + OVH) × 8 ÷ LINE ns (R402). -/
def fits (g : Gate) (len : Nat) (left : Option Nat) : Bool :=
  match left with
  | none => true
  | some n => (len + g.ovh) * 8 ≤ n * g.line

/-- WINDOW_OVERSIZE (R403). -/
def windowOversize : Res := res 0x14 0

/-- Whether a frame of a class is oversize for the gate of a port (R403). -/
def oversize (s : State) (p cls len : Nat) : Bool :=
  let g := (s.sp p).gate
  !fits g len (longestOpen g cls)

/-! ### The head of an egress class (R385 to R387) -/

/-- Whether frame `a` leaves before frame `b` of its class: a higher priority in class 7, else the earlier sequence. -/
def before (a b : EgFrame) : Bool :=
  if a.cls = 7 && a.prio != b.prio then a.prio > b.prio else a.seq < b.seq

/-- The frame of class `c` that leaves next: committed, with no frame of its class and priority before it. -/
def headOf (x : StreamSt) (c : Nat) : Option EgFrame :=
  x.eg.find? fun f => f.cls = c && f.committed && !f.started
    && x.eg.all fun o => !(o.cls = c && o.seq != f.seq && before o f && (o.committed || o.prio = f.prio) && !o.started)

/-- Bytes of output of an egress frame after its length word. -/
def EgFrame.len (f : EgFrame) : Nat := f.bytes.length - 8

/-! ### Detach (R87) -/

/-- Discards the egress frames still held at the drain limit, counting them by class (R87). -/
def discardEgress (p : Nat) (s : State) : State :=
  let gone := (s.sp p).eg.filter fun f => f.committed && !f.started
  let s1 := gone.foldl (fun t f => classCount p 0xA f.cls t) s
  relatch p ((if gone.isEmpty then s1 else portFault (2 ^ 23) s1).modSp p fun x =>
    { x with eg := x.eg.filter fun f => !(f.committed && !f.started) })

end Sys2Proof.Machine
end

