-- ==== Sys2Proof/Machine/VaultTree.lean ====
section
/-! DEFINITION. The Vault's areas (R258), its records (R259, R260) and its counter tree (R261 to R263, R265). -/

namespace Sys2Proof.Machine

/-! ### Areas (R258, R261) -/

/-- Address of the record of handle `h`. -/
def recAddr (s : State) (h : Nat) : Nat := s.vault.recBase.toNat * 0x10000 + 256 * h

/-- Offset of a level in the tree area. -/
def levelOff (l : Nat) : Nat :=
  match l with
  | 2 => 0x8000000 | 3 => 0x9000000 | 4 => 0x9200000 | 5 => 0x9240000 | 6 => 0x9248000 | 7 => 0x9249000 | _ => 0

/-- Nodes of a level. -/
def levelNodes (l : Nat) : Nat := 2 ^ 24 / 8 ^ l

/-- Address of node `j` of level `l`. -/
def nodeAddr (s : State) (l j : Nat) : Nat := s.vault.treeBase.toNat * 0x10000 + levelOff l + 64 * j

/-- The node of level `l` above handle `h`. -/
def nodeOf (h l : Nat) : Nat := h / 8 ^ l

/-- The position in that node of the counter on the path to handle `h`. -/
def nodePos (h l : Nat) : Nat := h / 8 ^ (l - 1) % 8

/-! ### Nodes (R262, R263) -/

/-- The counters of a node's bytes. -/
def nodeCtrs (b : List Byte) : List Nat := (List.range 8).map fun i => leAt b (7 * i) 7

/-- The bytes of a node's counters. -/
def ctrBytes (cs : List Nat) : List Byte := (cs.map fun c => natLe 7 c).flatten

/-- Eight zero counters. -/
def zeroCtrs : List Nat := List.replicate 8 0

/-- The tree key, while there is one (R475). -/
def treeKey (s : State) : Option (List Byte) := if (s.sysKey 3).st == .valid then some (s.sysKey 3).key else none

/-- MAC of a node: over the level, its index, its counters and its own counter in its parent. -/
def nodeMac (key : List Byte) (l j : Nat) (cs : List Nat) (own : Nat) : List Byte :=
  kmac 168 key (byte l :: natLe 4 j ++ ctrBytes cs ++ natLe 7 own) 8 []

/-- The 64 bytes of a node. -/
def nodeBytes (key : List Byte) (l j : Nat) (cs : List Nat) (own : Nat) : List Byte :=
  ctrBytes cs ++ nodeMac key l j cs own

/-- Key of an on-block copy. -/
def nodeKey (l j : Nat) : Nat := l * 4096 + j

/-- Whether the block holds the counters of a node of levels 4 to 8. -/
def nodeHeld (s : State) (l j : Nat) : Bool := l = 8 || !s.vault.lost || !(tget s.vault.nodes [] (nodeKey l j)).isEmpty

/-- The counters of a node of levels 4 to 8 as the block holds them. -/
def heldCtrs (s : State) (l j : Nat) : List Nat :=
  if l = 8 then s.vigil.treeRoot
  else
    let c := tget s.vault.nodes [] (nodeKey l j)
    if c.isEmpty then zeroCtrs else c

/-- Replaces them. -/
def setHeld (l j : Nat) (cs : List Nat) (s : State) : State :=
  if l = 8 then s.modVigil fun v => { v with treeRoot := cs }
  else s.modVault fun v => { v with nodes := tset v.nodes [] (nodeKey l j) cs }

/-- Whether the level 1 to 3 nodes above handle `h` pass their MACs up to the on-block levels (step 3 of R254). -/
def nodesGood (s : State) (h : Nat) (n1 n2 n3 : List Byte) : Bool :=
  match treeKey s with
  | none => false
  | some k =>
    let ok := fun (l : Nat) (b : List Byte) (own : Nat) => nodeMac k l (nodeOf h l) (nodeCtrs b) own == bytesAt b 56 8
    ok 1 n1 ((nodeCtrs n2).getD (nodePos h 2) 0) && ok 2 n2 ((nodeCtrs n3).getD (nodePos h 3) 0)
      && ok 3 n3 ((heldCtrs s 4 (nodeOf h 4)).getD (nodePos h 4) 0)

/-- Advances the counter at a position. -/
def bumpCtr (cs : List Nat) (i : Nat) : List Nat := cs.set i ((cs.getD i 0 + 1) % 2 ^ 56)

/-! ### Records (R259, R260) -/

/-- The Vault key of a generation: the current one, or the previous one while a reseal runs. -/
def vaultKey (s : State) (gen : Nat) : Option (List Byte) :=
  if gen = s.ldg.vkeyGen then (if (s.sysKey 1).st == .valid then some (s.sysKey 1).key else none)
  else if s.ldg.reseal && gen + 1 = s.ldg.vkeyGen && (s.sysKey 2).st == .valid then some (s.sysKey 2).key
  else none

/-- IV of a record (R260). -/
def recIv (h leaf : Nat) : List Byte := natBe 3 h ++ [0] ++ natBe 8 leaf

/-- FORMAT of a record's header. -/
def recFormat (r : List Byte) : Nat := fld (leAt r 0 8) 45 3
/-- VALID of a record's header. -/
def recValid (r : List Byte) : Bool := bit (leAt r 0 8) 24
/-- OWNER of a record's header. -/
def recOwner (r : List Byte) : Nat := leAt r 4 1
/-- VKEY_GEN of a record's header. -/
def recGen (r : List Byte) : Nat := leAt r 32 4

/-- Opens the record of handle `h` under its leaf counter: the plaintext, or none where a check fails. -/
def recOpen (s : State) (h leaf : Nat) (r : List Byte) : Option (List Byte) :=
  match vaultKey s (recGen r) with
  | none => none
  | some k =>
    let d := gcmDec k (recIv h leaf) (r.take 64) (bytesAt r 64 176)
    if recFormat r = 1 && leAt r 0 3 = h && leAt r 24 7 = leaf && d.2 == bytesAt r 240 16 then some d.1 else none

/-- The record header of the context in cache entry `e`, sealed under a leaf counter and Vault key generation (R259). -/
def recHeader (s : State) (e : Nat) (valid : Bool) (leaf vgen : Nat) : List Byte :=
  let c := s.ctxAt e
  let par := fun (k : KeySlot) => if k.st == .empty then natLe 8 0 else natLe 4 k.parent ++ natLe 4 k.pgen
  natLe 8 (c.handle + b2n valid * 2 ^ 24 + b2n (c.cause != 0) * 2 ^ 26 + c.cause * 2 ^ 28 + c.keySize * 2 ^ 30 + c.owner * 2 ^ 32
      + c.kind * 2 ^ 40 + 2 ^ 45)
    ++ par (s.ctxKey (2 * e)) ++ par (s.ctxKey (2 * e + 1)) ++ natLe 8 leaf ++ natLe 8 vgen
    ++ natLe 8 (c.failTotal + c.failCnt) ++ natLe 8 (now s / 1000000000 % 2 ^ 48) ++ zeros 8

/-- The plaintext of a record: the entry image with FAIL_CNT zero and STATE as sealed, and both keys, zero in a deleted
context's record (R257, R259). -/
def recPlain (s : State) (e : Nat) (valid : Bool) : List Byte :=
  let c := s.ctxAt e
  let key := fun (k : KeySlot) => if valid then bytesAt k.key 0 32 else zeros 32
  ctxImage { c with st := if c.cause = 0 then .active else .stale, failCnt := 0 }
    ++ key (s.ctxKey (2 * e)) ++ key (s.ctxKey (2 * e + 1)) ++ zeros 48

/-- A sealed record. -/
def recSeal (key : List Byte) (h leaf : Nat) (hd pt : List Byte) : List Byte :=
  let c := gcmEnc key (recIv h leaf) hd pt
  hd ++ c.1 ++ c.2

/-! ### Reads and seals -/

/-- Starts the reads of the level 1 to 3 nodes above handle `h`, and of its record before them where asked; answers the
numbers of the buffers in order: record, level 1, level 2, level 3, then the levels 4 to 7 whose copies the block has lost (R264). -/
def vaultRead (h : Nat) (rec : Bool) (s : State) : State × List Nat :=
  let s0 := if rec then startRead mi (recAddr s h) 256 false (.vault h 0) s else s
  let ls := [1, 2, 3] ++ [4, 5, 6, 7].filter fun l => !nodeHeld s l (nodeOf h l)
  let s1 := ls.foldl (fun t l => startRead mi (nodeAddr t l (nodeOf h l)) 64 false (.vault h l) t) s0
  (s1, (List.range (s1.mem.nextId - s.mem.nextId)).map fun i => s.mem.nextId + i)

/-- Discards read buffers. -/
def dropBufs (ids : List Nat) (s : State) : State := ids.foldl (fun t i => dropBuf i t) s

/-- Whether every listed read has ended. -/
def readsEnded (s : State) (ids : List Nat) : Bool := ids.all fun i => ((s.buf? i).map fun b => b.res != .pending).getD true

/-- How a set of Vault reads ended: 0 with data, 2 for a translation fault or ADDR_ERR, 3 for an Integrity Code error, the bits of
VLT_FAULT. -/
def readsFault (s : State) (ids : List Nat) : Nat :=
  let rs := ids.filterMap fun i => (s.buf? i).map fun b => b.res
  if rs.any fun r => r == .ic then 3 else if rs.all fun r => r == .ok then 0 else 2

/-- The bytes of the reads of a list. -/
def readsData (s : State) (ids : List Nat) : List (List Byte) := ids.map fun i => ((s.buf? i).map fun b => b.data).getD []

/-- The node of a level among the reads of a list. -/
def readNode (s : State) (h : Nat) (ids : List Nat) (l : Nat) : List Byte :=
  ((ids.findSome? fun i => (s.buf? i).filter fun b => b.own == .vault h l).map RdBuf.data).getD []

/-- The counters of a node of levels 4 to 8 above handle `h`: as held, or as read. -/
def topCtrs (s : State) (h : Nat) (ids : List Nat) (l : Nat) : List Nat :=
  if nodeHeld s l (nodeOf h l) then heldCtrs s l (nodeOf h l) else nodeCtrs (readNode s h ids l)

/-- Whether the nodes of levels 4 to 7 above handle `h` that the block has lost and read again pass their MACs up to the root (R264). -/
def topGood (s : State) (h : Nat) (ids : List Nat) : Bool :=
  [4, 5, 6, 7].all fun l =>
    nodeHeld s l (nodeOf h l) || (match treeKey s with
      | none => false
      | some k => nodeMac k l (nodeOf h l) (topCtrs s h ids l) ((topCtrs s h ids (l + 1)).getD (nodePos h (l + 1)) 0)
          == bytesAt (readNode s h ids l) 56 8)

/-- Keeps the copies of the nodes of levels 4 to 7 that were read again and have passed (R263). -/
def takeTop (h : Nat) (ids : List Nat) (s : State) : State :=
  [4, 5, 6, 7].foldl (fun t l => if nodeHeld t l (nodeOf h l) then t else setHeld l (nodeOf h l) (topCtrs s h ids l) t) s

/-- Whether two handles share the nodes of level 1. -/
def sameLeaf (h x : Nat) : Bool := x / 512 == h / 512

/-- Starts the reads of a fetch again. -/
def restartFetch (t : State) (f : Fetch) : State :=
  let p := vaultRead f.h true (dropBufs f.rids t)
  p.1.modVault fun v => { v with fetches := v.fetches.map fun g => if g.h = f.h then { g with rids := p.2 } else g }

/-- Starts the reads of an eviction again. -/
def restartEvict (t : State) (f : Evict) : State :=
  let p := vaultRead f.h false (dropBufs f.rids t)
  p.1.modVault fun v => { v with evicts := v.evicts.map fun g => if g.h = f.h then { g with rids := p.2 } else g }

/-- Starts the sweep's reads of a handle again. -/
def restartSweep (t : State) (h : Nat) (rids : List Nat) : State :=
  let p := vaultRead h true (dropBufs rids t)
  p.1.modVault fun v => { v with resealRids := some (h, p.2) }

/-- Begins the reads of a fetch, a seal or a sweep step again where a seal has changed nodes that they read. -/
def restartReads (h : Nat) (s : State) : State :=
  let s1 := s.vault.fetches.foldl (fun t f => if sameLeaf h f.h then restartFetch t f else t) s
  let s2 := s1.vault.evicts.foldl (fun t f => if sameLeaf h f.h && f.h != h then restartEvict t f else t) s1
  match s2.vault.resealRids with
  | none => s2
  | some r => if sameLeaf h r.1 && r.1 != h then restartSweep s2 r.1 r.2 else s2

/-- A write of the Vault engine for handle `h`. -/
def vaultWrite (h addr : Nat) (b : List Byte) (s : State) : State := startWrite mi addr b false (.vaultWr h) false s

/-- Seals handle `h`: every counter on its path advances, then the record and the changed nodes are written from level 1 upwards
(steps 3 and 4 of R256). `mk` gives the record for the new leaf counter. -/
def sealPath (h : Nat) (n1 n2 n3 : List Nat) (mk : Nat → List Byte) (s : State) : State :=
  let key := (treeKey s).getD []
  let c1 := bumpCtr n1 (nodePos h 1)
  let c2 := bumpCtr n2 (nodePos h 2)
  let c3 := bumpCtr n3 (nodePos h 3)
  let up := fun (l : Nat) => bumpCtr (heldCtrs s l (nodeOf h l)) (nodePos h l)
  let s1 := [4, 5, 6, 7, 8].foldl (fun t l => setHeld l (nodeOf h l) (up l) t) s
  let cs := fun (l : Nat) => if l = 1 then c1 else if l = 2 then c2 else if l = 3 then c3 else up l
  let s2 := vaultWrite h (recAddr s h) (mk (c1.getD (nodePos h 1) 0)) s1
  let s3 := [1, 2, 3, 4, 5, 6, 7].foldl (fun t l =>
    vaultWrite h (nodeAddr s l (nodeOf h l))
      (nodeBytes key l (nodeOf h l) (cs l) ((cs (l + 1)).getD (nodePos h (l + 1)) 0)) t) s2
  restartReads h s3

/-! ### Initialisation (R265) -/

/-- Nodes of levels 1 to 7. -/
def initTotal : Nat := ((List.range 7).map fun l => levelNodes (l + 1)).sum

/-- Level and index of the `n`-th node that an initialisation writes, level 1 first. -/
def initNode (fuel l n : Nat) : Nat × Nat :=
  match fuel with
  | 0 => (l, n)
  | f + 1 => if n < levelNodes l then (l, n) else initNode f (l + 1) (n - levelNodes l)

/-- The owner number of the writes of an initialisation. -/
def initOwner : Owner := .vaultWr (2 ^ 24)

/-- Whether writes of an initialisation wait or are outstanding. -/
def initWrites (s : State) : Bool :=
  (s.mem.waiting.any fun a => a.own == initOwner) || (s.mem.hmp0.out.any fun r => r.own == initOwner)
    || (s.mem.hmp1.out.any fun r => r.own == initOwner)

/-- An initialisation goes on with the next nodes, with zero counters and valid MACs, once its last ones are written. -/
def initPump (s : State) : State :=
  if !s.vault.initBusy || s.vault.initNext ≥ initTotal || initWrites s then s
  else
    let n := s.vault.initNext
    let k := min 64 (initTotal - n)
    let key := (treeKey s).getD []
    let s1 := (List.range k).foldl (fun t i =>
      let p := initNode 7 1 (n + i)
      vaultWrite (2 ^ 24) (nodeAddr t p.1 p.2) (nodeBytes key p.1 p.2 zeroCtrs 0) t) s
    s1.modVault fun v => { v with initNext := n + k }

end Sys2Proof.Machine
end

