-- ==== Sys2Proof/Machine/ModeOps.lean ====
section
/-! DEFINITION. Whole-block changes that several commands share: Eclipse (R485, R496 to R498), the return to service, the
detach sequence (R86, R87) and what follows every command that moves work forward. -/

namespace Sys2Proof.Machine

/-! ### Status of the ports (R73) -/

/-- ATT_STATE. -/
def attCode : AttState → Nat
  | .detached => 0 | .attaching => 1 | .attached => 2 | .detaching => 3

/-- GLB_PORT_STATUS (R73). -/
def portStatus (s : State) : Nat :=
  s.port.clkOk.toNat + b2n (hmpUsable s 0) * 2 ^ 8 + b2n (hmpUsable s 1) * 2 ^ 9 + b2n (spUp s 0) * 2 ^ 10
    + b2n (spUp s 1) * 2 ^ 11 + b2n s.time.lost * 2 ^ 12 + b2n (s.port.srpReq || s.port.srpAck) * 2 ^ 16
    + attCode s.port.att * 2 ^ 24

/-- A class 0x03 entry of the event log (R520). -/
def portEvent (code : Nat) (s : State) : State := logEvent 3 code (s.port.fault.toNat + portStatus s * 2 ^ 32) s

/-! ### The lifetime counters (R477) -/

/-- Writes a calendar checkpoint; the Ledger keeps the 16 latest (R468, R481). -/
def calCheckpoint (s : State) : State :=
  s.modLdg fun l =>
    let c := l.calCk ++ [{ sec := s.vigil.sec, ns := ceilDiv (s.vigil.frac * 1000000000) 32768, seq := l.nextSeq - 1 }]
    { l with calCk := c.drop (c.length - 16) }

/-- Writes a checkpoint of the counters and the calendar; not in Test (R477, R481). -/
def checkpoint (s : State) : State := if inTest s then s else calCheckpoint (s.modLdg fun l => { l with saved := l.live })

/-! ### Scans that resume -/

/-- Scans each ENABLED ring of an instance that is ENABLED once (R485). -/
def scanEnabled (s : State) : State :=
  (tkeys s.rings).foldl (fun t n => if (t.inst (ringInst t n)).st == .enabled then rescan n t else t) s

/-- Scans each ENABLED ring whose doorbell was held back. -/
def scanBells (s : State) : State :=
  (tkeys s.rings).foldl (fun t n =>
    if (t.ring n).bell && (t.inst (ringInst t n)).st == .enabled then rescan n t else t) s

/-! ### Eclipse (R485, R498) -/

/-- Marks every admitted operation of a ring to stop at its next segment boundary as DEFERRED. -/
def stopAllJobs (s : State) : State :=
  { s with jobs := s.jobs.map fun j => if j.stop.isNone then { j with stop := some (res 0x24 0) } else j }

/-- Enters Eclipse with a cause: 1 manager request, 2 detach, 3 detached at Boot. -/
def enterEclipse (cause : Nat) (s : State) : State :=
  if s.modes.mode == .eclipse then s.modModes fun m => { m with cause := cause, eclipseDone := false, endAsked := false }
  else enterMode .eclipse (s.modModes fun m =>
    { m with prior := m.mode, cause := cause, eclipseDone := false, endAsked := false })

/-- Discards the cached entries of the data rings that are not admitted (R498). -/
def uncacheData (s : State) : State :=
  (tkeys s.rings).foldl (fun t n =>
    if isControl t n || (t.ring n).st != .enabled then t else uncacheFrom n (fun _ => true) (abandonScan n t)) s

/-- The mode that follows a mode held before: Service and Degraded as GLB_DEGRADE asks (R485). -/
def backTo (s : State) (m : Mode) : Mode :=
  match m with
  | .service => serviceOrDegraded s
  | .degraded => serviceOrDegraded s
  | x => x

/-- Leaves Eclipse for a mode: rings of another format stop, and each ENABLED ring is scanned once (R106, R485). -/
def leaveEclipse (m : Mode) (s : State) : State :=
  scanEnabled (reformatRings (enterMode m (s.modModes fun x =>
    { x with prior := .vigil, cause := 0, eclipseDone := false, endAsked := false })))

/-- Whether no operation is in flight and no stored ingress frame is left (R498). -/
def quiesced (s : State) : Bool := s.jobs.isEmpty && (s.sp 0).ing.isEmpty && (s.sp 1).ing.isEmpty

/-! ### Detach (R86 to R88) -/

/-- Whether a clear of the ZEROISE form waits for its verification (R377). -/
def zeroiseRuns (s : State) : Bool :=
  s.cruc.zLast = 1 && (match s.cruc.zRun with
    | .verify _ => true
    | _ => false)

/-- Clamps the outputs to idle (step 7 of R87). ZEROISE_N stays low until a clear that drives it is complete (R81). -/
def clampOutputs (s : State) : State :=
  (s.modPort fun p => { p with clamped := true, srpReq := false, zDriven := p.zDriven && zeroiseRuns s }).modStr fun t =>
    { t with p0 := { t.p0 with offered := [], offeredIc := [] }, p1 := { t.p1 with offered := [], offeredIc := [] } }

/-- Starts the attach checks: the edges of TP_PPS count anew from here (R61). -/
def attachStart (s : State) : State :=
  (s.modPort fun p => { p with att := .attaching }).modTime fun t => { t with goodEdges := 0 }

/-- The end of the detach: DET_ACK rises, and falls again with an attach to follow where DET_REQ fell early (R86). -/
def detachEnd (s : State) : State :=
  let s1 := clampOutputs (portEvent 4 (checkpoint s))
  let s2 := s1.modPort fun p => { p with att := .detached, attAck := false, detAck := p.detReq, detach := .idle, detachDue := false }
  if !s2.port.detReq && s2.port.attReq then attachStart s2 else s2

/-- Whether every data ring has completed its owned entries. -/
def drainsDone (s : State) : Bool :=
  s.rings.all fun p => isControl s p.1 || (!p.2.drain && p.2.rob.isEmpty)

/-- One step of the detach sequence, where its condition holds (R87). Where DET_DRAIN passes before the work of steps 3 and 4 has ended, the
discard of step 5 follows once it has (DESIGN CHOICE, log entry 179). -/
def detachStep (s : State) : State :=
  match s.port.detach with
  | .idle => s
  | .drainWork =>
    if quiesced s && s.ory.packets.isEmpty then
      (tkeys s.rings).foldl (fun t n => if isControl t n || (t.ring n).st != .enabled then t else drainRing n 0x24 t)
        (s.modPort fun p => { p with detach := .drainEgress })
    else s
  | .drainEgress =>
    if drainsDone s then
      let s1 := if s.port.detachDue then discardEgress 1 (discardEgress 0 s) else s
      if (s1.sp 0).eg.isEmpty && (s1.sp 1).eg.isEmpty then s1.modPort fun p => { p with detach := .answers } else s1
    else s
  | .answers =>
    if s.mem.hmp0.out.isEmpty && s.mem.hmp1.out.isEmpty && s.mem.waiting.isEmpty then detachEnd s else s

/-- What follows a command that moves work forward: an initialisation of the Vault goes on, accesses are issued, and a detach goes
on where it can. -/
def conclude (s : State) : State :=
  let s1 := settle (initPump s)
  if s1.port.detach == .idle then s1 else settle (detachStep (detachStep (settle (detachStep s1))))

/-- Starts the detach sequence (steps 2 and 3 of R87). -/
def detachStart (s : State) : State :=
  let s1 := stopAllJobs (enterEclipse 2 s)
  s1.modPort fun p => { p with att := .detaching, detach := .drainWork, detachDue := false }

end Sys2Proof.Machine
end

