-- ==== Sys2Proof/Machine/HostPort.lean ====
section
/-! DEFINITION. The commands of the host memory ports: responses, failure, moves of instances and the return to service. -/

namespace Sys2Proof.Machine

/-- The outcome of a command that the block takes. -/
abbrev Out := Host.Outcome State Fault Refusal

/-- The instance in whose name a RAP word is protected: that of its page or doorbell page, else MI. -/
def rapInst (a : Nat) : Nat :=
  if 0x100000 ≤ a && a < 0x900000 then (a - 0x100000) / 0x10000
  else if 0xA00000 ≤ a && a < 0xA80000 then (a - 0xA00000) / 0x1000
  else mi

/-- The Integrity Code of a 32-bit word at a register address (R66). -/
def rapCode (addr v : Nat) : BitVec 16 := integrityCode (natLe 4 v) (addr / 4 * 4) (rapInst addr)

/-- Whether the Integrity Code of a RAP write fails its check: only an IC-extended RAP carries one (R66, R69). -/
def rapIcBad (s : State) (addr : Nat) (v : RapWord) : Bool := s.port.icx.toNat.testBit 4 && v.ic != rapCode addr v.toNat

/-- A failed RAP write: discarded with RAP_ERR, and counted towards ICVIOL (R70, R74). -/
def rapIcFail (s : State) : State := icViolation (portFault (2 ^ 14) (s.modPort fun p => { p with rapErr := true }))

/-- An access through the RAP: none in Vigil; RAP_ERR and nothing else while the block is halted (R444). -/
def rapOpen (f : State → State) (s : State) : State :=
  if !powered s then s
  else if s.modes.halted then s.modPort fun p => { p with rapErr := true, rapData := 0 }
  else f (s.modPort fun p => { p with rapErr := false })

/-- A write through the RAP at an address, discarded where its Integrity Code fails (R70). -/
def rapDo (addr : Nat) (v : RapWord) (f : State → State) (s : State) : State :=
  rapOpen (fun t => if rapIcBad t addr v then conclude (rapIcFail t) else f t) s

/-- What the RAP returns for a read at an address: RAP_ERR, RAP_RDATA, and on an IC-extended RAP the code of the word (R69). -/
def rapAnswer (addr : Nat) (err : Bool) (v : Nat) (s : State) : State :=
  s.modPort fun p => { p with rapErr := err, rapData := word v, rapRic := if p.icx.toNat.testBit 4 then rapCode addr v else 0 }

/-- Offset 0 of the page of an instance (R507). -/
def pageBase (i : Nat) : Nat := 0x100000 + 0x10000 * i

/-- The answer to a request outstanding on HMP `k` (R43). -/
def hmpAnswer (k : Nat) (r : Req) (status : Nat) (data : List Byte) (ics : List (BitVec 16)) (s : State) : State :=
  let s1 := s.modHmp k fun h => { h with out := h.out.filter fun x => x.tag != r.tag }
  match status with
  | 0 =>
    if r.op == .read then
      if beatGood s k r data ics then reqData r data s1
      else match bodyOnly s k r data ics with
        | some id => reqData r data (markBad id (hmpIcError k s1))
        | none => reqFailed r 0 (hmpIcError k s1)
    else s1
  | 1 => reqFailed r 7 (hmpCount k 3 1 s1)
  | _ => reqFailed r 0 (hmpCount k 4 1 s1)

/-- Whether a response can answer a request: a read's OKAY carries its beats (R43). -/
def answers (r : Req) (status : Nat) (data : List Byte) : Bool :=
  status != 0 || r.op != .read || data.length = 64 * (r.beats + 1)

/-- HMP_RESPONSE (R43): the request with the tag is answered; a response to no request changes nothing. -/
def execHmpResponse (hmp : PortId) (tag : Fin 2048) (status : Fin 4) (data : List Byte) (ics : List (BitVec 16))
    (s : State) : Out :=
  .next (match (s.hmp hmp.val).out.find? fun r => r.tag == tag.val with
    | none => s
    | some r => if answers r status.val data then conclude (hmpAnswer hmp.val r status.val data ics s) else s)

/-- HMP_TIMEOUT (R47): the port with a request outstanding too long has failed. -/
def execHmpTimeout (hmp : PortId) (s : State) : Out :=
  .next (if (s.hmp hmp.val).out.isEmpty || (s.hmp hmp.val).failed then s
    else conclude (hmpFail hmp.val (hmpCount hmp.val 6 1 s)))

/-- Maps an instance to an HMP, or keeps it with CFG_ERR where that HMP is out of service (R46, R47). -/
def mapInst (s : State) (i : Nat) (b : Bool) : State :=
  if (hmpOf s i = 1) = b then s
  else if (s.hmp (b2n b)).failed then s.modModes fun m => { m with cfgErr := true }
  else
    let s1 := s.modPort fun p =>
      if i = mi then { p with miHmp := b }
      else { p with hmpMap := if b then p.hmpMap ||| BitVec.ofNat 128 (2 ^ i) else p.hmpMap &&& ~~~(BitVec.ofNat 128 (2 ^ i)) }
    s1.modMem fun m => { m with moving := if m.moving.contains i then m.moving else i :: m.moving }

/-- A write of GLB_HMP_MAP_0 to GLB_HMP_MAP_3, or of MI_HMP in GLB_PORT_CFG as number 4. -/
def hmpMapSet (reg v : Nat) (s : State) : State :=
  if reg = 4 then mapInst s mi (v.testBit 8)
  else (List.range 32).foldl (fun t k => mapInst t (32 * reg + k) (v.testBit k)) s

/-- HMP_MAP_WRITE (R46, R75): registers 0 to 3 are GLB_HMP_MAP_0 to GLB_HMP_MAP_3, and 4 is the MI_HMP bit of
GLB_PORT_CFG. -/
def execHmpMapWrite (reg : Fin 5) (v : RapWord) (s : State) : Out :=
  .next (rapDo (if reg.val = 4 then 0x100 else 0x110 + 4 * reg.val) v (hmpMapSet reg.val v.toNat) s)

/-- Whether a request belongs to an instance, a walk for one of its accesses included. -/
def ofInst (i : Nat) (r : Req) : Bool := (r.inst == i && (match r.own with | .walk _ => false | _ => true)) || r.own == .walk i

/-- HMP_MOVE_COMPLETE (R46): no request of the instance is outstanding on its old HMP, so its requests start on the new
one. -/
def execHmpMoveComplete (inst : InstId) (s : State) : Out :=
  .next (if s.mem.moving.contains inst.val && !((s.hmp (1 - hmpOf s inst.val)).out.any (ofInst inst.val)) then
      conclude (s.modMem fun m => { m with moving := m.moving.filter fun i => i != inst.val })
    else s)

/-- HMP_RETURN (R502): a failed HMP whose clock runs and whose loopback passes returns to service; else CFG_ERR. -/
def execHmpReturn (hmp : PortId) (r : ReturnWrite) (s : State) : Out :=
  .next (rapDo 0x14 r.word (fun s =>
    if !(s.hmp hmp.val).failed then s
    else if r.loopOk && s.port.clkOk.toNat.testBit hmp.val then
      conclude (settleMode (portEvent 8 (s.modHmp hmp.val fun h => { h with failed := false, icTimes := [] })))
    else s.modModes fun m => { m with cfgErr := true }) s)

end Sys2Proof.Machine
end

