-- ==== Sys2Proof/Machine/Rings.lean ====
section
/-! DEFINITION. The commands of submission and notification rings: doorbells and scans (R98, R107 to R110), the ring window
(R94 to R96), enable and stop (R127, R524), invalidation (R114, R115), retirement (R121, R122), notification records (R131),
interrupts (R134, R422) and fault records (R420). -/

namespace Sys2Proof.Machine

/-! ### Doorbells and scans -/

/-- The ring of an instance whose doorbell is word `k` of its page (R97). -/
def doorbellRing (s : State) (i k : Nat) : Option Nat :=
  let v := s.inst i
  let r := v.sqFirst + (k + 1024 - v.sqFirst % 1024) % 1024
  if v.st != .unused && r < v.sqFirst + v.sqCount then some r else none

/-- Whether the scans of ring `n` are held back until later: Eclipse of the block or its instance, a freeze, or a detach
(R88, R430, R440, R498). -/
def scansHeld (s : State) (n : Nat) : Bool :=
  let i := s.inst (ringInst s n)
  s.port.att != .attached || i.st == .eclipse
    || (!isControl s n && (s.modes.mode == .eclipse || s.tam.frozen))

/-- Whether the instance of ring `n` runs from its reset point to its re-enable, when doorbells are ignored (R428). -/
def scansOff (s : State) (n : Nat) : Bool :=
  let i := s.inst (ringInst s n)
  suppressed i

/-- A doorbell of ring `n` (R98, R107, R108, R114). -/
def ringBell (n : Nat) (s : State) : State :=
  let r := s.ring n
  if r.st != .enabled || scansOff s n then s
  else if scansHeld s n then s.modRing n fun x => { x with bell := true }
  else if !r.invDone then s.modRing n fun x => { x with invBell := true }
  else startScan n (s.modRing n fun x => { x with noScan := false })

/-- DOORBELL (R107). -/
def execDoorbell (page : InstId) (bell : BellWrite) (s : State) : Out :=
  .next (rapDo (0xA00000 + 0x1000 * page.val + 4 * bell.k.val) bell.word (fun s => match doorbellRing s page.val bell.k.val with
    | none => s
    | some n => conclude (ringBell n s)) s)

/-- AUTO_SWEEP (R110): a ring with AUTO_SWEEP and no scan in progress is scanned. -/
def execAutoSweep (ring : RingId) (s : State) : Out :=
  let r := s.ring ring.val
  .next (if r.auto && r.st == .enabled && r.scanSt == .idle && r.invDone && !r.noScan && !scansOff s ring.val
      && !scansHeld s ring.val then conclude (startScan ring.val s) else s)

/-- SCAN_CONTINUE (R107): a waiting scan goes on once the entry cache holds fewer than 8 entries of the ring. -/
def execScanContinue (ring : RingId) (s : State) : Out :=
  let r := s.ring ring.val
  .next (if r.scanSt == .waiting && r.cache.length < 8 && r.invDone then conclude (readHeader ring.val s) else s)

/-! ### The ring window -/

/-- A write of RING_SEL in the page of an instance. -/
def ringSelWrite (page v : Nat) (s : State) : State :=
  let i := s.inst page
  let num := fld v 0 12
  let nr := bit v 16
  let inside := if nr then num < 256 && i.nqFirst ≤ num && num < i.nqFirst + i.nqCount
    else i.sqFirst ≤ num && num < i.sqFirst + i.sqCount
  s.modInst page fun x => { x with ringSel := num, selNr := nr, rangeErr := !(inside && i.st != .unused) }

/-- RING_SEL_WRITE (R94). -/
def execRingSelWrite (page : InstId) (v : RapWord) (s : State) : Out :=
  .next (rapDo (pageBase page.val + 0x20) v (ringSelWrite page.val v.toNat) s)

/-- The submission ring that a page's window acts on. -/
def winRing (s : State) (i : Nat) : Option Nat :=
  let v := s.inst i
  if v.rangeErr || v.selNr || ringOwner s v.ringSel != some i then none else some v.ringSel

/-- The notification ring that a page's window acts on. -/
def winNr (s : State) (i : Nat) : Option Nat :=
  let v := s.inst i
  if v.rangeErr || !v.selNr || nrOwner s v.ringSel != some i then none else some v.ringSel

/-- The configuration part of a RING_CTL write on a submission ring (R95). -/
def ringConfig (n : Nat) (v : Nat) (s : State) : State :=
  s.modRing n fun r =>
    let c := { r with auto := bit v 1, nrn := fld v 8 8, nrEn := bit v 16, burst := fld v 17 6 }
    if r.st == .disabled then c else if c = r then r else { r with cfgErr := true }

/-- A write of RING_CTL on a submission ring (R95, R127, R428). -/
def ringCtl (n : Nat) (v : Nat) (s : State) : State :=
  let s1 := s.modRing n fun r =>
    { r with fault := r.fault && !bit v 5, cfgErr := r.cfgErr && !bit v 6 }
  let s2 := ringConfig n v s1
  let on := (s2.ring n).st == .enabled || (s2.ring n).st == .pendingEnable
  if bit v 0 = on then s2
  else if enableHeld s2 n then s2.modRing n fun r => { r with cfgErr := true }
  else if bit v 0 then enableRing n s2
  else stopRing n s2

/-- RING_ENABLE (R127): RING_CTL of the selected submission ring written with ENABLE = 1. -/
def execRingEnable (page : InstId) (v : RapWord) (s : State) : Out :=
  .next (rapDo (pageBase page.val + 0x2C) v (fun s => match winRing s page.val with
    | none => s
    | some n => if bit v.toNat 0 then conclude (ringCtl n v.toNat s) else s) s)

/-- RING_STOP (R127): RING_CTL of the selected submission ring written with ENABLE = 0. -/
def execRingStop (page : InstId) (v : RapWord) (s : State) : Out :=
  .next (rapDo (pageBase page.val + 0x2C) v (fun s => match winRing s page.val with
    | none => s
    | some n => if bit v.toNat 0 then s else conclude (ringCtl n v.toNat s)) s)

/-- RING_STOP_COMPLETE (R93, R127). -/
def execRingStopComplete (ring : RingId) (s : State) : Out :=
  let st := (s.ring ring.val).st
  .next (if (st == .stopping || st == .pendingEnable) && ringQuiet s ring.val then conclude (ringStopped ring.val s) else s)

/-! ### Notification rings -/

/-- Decides the records that bound rings reached DISABLED with while none was written, in the order in which they did (R132; log
entry 176). -/
def resumeNotes (k : Nat) (s : State) : State :=
  if (s.nr k).enabled && !(s.nr k).ovf then nrKick k (s.modNr k fun x => { x with recs := x.recs ++ x.late, late := [] }) else s

/-- Enables a notification ring (R524). -/
def nrEnable (k : Nat) (s : State) : State :=
  let r := s.nr k
  if r.enabled then s
  else if r.size > 10 then s.modNr k fun x => { x with cfgErr := true }
  else resumeNotes k (s.modNr k fun x => { x with enabled := true, scan := 0, half := false, ovf := false })

/-- Whether an ENABLED or STOPPING submission ring is bound to notification ring `k` (R135). -/
def nrBound (s : State) (k : Nat) : Bool :=
  s.rings.any fun p => (p.2.st == .enabled || p.2.st == .stopping) && p.2.nrEn && p.2.nrn = k

/-- Disables a notification ring, or refuses it (R135, R524). -/
def nrDisable (k : Nat) (s : State) : State :=
  let r := s.nr k
  if !r.enabled then s
  else if nrBound s k then s.modNr k fun x => { x with cfgErr := true }
  else
    let s1 := match r.rdId with
      | some id => dropBuf id s
      | none => s
    (unwriteRecs k s1).modNr k fun x => { x with enabled := false, rdId := none, retry := false }

/-- A write of RING_CTL on a notification ring (R95, R96, R133, R524). -/
def nrCtl (k : Nat) (v : Nat) (s : State) : State :=
  let clears := (s.nr k).ovf && bit v 7
  let s1 := s.modNr k fun r =>
    { r with fault := r.fault && !bit v 5, cfgErr := r.cfgErr && !bit v 6, ovf := r.ovf && !bit v 7, vec := fld v 8 3,
             irqEn := bit v 11, holdoff := fld v 12 8 }
  let s2 := if bit v 0 then nrEnable k s1 else nrDisable k s1
  if clears then resumeNotes k s2 else s2

/-- NR_ENABLE (R524). -/
def execNrEnable (page : InstId) (v : RapWord) (s : State) : Out :=
  .next (rapDo (pageBase page.val + 0x2C) v (fun s => match winNr s page.val with
    | none => s
    | some k => if bit v.toNat 0 then conclude (nrCtl k v.toNat s) else s) s)

/-- NR_DISABLE (R135, R524). -/
def execNrDisable (page : InstId) (v : RapWord) (s : State) : Out :=
  .next (rapDo (pageBase page.val + 0x2C) v (fun s => match winNr s page.val with
    | none => s
    | some k => if bit v.toNat 0 then s else conclude (nrCtl k v.toNat s)) s)

/-- NR_OVF_CLEAR (R132, R133). -/
def execNrOvfClear (page : InstId) (v : RapWord) (s : State) : Out :=
  .next (rapDo (pageBase page.val + 0x2C) v (fun s => match winNr s page.val with
    | none => s
    | some k => if bit v.toNat 7 then conclude (nrCtl k v.toNat s) else s) s)

/-- NOTIFICATION_RECORD (R93, R131): the read of notification ring memory is complete. -/
def execNotificationRecord (nr : NrId) (s : State) : Out :=
  let k := nr.val
  .next (match (s.nr k).rdId.bind s.buf? with
    | none => s
    | some b =>
      let s1 := dropBuf b.id (s.modNr k fun x => { x with rdId := none, retry := false })
      match b.res with
      | .pending => s
      | .ok => conclude (nrDeliver k b.data s1)
      | .xlate _ _ _ => conclude (nrFault k s1)
      | .ic =>
        if (s.nr k).retry then conclude (nrFault k s1)
        else conclude (nrRead k (s1.modNr k fun x => { x with retry := true })))

/-- INTERRUPT_HOLDOFF_EXPIRY (R134): one interrupt covers the records written during the holdoff, with the vector of the last of
them (R96). -/
def execInterruptHoldoffExpiry (nr : NrId) (s : State) : Out :=
  let k := nr.val
  .next (match (s.nr k).owed with
    | some (v, dp) => conclude (nrSend k v dp s)
    | none => s.modNr k fun x => { x with sent := none })

/-- A write of INST_VEC_CTL: each vector unmasked with PEND set sends one message. -/
def vecCtl (i v : Nat) (s : State) : State :=
  let old := s.inst i
  let freed := (List.range 8).filter fun n => old.mask.toNat.testBit n && old.pend.toNat.testBit n && !bit v n
  let s1 := s.modInst i fun x =>
    { x with mask := BitVec.ofNat 8 v, lost := x.lost && !bit v 16,
             pend := x.pend &&& ~~~(BitVec.ofNat 8 ((freed.map fun n => 2 ^ n).sum)),
             pendCp := x.pendCp &&& ~~~(BitVec.ofNat 8 ((freed.map fun n => 2 ^ n).sum)) }
  freed.foldl (fun t n => sendVector i n (!old.pendCp.toNat.testBit n) t) s1

/-- VECTOR_UNMASK (R422). -/
def execVectorUnmask (page : InstId) (v : RapWord) (s : State) : Out :=
  .next (rapDo (pageBase page.val + 4) v (fun s => conclude (vecCtl page.val v.toNat s)) s)

/-! ### Invalidation -/

/-- A write of RING_INV on submission ring `n`. -/
def ringInvWrite (n v : Nat) (s : State) : State :=
  let r := s.ring n
  if r.invDone && r.st == .enabled then
    s.modRing n fun x => { x with invDone := false, noScan := true, invBell := false, bell := false, further := false,
                                  invFirst := fld v 0 16, invCount := fld v 16 16 + 1 }
  else s.modRing n fun x => { x with cfgErr := true }

/-- RING_INV (R114, R115). -/
def execRingInv (page : InstId) (v : RapWord) (s : State) : Out :=
  .next (rapDo (pageBase page.val + 0x30) v (fun s => match winRing s page.val with
    | none => s
    | some n => ringInvWrite n v.toNat s) s)

/-- Whether a slot lies in the range of an invalidation, which wraps at the end of the ring (R96). -/
def inInvRange (r : Ring) (slot : Nat) : Bool := (slot + r.slots - r.invFirst % r.slots) % r.slots < r.invCount

/-- RING_INV_COMPLETE (R114): no read of the ring is in flight. -/
def execRingInvComplete (ring : RingId) (s : State) : Out :=
  let n := ring.val
  let r := s.ring n
  .next (if r.invDone || r.scanSt == .reading then s
    else
      let s1 := (uncacheFrom n (inInvRange r) s).modRing n fun x => { x with invDone := true, scanSt := .idle }
      if r.invBell && r.st == .enabled then
        conclude (startScan n (s1.modRing n fun x => { x with invBell := false, noScan := false }))
      else s1)

/-! ### Retirement -/

/-- Whether ring `n` may retire now: not between a reset point and the re-enable (R428), not while the data plane is
stopped (R24) or the block halted (R444). -/
def mayRetire (s : State) (n : Nat) : Bool :=
  !scansOff s n && !s.modes.halted && !(s.modes.dpStopped && ringDp s n) && powered s

/-- ENTRY_RETIRE (R121, R122): a burst of finished entries retires in ring order. -/
def execEntryRetire (ring : RingId) (s : State) : Out :=
  let n := ring.val
  .next (if mayRetire s n && ((s.ring n).rob.head?.map fun it => it.fin.isSome).getD false then
      conclude (retireBurst n s) else s)

/-! ### Fault records -/

/-- Whether 10 µs have passed since an instance's last interrupt for fault records. -/
def fltDue (s : State) (v : Inst) : Bool :=
  match v.fltTime with
  | none => true
  | some x => now s - x ≥ 10000

/-- The interrupt after a fault record, at most once every 10 µs: one that falls into them is owed (R420; log entry 190). -/
def fltInterrupt (i : Nat) (s : State) : State :=
  let v := s.inst i
  if !v.fltIrq then s
  else if fltDue s v then sendVector i v.fltVec true (s.modInst i fun x => { x with fltTime := some (now s), fltOwed := none })
  else s.modInst i fun x => { x with fltOwed := some v.fltVec }

/-- Sends the interrupts for fault records that are owed and whose 10 µs have passed. -/
def fltServe (s : State) : State :=
  match s.insts.filter fun p => p.2.fltOwed.isSome && fltDue s p.2 with
  | [] => s
  | l => conclude (l.foldl (fun t p =>
      sendVector p.1 (p.2.fltOwed.getD 0) true (t.modInst p.1 fun x => { x with fltTime := some (now s), fltOwed := none })) s)

/-- The 32 bytes of a fault record (R420). -/
def fltBytes (r : FltRec) : List Byte :=
  natLe 32 (r.iova % 2 ^ 48 + r.cause * 2 ^ 64 + r.access * 2 ^ 72 + r.level * 2 ^ 74 + r.source * 2 ^ 77 + r.ring * 2 ^ 80
    + r.slot * 2 ^ 96 + r.sec * 2 ^ 128 + r.ns * 2 ^ 160 + 2 ^ 255)

/-- Both writes of a record are queued: bytes 0 to 23, then 24 to 31 (R420). -/
def fltWrite (i : Nat) (r : FltRec) (s : State) : State :=
  let a := fltAddr (s.inst i)
  let d := fltBytes r
  startWrite i (a + 24) (d.drop 24) false (.fltWr i) true
    (startWrite i a (d.take 24) false (.fltWr i) true (s.modInst i fun x => { x with fltWr := some true }))

/-- The writes of the first record have both been issued: NEXT advances and the interrupt follows; where one of them faulted, the record
is dropped (R420). -/
def fltWritten (i : Nat) (s : State) : State :=
  let v := s.inst i
  if s.mem.waiting.any fun a => a.own == .fltWr i then s
  else
    let s1 := s.modInst i fun x => { x with fltRecs := x.fltRecs.drop 1, fltWr := none }
    match v.fltWr with
    | some true => fltKick i (fltInterrupt i (s1.modInst i fun x => { x with fltNext := (x.fltNext + 1) % 256 }))
    | some false => fltKick i (fltDrop i s1)
    | none => s

/-- FAULT_RECORD_WRITE (R420): the read of the fault area is complete, or the writes of a record have been issued since. -/
def execFaultRecordWrite (inst : InstId) (s : State) : Out :=
  let i := inst.val
  let v := s.inst i
  .next (if v.fltWr.isSome then conclude (fltWritten i s)
    else match v.fltRd.bind s.buf?, v.fltRecs with
    | some b, r :: _ =>
      if b.res == .pending then s
      else
        let s1 := dropBuf b.id (s.modInst i fun x => { x with fltRd := none })
        if b.res == .ok && !bit (leAt b.data 31 1) 7 then conclude (fltWritten i (conclude (fltWrite i r s1)))
        else conclude (fltKick i (fltDrop i (s1.modInst i fun x => { x with fltRecs := x.fltRecs.drop 1 })))
    | _, _ => s)

end Sys2Proof.Machine
end

