-- ==== Sys2Proof/Machine/SaIndex.lean ====
section
/-! DEFINITION. The SA Index Table: its lookups (R286 to R290), events (R291 to R293), aging (R294) and control (R282,
R283). -/

namespace Sys2Proof.Machine

/-- Changes the SA Index Table of instance `i`. -/
def State.modTable (s : State) (i : Nat) (f : Sit → Sit) : State := s.modInst i fun x => { x with sit := f x.sit }

/-! ### Hashing and entries (R284 to R286) -/

/-- The bucket index of a key. -/
def sitBucket (t : Sit) (i typ an key : Nat) : Nat :=
  crc32c ([byte i, byte (4 * typ + an)] ++ natLe 2 t.seed ++ zeros 4 ++ natLe 8 key) % 2 ^ t.size

/-- Whether 32 bits hold an even number of ones. -/
def evenOnes (w : Nat) : Bool := ((List.range 32).map fun i => b2n (w.testBit i)).sum % 2 = 0

/-- Word `k` of a 16-byte entry. -/
def entWord (e : List Byte) (k : Nat) : Nat := leAt e (4 * k) 4

/-- Word 0 with LOCK counted as zero (R284). -/
def word0 (e : List Byte) : Nat := entWord e 0 - entWord e 0 / 2 ^ 28 % 2 * 2 ^ 28

/-- VALID. -/
def entValid (e : List Byte) : Bool := bit (entWord e 0) 24

/-- Whether entry `k` of a bucket is bad (R285). -/
def entBad (k : Nat) (e : List Byte) : Bool :=
  !evenOnes (word0 e) || (entValid e &&
    (!evenOnes (entWord e 1) || !evenOnes (entWord e 2) || !evenOnes (entWord e 3) || fld (entWord e 1) 16 15 != 0
      || (k != 0 && bit (entWord e 0) 28)
      || (bit (entWord e 0) 25 && (fld (entWord e 0) 26 2 != 0 || fld (entWord e 0) 29 2 != 0
        || fld (entWord e 3) 1 30 != 0))))

/-- KEY of an entry. -/
def entKey (e : List Byte) : Nat :=
  fld (entWord e 2) 0 31 + fld (entWord e 3) 0 31 * 2 ^ 31 + fld (entWord e 0) 29 2 * 2 ^ 62

/-- Whether an entry matches a lookup's TYPE, AN and KEY. -/
def entMatches (l : Lookup) (e : List Byte) : Bool :=
  entValid e && fld (entWord e 0) 25 1 = l.typ && fld (entWord e 0) 26 2 = l.an && entKey e = l.key

/-- The four entries of a bucket, numbered. -/
def bucketEntries (b : List Byte) : List (Nat × List Byte) := (List.range 4).map fun k => (k, bytesAt b (16 * k) 16)

/-! ### Events (R291 to R293) -/

/-- Starts the read that precedes the next event record. -/
def sitKick (i : Nat) (s : State) : State :=
  let t := (s.inst i).sit
  if t.rdId.isNone && t.wr.isNone && !t.events.isEmpty then
    startReadParts i 0 [(t.evtBase * 0x10000 + 16 * t.evtNext, 0, 16)] false (.sitEvt i)
      (s.modTable i fun x => { x with rdId := some s.mem.nextId })
  else s

/-- The 16 bytes of an event record (R291). -/
def evtRecord (typ port ktyp an time key bucket badmask : Nat) : List Byte :=
  natLe 16 (typ + port * 2 ^ 8 + ktyp * 2 ^ 9 + an * 2 ^ 10 + time % 2 ^ 16 * 2 ^ 16 + key * 2 ^ 32 + bucket * 2 ^ 96
    + badmask * 2 ^ 118 + 2 ^ 127)

/-- Raises an event unless its key or bucket is remembered; a full memory drops it with EVT_OVF (R292). -/
def sitEvent (i : Nat) (m : SitMem) (rec1 : List Byte) (vec : Option Nat) (s : State) : State :=
  if s.sit.mem.any fun x => { x with time := m.time } == m then s
  else if s.sit.mem.length ≥ 8192 then s.modTable i fun x => { x with evtOvf := true }
  else sitKick i ((s.modSit fun t => { t with mem := t.mem ++ [m] }).modTable i fun x =>
    { x with events := x.events ++ [{ bytes := rec1, vec := vec }] })

/-- The vector of the interrupt that follows a lookup's events, where they interrupt (R282, R293). -/
def Lookup.vector (l : Lookup) : Option Nat := if l.irqEn then some l.vec else none

/-- The MISS event of a lookup (R292). -/
def missEvent (i : Nat) (l : Lookup) (s : State) : State :=
  if l.missEn && (s.inst i).sit.evtEn then
    sitEvent i { inst := i, bucket := false, typ := l.typ, an := l.an, key := l.key, time := now s }
      (evtRecord 1 l.port l.typ l.an (now s / 1000000000) l.key l.bucket 0) l.vector s
  else s

/-- The PARITY event of a bucket with bad entries (R292). -/
def parityEvent (i : Nat) (l : Lookup) (mask : Nat) (s : State) : State :=
  if mask != 0 && (s.inst i).sit.evtEn then
    sitEvent i { inst := i, bucket := true, typ := 0, an := 0, key := l.bucket, time := now s }
      (evtRecord 2 l.port l.typ l.an (now s / 1000000000) l.key l.bucket mask) l.vector s
  else s

/-- The interrupt after an event record, at most once every 10 µs (R293). -/
def sitInterrupt (i : Nat) (vec : Option Nat) (s : State) : State :=
  match vec with
  | none => s
  | some v =>
    if (s.inst i).sit.holding then s.modTable i fun x => { x with owed := some v }
    else sendVector i v true (s.modTable i fun x => { x with holding := true, owed := none })

/-- The two writes of the first event's record are queued: bytes 0 to 7, then 8 to 15 (R293). -/
def sitWrite (i : Nat) (e : SitEvt) (s : State) : State :=
  let t := (s.inst i).sit
  let a := t.evtBase * 0x10000 + 16 * t.evtNext
  startWrite i (a + 8) (e.bytes.drop 8) false (.sitEvtWr i) true
    (startWrite i a (e.bytes.take 8) false (.sitEvtWr i) true (s.modTable i fun x => { x with wr := some true }))

/-- The first event is dropped (R293). -/
def sitDrop (i : Nat) (s : State) : State :=
  sitKick i (s.modTable i fun x => { x with events := x.events.drop 1, wr := none, evtOvf := true })

/-- The writes of the first event's record have both been issued: EVT_NEXT advances and the interrupt follows; where one of them faulted
in translation, the event is dropped (R293). -/
def sitWritten (i : Nat) (s : State) : State :=
  let t := (s.inst i).sit
  if s.mem.waiting.any fun a => a.own == .sitEvtWr i then s
  else match t.wr, t.events with
    | some true, e :: rest =>
      sitKick i (sitInterrupt i e.vec (s.modTable i fun x =>
        { x with events := rest, wr := none, evtNext := (x.evtNext + 1) % 2 ^ (6 + x.evtSize) }))
    | some false, _ => sitDrop i s
    | _, _ => s

/-- SIT_EVENT_WRITE (R293): the read of the event ring is complete, or the writes of a record have been issued since. -/
def execSitEventWrite (vi : ViId) (s : State) : Out :=
  let i := vi.val
  let t := (s.inst i).sit
  .next (if t.wr.isSome then conclude (sitWritten i s)
    else match t.rdId.bind s.buf?, t.events with
    | some b, e :: _ =>
      if b.res == .pending then s
      else
        let s1 := dropBuf b.id (s.modTable i fun x => { x with rdId := none })
        if b.res == .ok && !bit (leAt b.data 15 1) 7 then conclude (sitWritten i (conclude (sitWrite i e s1)))
        else conclude (sitDrop i s1)
    | _, _ => s)

/-- SIT_EVENT_MEMORY_EXPIRY (R292): the oldest key or bucket remembered ages out. -/
def execSitEventMemoryExpiry (s : State) : Out := .next (s.modSit fun t => { t with mem := t.mem.drop 1 })

/-- SIT_INTERRUPT_HOLDOFF (R293): one interrupt covers the records written in the interval. -/
def execSitInterruptHoldoff (vi : ViId) (s : State) : Out :=
  let i := vi.val
  let t := (s.inst i).sit
  .next (if !t.holding then s
    else
      let s1 := s.modTable i fun x => { x with holding := false, owed := none }
      if t.owed.isSome then conclude (sitInterrupt i t.owed s1) else s1)

/-! ### Lookups (R288 to R290, R294) -/

/-- Reads the bucket of a lookup of instance `i`. -/
def sitRead (i : Nat) (l : Lookup) (s : State) : State :=
  let t := (s.inst i).sit
  startReadParts i 0 [(t.base + 64 * l.bucket, 0, 64)] false (.sit l.id)
    (s.modSit fun x => { x with lookups := x.lookups ++ [{ l with rid := s.mem.nextId, again := false }] })

/-- CTX_MISS with a detail. -/
def ctxMiss (d : Nat) : Res := res 6 d

/-- Starts the lookup of a stored frame, or completes it as SIT_OFF (R289). -/
def startLookup (p fid i typ an key : Nat) (s : State) : State :=
  let t := (s.inst i).sit
  if t.st != .enabled then failFrame p fid (ctxMiss 4) s
  else
    let l : Lookup := { id := s.sit.nextId, port := p, frame := fid, typ := typ, an := an, key := key,
                        bucket := sitBucket t i typ an key, missEn := t.missEn, ageEn := t.ageEn, vec := t.vec, irqEn := t.irqEn }
    let s1 := s.modSp p fun x => { x with ing := x.ing.map fun f => if f.id = fid then { f with st := .lookup l.id } else f }
    sitRead i l (s1.modSit fun x => { x with nextId := x.nextId + 1 })

/-- The instance of a stored frame. -/
def frameInst (s : State) (p fid : Nat) : Option Nat := ((s.sp p).ing.find? fun f => f.id = fid).map fun f => f.f.inst.val

/-- Notes on the lookups of a bucket in progress that entry `k`'s LAST_HIT is being written, which their reads may not show. -/
def stamp (i bucket k sec : Nat) (s : State) : State :=
  s.modSit fun t => { t with lookups := t.lookups.map fun x =>
    if x.bucket = bucket && frameInst s x.port x.frame == some i then { x with stamped := x.stamped ++ [(k, sec)] } else x }

/-- Writes LAST_HIT of entry `k`, at most once per second, merged with a write to the same word that still waits (R294). -/
def lastHit (i : Nat) (l : Lookup) (k : Nat) (e : List Byte) (s0 : State) : State :=
  let sec := now s0 / 1000000000 % 2 ^ 16
  if !l.ageEn || fld (entWord e 1) 0 16 = sec || l.stamped.contains (k, sec) then s0
  else
    let s := stamp i l.bucket k sec s0
    let w := if evenOnes sec then sec else sec + 2 ^ 31
    let a := (s.inst i).sit.base + 64 * l.bucket + 16 * k + 4
    let same : Access → Bool := fun x => x.own == .sitWr i && x.addr = a
    if s.mem.waiting.any same then
      s.modMem fun m => { m with waiting := m.waiting.map fun x => if same x then { x with data := natLe 4 w } else x }
    else startWrite i a (natLe 4 w) false (.sitWr i) true s

/-- A lookup matches entry `e` of its bucket: the frame takes the context that the entry names (R289). -/
def sitHit (i : Nat) (l : Lookup) (mask : Nat) (e : Nat × List Byte) (s : State) : State :=
  (parityEvent i l mask (lastHit i l e.1 e.2 s)).modSp l.port fun x =>
    { x with ing := x.ing.map fun f => if f.id = l.frame then { f with st := .named (fld (entWord e.2 0) 0 24) } else f }

/-- A lookup matches no entry: CTX_MISS, or SIT_PARITY where an entry of the bucket is bad (R289). -/
def sitMiss (i : Nat) (l : Lookup) (mask : Nat) (s : State) : State :=
  if mask = 0 then failFrame l.port l.frame (ctxMiss 3) (missEvent i l s)
  else failFrame l.port l.frame (res 0x16 0) (parityEvent i l mask s)

/-- The bad entries of a bucket, one bit each (R289). -/
def badMask (b : List Byte) : Nat := (((bucketEntries b).filter fun e => entBad e.1 e.2).map fun e => 2 ^ e.1).sum

/-- The entry of a bucket that a lookup matches (R289). -/
def sitMatch (l : Lookup) (b : List Byte) : Option (Nat × List Byte) :=
  (bucketEntries b).find? fun e => !entBad e.1 e.2 && entMatches l e.2

/-- The outcome of a lookup's deciding read (R289). -/
def sitDecide (i : Nat) (l : Lookup) (b : List Byte) (s : State) : State :=
  (sitMatch l b).elim (sitMiss i l (badMask b) s) fun e => sitHit i l (badMask b) e s

/-- SIT_LOOKUP (R288, R289): a bucket read is complete. -/
def execSitLookup (id : Nat) (s : State) : Out :=
  .next (match s.sit.lookups.find? fun l => l.id = id && !l.again with
    | none => s
    | some l =>
      match s.buf? l.rid with
      | none => s
      | some b =>
        let s1 := dropBuf b.id (s.modSit fun t => { t with lookups := t.lookups.filter fun x => x.id != id })
        match b.res, frameInst s l.port l.frame with
        | .pending, _ => s
        | _, none => s1
        | .xlate c _ _, some _ => conclude (failFrame l.port l.frame (xlateRes c) s1)
        | .ic, some _ => conclude (failFrame l.port l.frame icError s1)
        | .ok, some i =>
          if bit (leAt b.data 0 4) 28 then
            if l.reads < 5 then s1.modSit fun t => { t with lookups := t.lookups ++ [{ l with again := true }] }
            else conclude (failFrame l.port l.frame (res 0x15 0) s1)
          else conclude (sitDecide i l b.data s1))

/-- SIT_LOCK_RETRY (R288): the bucket is read again. -/
def execSitLockRetry (id : Nat) (s : State) : Out :=
  .next (match s.sit.lookups.find? fun l => l.id = id && l.again with
    | none => s
    | some l =>
      let s1 := s.modSit fun t => { t with lookups := t.lookups.filter fun x => x.id != id }
      match frameInst s l.port l.frame with
      | none => s1
      | some i => conclude (sitRead i { l with reads := l.reads + 1, stamped := [] } s1))

/-! ### Control (R282, R283) -/

/-- Applies an enable to a table that is DISABLED. -/
def sitApply (i : Nat) (s : State) : State :=
  s.modTable i fun t =>
    if t.size < 4 || t.size > 22 || t.base = 0 || (t.evtEn && (t.evtBase = 0 || t.evtSize > 10)) then
      { t with st := .disabled, cfgErr := true }
    else { t with st := .enabled, evtNext := 0 }

/-- A write of EN (R283). -/
def sitEn (i : Nat) (en : Bool) (s : State) : State :=
  match (s.inst i).sit.st, en with
  | .disabled, true => sitApply i s
  | .stopping, true => s.modTable i fun t => { t with st := .pendingEnable }
  | .enabled, false => s.modTable i fun t => { t with st := .stopping }
  | .pendingEnable, false => s.modTable i fun t => { t with st := .stopping }
  | _, _ => s

/-- A write of SIT_CTL (R282, R283). -/
def sitCtl (i v : Nat) (s : State) : State :=
  sitEn i (bit v 0) (s.modTable i fun t =>
    let t1 := { t with cfgErr := t.cfgErr && !bit v 6, evtOvf := t.evtOvf && !bit v 7, missEn := bit v 1, ageEn := bit v 2,
                       vec := fld v 12 3, irqEn := bit v 15 }
    if t.st == .disabled then { t1 with evtEn := bit v 3, evtSize := fld v 8 4 }
    else if t.evtEn = bit v 3 && t.evtSize = fld v 8 4 then t1
    else { t1 with cfgErr := true })

/-- SIT_ENABLE (R283). -/
def execSitEnable (vi : ViId) (v : RapWord) (s : State) : Out :=
  .next (rapDo (pageBase vi.val + 0x4C) v (fun s => if bit v.toNat 0 then sitCtl vi.val v.toNat s else s) s)

/-- SIT_STOP (R283). -/
def execSitStop (vi : ViId) (v : RapWord) (s : State) : Out :=
  .next (rapDo (pageBase vi.val + 0x4C) v (fun s => if bit v.toNat 0 then s else sitCtl vi.val v.toNat s) s)

/-- Whether anything of instance `i`'s table is in flight (R283). -/
def sitBusy (s : State) (i : Nat) : Bool :=
  (s.sit.lookups.any fun l => frameInst s l.port l.frame == some i) || !(s.inst i).sit.events.isEmpty
    || (s.mem.waiting.any fun a => a.own == .sitWr i || a.own == .sitEvtWr i)
    || (s.mem.hmp0.out.any fun r => r.own == .sitWr i || r.own == .sitEvtWr i)
    || (s.mem.hmp1.out.any fun r => r.own == .sitWr i || r.own == .sitEvtWr i)

/-- A stopping table has nothing left in flight (R283). -/
def sitStopped (i : Nat) (s : State) : State :=
  let pend := (s.inst i).sit.st == .pendingEnable
  let s1 := s.modTable i fun t => { t with st := .disabled }
  if pend then sitApply i s1 else s1

/-- SIT_STOP_COMPLETE (R283). -/
def execSitStopComplete (vi : ViId) (s : State) : Out :=
  let st := (s.inst vi.val).sit.st
  .next (if (st == .stopping || st == .pendingEnable) && !sitBusy s vi.val then sitStopped vi.val s else s)

end Sys2Proof.Machine
end

