-- ==== Sys2Proof/Machine/Streams.lean ====
section
/-! DEFINITION. The commands of the stream ports: arrival of frames (R51, R162, R165, R384), egress (R385 to R391, R402), the
watermarks (R380), the egress gates (R400 to R405), the policers (R397 to R399) and the shapers (R413, R414). -/

namespace Sys2Proof.Machine

/-! ### Arrival (R48 to R51, R162, R165, R384) -/

/-- Whether R51 drops a frame. -/
def sidebandBad (s : State) (f : FrameIn) : Bool :=
  f.colour.val = 3 || (s.inst f.inst.val).st != .enabled || reEnabling s f.inst.val || f.len.val < 32 || f.len.val > 16384 || f.sofInside

/-- A frame that finds no room is dropped whole (R50, R382). -/
def overflowDrop (p cls : Nat) (s : State) : State := portFault (2 ^ (20 + p)) (classCount p 3 cls s)

/-- The policer's verdict on a frame: its colour and the state after the metering (R397). -/
def police (p : Nat) (f : FrameIn) (s : State) : Nat × State :=
  let q := s.pol f.inst.val p
  if q.st != .enabled then (f.colour.val, s)
  else
    let m := meter q (now s) f.len.val f.colour.val
    (m.1, spCount p 1 (0x20 + m.1) f.inst.val 1 (s.modPol f.inst.val p fun _ => m.2))

/-- A bypass frame is committed behind its length word (R384, R403). -/
def commitBypass (p : Nat) (f : FrameIn) (colour : Nat) (s : State) : State :=
  let c := f.cls.val
  let i := f.inst.val
  let cells := cellsOf (f.len.val + 8)
  if oversize s p c f.len.val then frameOutcome p c i 0 colour windowOversize s
  else if egOcc (s.sp p) c + cells > ceiling (s.sp p) c then overflowDrop p c s
  else
    frameOutcome p c i 0 colour (res 0 0) (putEgress p
      { seq := 0, cls := c, inst := i, cells := cells, committed := true,
        prio := if c = 7 then ctrlPrio (s.sp p) f.data else 0,
        bytes := lengthWord f.len.val colour true false (res 0 0) 0 ++ f.data } s)

/-- A frame enters the ingress store and selects its context (R165, R378). -/
def storeFrame (p : Nat) (f : FrameIn) (colour : Nat) (s : State) : State :=
  let id := s.str.nextFrame
  let prio := if f.cls.val = 7 then ctrlPrio (s.sp p) f.data else 0
  let put := fun (t : InSt) => relatch p ((s.modStr fun x => { x with nextFrame := id + 1 }).modSp p fun x =>
    { x with ing := x.ing ++ [{ id := id, f := f, ics := wordCodes f.data 0 f.inst.val, colour := colour, prio := prio, st := t }] })
  if f.hintV then put (.named f.hint.toNat)
  else
    match selector f.data with
    | .bad r => frameOutcome p f.cls.val f.inst.val 0 colour r s
    | .key typ an key => startLookup p id f.inst.val typ an key (put (.lookup 0))

/-- A frame whose length agrees meets its policer and goes its way (R397). -/
def acceptFrame (p : Nat) (f : FrameIn) (s : State) : State :=
  let m := police p f s
  let q := s.pol f.inst.val p
  if m.1 = 2 && q.st == .enabled && !q.redMark then
    frameOutcome p f.cls.val f.inst.val 0 2 (res 0x13 0) (spCount p 1 0x23 f.inst.val 1 m.2)
  else if f.byp then commitBypass p f m.1 m.2
  else storeFrame p f m.1 m.2

/-- Whether every word of an ingress frame passes its check on an IC-extended port (R66, R69). -/
def frameGood (s : State) (p : Nat) (f : FrameIn) : Bool :=
  !s.port.icx.toNat.testBit (2 + p) || f.ics == wordCodes f.data 0 f.inst.val

/-- Whether a detach drops a frame, which started later than R50 allows (step 3 of R87). -/
def lateDrop (s : State) (f : FrameIn) : Bool := f.late && s.port.att == .detaching

/-- The checks of a frame at its EOF beat, in order: R51, R50, R70, R162, the policer. -/
def arrive (p : Nat) (f : FrameIn) (s : State) : State :=
  let c := f.cls.val
  let i := f.inst.val
  let kept := min f.data.length f.len.val
  if sidebandBad s f then portFault (2 ^ 22) (classCount p 4 c s)
  else if lateDrop s f || (!f.byp && inOcc (s.sp p) c + cellsOf kept > ceiling (s.sp p) c) then overflowDrop p c s
  else if !frameGood s p f then
    frameOutcome p c i 0 f.colour.val icError (icViolation (portFault (2 ^ (12 + p)) s))
  else
    let s1 := spCount p 0 2 c kept (classCount p 1 c s)
    if f.data.length < f.len.val then frameOutcome p c i 0 f.colour.val (res 2 1) s1
    else if f.data.length > f.len.val then frameOutcome p c i 0 f.colour.val (res 3 1) s1
    else acceptFrame p f s1

/-- STREAM_FRAME_EOF (R162). -/
def execStreamFrameEof (port : PortId) (f : FrameIn) (s : State) : Out :=
  .next (if spUp s port.val && powered s && !s.modes.halted then conclude (arrive port.val f s) else s)

/-! ### Egress (R385 to R391, R402) -/

/-- What the egress store can do with the head of a class now (R390, R402). -/
inductive HeadCan | start (f : EgFrame) | hold (f : EgFrame) | closed
  deriving DecidableEq, Repr

/-- The head of class `c` against its gate. -/
def headCan (s : State) (p c : Nat) : HeadCan :=
  match headOf (s.sp p) c with
  | none => .closed
  | some f =>
    let g := (s.sp p).gate
    let left := openLeft s g c
    if f.stub || fits g f.len left then .start f
    else if left = some 0 then .closed
    else .hold f

/-- Marks the heads that wait for a longer window, counting each once (R402). -/
def countHolds (p : Nat) (s : State) : State :=
  (List.range 8).foldl (fun t c => match headCan t p c with
    | .hold f => if f.held then t else
        (classCount p 7 c t).modSp p fun x =>
          { x with eg := x.eg.map fun e => if e.seq = f.seq then { e with held := true } else e }
    | _ => t) s

/-- The frame that starts next: the head of the highest class that may start (R386). -/
def nextStart (s : State) (p : Nat) : Option EgFrame :=
  ([7, 6, 5, 4, 3, 2, 1, 0].filterMap fun c => match headCan s p c with
    | .start f => some f
    | _ => none).head?

/-- Whether the egress of a port may offer a frame: in service, the data plane running, the release stage free
(R24, R71). -/
def egressFree (s : State) (p : Nat) : Bool :=
  spUp s p && powered s && !s.modes.dpStopped && !s.modes.halted && !((s.sp p).eg.any fun e => e.started)

/-- Removes an egress frame by its sequence. -/
def dropSeq (p seq : Nat) (s : State) : State :=
  relatch p (s.modSp p fun x => { x with eg := x.eg.filter fun e => e.seq != seq })

/-- The release stage found a bad word: the frame is discarded whole and counted (R391). -/
def releaseFail (p : Nat) (f : EgFrame) (s : State) : State :=
  let s1 := icViolation (portFault (2 ^ (12 + p)) (dropSeq p f.seq s))
  if f.desc then s1
  else frameOutcome p f.cls f.inst (fld (leAt f.bytes 0 8) 40 24) (fld (leAt f.bytes 0 8) 16 2) icError s1

/-- The release stage offers a frame with its codes (R69, R391). -/
def offer (p : Nat) (f : EgFrame) (s : State) : State :=
  s.modSp p fun x => { x with offered := f.bytes, offeredIc := outCodes s (2 + p) f.bytes 0 f.inst,
                              eg := x.eg.map fun e => if e.seq = f.seq then { e with started := true } else e }

/-- EGRESS_FRAME_START (R386, R391, R402). -/
def execEgressFrameStart (port : PortId) (flip : Option Nat) (s : State) : Out :=
  let p := port.val
  .next (if !egressFree s p then s
    else
      let s1 := countHolds p s
      match nextStart s1 p with
      | none => s1
      | some f =>
        if storedGood flip f.bytes f.ics (fun b => wordCodes b 0 f.inst) then offer p f s1
        else conclude (releaseFail p f s1))

/-- EGRESS_FRAME_DONE (R379, R392): the host takes the last beat of the frame offered. -/
def execEgressFrameDone (port : PortId) (s : State) : Out :=
  let p := port.val
  .next (match (s.sp p).eg.find? fun e => e.started with
    | none => s
    | some f =>
      if !spUp s p then s
      else conclude (dropSeq p f.seq (spCount p 0 6 f.cls f.len (classCount p 5 f.cls
        (s.modSp p fun x => { x with offered := [], offeredIc := [] })))))

/-! ### Watermarks (R380) -/

/-- A write of SPn_WM_c: taken, or refused with CFG_ERR. -/
def setWm (p c v : Nat) (s : State) : State :=
  let x := s.sp p
  let w : Wm := { low := fld v 0 13, high := fld v 16 13 }
  let y : StreamSt := { x with wm := tset x.wm {} c w }
  if w.low ≥ w.high || ((List.range 8).map fun k => ceiling y k).sum > 4096 then
    s.modSp p fun z => { z with cfgErr := true }
  else relatch p (s.modSp p fun _ => y)

/-- WATERMARK_WRITE (R380). -/
def execWatermarkWrite (port : PortId) (cls : ClassId) (v : RapWord) (s : State) : Out :=
  .next (rapDo (0x4020 + 0x400 * port.val + 4 * cls.val) v (setWm port.val cls.val v.toNat) s)

/-! ### Gates (R400 to R405) -/

/-- Changes the gate of port `p`. -/
def State.modGate (s : State) (p : Nat) (f : Gate → Gate) : State := s.modSp p fun x => { x with gate := f x.gate }

/-- CFG_ERR of a gate. -/
def gateErr (p : Nat) (s : State) : State := s.modGate p fun g => { g with cfgErr := true }

/-- Whether a takeover of the administrative list is valid. -/
def adminOk (g : Gate) : Bool :=
  1 ≤ g.len && g.len ≤ 256 && 1000 ≤ g.cycle && g.cycle ≤ 1000000000
    && (adminList g).all fun e => 1 ≤ e.ns && e.ns ≤ 1000000000

/-- The change time that a request made at `t` fixes (R404). -/
def changeTime (g : Gate) (t : Nat) : Nat :=
  let base := g.baseSec * 1000000000 + g.baseNs
  if base ≥ t + 10000 then base else base + ceilDiv (t + 10000 - base) g.cycle * g.cycle

/-- Schedules a takeover, or refuses it. -/
def gateSchedule (p : Nat) (s : State) : State :=
  let g := (s.sp p).gate
  if g.pending.isSome || !adminOk g then gateErr p s
  else s.modGate p fun x => { x with pending := some (changeTime g (now s)) }

/-- The gate states in force are taken from the schedule. -/
def gateShow (p : Nat) (s : State) : State := s.modGate p fun g => { g with cur := gatesNow s g }

/-- A write of GATE_n_CTL (R404). -/
def gateCtl (p v : Nat) (s : State) : State :=
  let g := (s.sp p).gate
  let line := fld v 16 12
  if bit v 0 && (line = 0 || line > 2048) then gateErr p s
  else
    let s1 := s.modGate p fun x => { x with lostAct := fld v 2 2, ovh := fld v 8 8, line := line }
    if !bit v 0 then
      gateShow p (s1.modGate p fun x =>
        { x with en := false, pending := none, oper := [], operCycle := 0, operStart := 0 })
    else if !g.en then
      if adminOk g then gateShow p (gateSchedule p (s1.modGate p fun x => { x with en := true })) else gateErr p s1
    else if bit v 1 then gateSchedule p s1
    else gateShow p s1

/-- GATE_CHANGE (R404): GATE_n_CTL written with CHANGE = 1. -/
def execGateChange (port : PortId) (v : RapWord) (s : State) : Out :=
  .next (rapDo (0x5000 + 0x100 * port.val) v (fun s => if bit v.toNat 1 then gateCtl port.val v.toNat s else s) s)

/-- GATE_ENABLE (R404): EN written 1. -/
def execGateEnable (port : PortId) (v : RapWord) (s : State) : Out :=
  .next (rapDo (0x5000 + 0x100 * port.val) v (fun s => if bit v.toNat 0 then gateCtl port.val v.toNat s else s) s)

/-- GATE_DISABLE (R404): EN written 0. -/
def execGateDisable (port : PortId) (v : RapWord) (s : State) : Out :=
  .next (rapDo (0x5000 + 0x100 * port.val) v (fun s => if bit v.toNat 0 then s else conclude (gateCtl port.val v.toNat s)) s)

/-- GATE_EDGE (R401): the next entry's gate states take effect. -/
def execGateEdge (port : PortId) (s : State) : Out := .next (gateShow port.val s)

/-- Discards a queued frame that the new list makes oversize (R403). -/
def discardOversize (p : Nat) (f : EgFrame) (s : State) : State :=
  let s1 := dropSeq p f.seq s
  if f.desc then classCount p 8 f.cls s1
  else frameOutcome p f.cls f.inst (fld (leAt f.bytes 0 8) 40 24) (fld (leAt f.bytes 0 8) 16 2) windowOversize s1

/-- The operating list is replaced at the change time (R403, R404). -/
def takeover (p at0 : Nat) (s : State) : State :=
  let s1 := s.modGate p fun g =>
    { g with oper := adminList g, operCycle := g.cycle, operStart := at0, pending := none }
  let gone := (s1.sp p).eg.filter fun f => f.committed && !f.started && !f.stub && oversize s1 p f.cls f.len
  gateShow p (gone.foldl (fun t f => discardOversize p f t) s1)

/-- GATE_TAKEOVER (R404, R405): the time base has reached the change time. -/
def execGateTakeover (port : PortId) (s : State) : Out :=
  .next (match (s.sp port.val).gate.pending with
    | none => s
    | some at0 => if now s ≥ at0 then conclude (takeover port.val at0 s) else s)

/-! ### Policers (R397 to R399) -/

/-- Whether the staged set is valid (R398). -/
def stagedOk (q : Policer) : Bool :=
  1 ≤ q.sPir && q.sPir ≤ 2048000 && q.sCir ≤ q.sPir && 16384 ≤ q.sCbs && q.sCbs ≤ 16777215 && 16384 ≤ q.sPbs
    && q.sPbs ≤ 16777215

/-- Applies the staged set to the buckets as they stand at time `t`, or refuses it (R398). -/
def polApply (t : Nat) (q : Policer) : Policer :=
  if !stagedOk q then { q with cfgErr := true }
  else
    let tc := min (q.cbs * 8000) (q.tc + q.cir * (t - q.last))
    let tp := min (q.pbs * 8000) (q.tp + q.pir * (t - q.last))
    { q with cir := q.sCir, pir := q.sPir, cbs := q.sCbs, pbs := q.sPbs, tc := min tc (q.sCbs * 8000),
             tp := min tp (q.sPbs * 8000), last := t }

/-- Enables a policer that is DISABLED: its staged set applies with full buckets, or it is refused (R398, R399). -/
def polEnable (t : Nat) (q : Policer) : Policer :=
  if !stagedOk q then { q with cfgErr := true, st := .disabled }
  else { q with st := .enabled, cir := q.sCir, pir := q.sPir, cbs := q.sCbs, pbs := q.sPbs, tc := q.sCbs * 8000,
                tp := q.sPbs * 8000, last := t }

/-- A write of EN on a policer (R399). -/
def polEn (t : Nat) (en : Bool) (q : Policer) : Policer :=
  match q.st, en with
  | .disabled, true => polEnable t q
  | .enabled, false => { q with st := .stopping }
  | .stopping, true => { q with st := .pendingEnable }
  | .pendingEnable, false => { q with st := .stopping }
  | _, _ => q

/-- A write of POL_CTL on the selected policer (R398, R399). -/
def polCtl (v : Nat) (s : State) : State :=
  let sel := s.str.polSel.toNat
  let t := now s
  s.modPol (fld sel 0 7) (fld sel 7 1) fun q =>
    let q1 := polEn t (bit v 0) { q with aware := bit v 1, redMark := bit v 2, cfgErr := q.cfgErr && !bit v 6 }
    if bit v 3 then polApply t q1 else q1

/-- POLICER_ENABLE (R399): POL_CTL written with EN = 1. -/
def execPolicerEnable (v : RapWord) (s : State) : Out :=
  .next (rapDo 0x4804 v (fun s => if bit v.toNat 0 then polCtl v.toNat s else s) s)

/-- POLICER_STOP (R399): POL_CTL written with EN = 0. -/
def execPolicerStop (v : RapWord) (s : State) : Out :=
  .next (rapDo 0x4804 v (fun s => if bit v.toNat 0 then s else polCtl v.toNat s) s)

/-- POLICER_STOP_COMPLETE (R399): the colouring stage is empty. -/
def execPolicerStopComplete (vi : ViId) (port : PortId) (s : State) : Out :=
  .next (s.modPol vi.val port.val fun q => match q.st with
    | .stopping => { q with st := .disabled }
    | .pendingEnable => polEnable (now s) q
    | _ => q)

/-- POLICER_APPLY (R398): POL_CTL written with APPLY = 1. -/
def execPolicerApply (v : RapWord) (s : State) : Out :=
  .next (rapDo 0x4804 v (fun s => if bit v.toNat 3 then polCtl v.toNat s else s) s)

/-! ### Shapers (R413, R414) -/

/-- Bucket size of a shaper in bytes: a smaller value acts as 16,384. -/
def shpCap (x : Inst) : Nat := max 16384 x.shpBurst

/-- A write of SHP_CTL on instance `i` (R414). -/
def shpCtl (i v : Nat) (s : State) : State :=
  s.modInst i fun x0 =>
    let x := { x0 with shpErr := x0.shpErr && !bit v 29 }
    if bit v 31 && fld v 0 22 = 0 then { x0 with shpErr := true }
    else
      let lv := if bit v 30 && x.shpLevel < 0 then 0 else x.shpLevel
      { x with shpRate := fld v 0 22, shpEn := bit v 31,
               shpLevel := if bit v 31 && !x.shpEn then (8 * shpCap x : Nat) else lv }

/-- SHAPER_CONFIG (R414): SHP_CTL of the instance that INST_SEL selects. -/
def execShaperConfig (v : RapWord) (s : State) : Out :=
  .next (rapDo 0x6004 v (fun s => if s.glb.instSel ≤ mi then shpCtl s.glb.instSel v.toNat s else s) s)

/-- SHAPER_REFILL (R413): a microsecond of the time base adds RATE ÷ 8 bytes up to BURST. -/
def execShaperRefill (inst : InstId) (s : State) : Out :=
  .next (s.modInst inst.val fun x =>
    if x.shpEn then { x with shpLevel := min (x.shpLevel + (x.shpRate : Nat)) (8 * shpCap x : Nat) } else x)

/-! ### Tenant events (R395) -/

/-- TENANT_EVENT_WINDOW (R395): one entry for each combination that occurred in the window. -/
def execTenantEventWindow (vi : ViId) (s : State) : Out :=
  .next (s.modInst vi.val fun x =>
    let add : Inst → (Nat × Nat) → Inst := fun y e =>
      if y.evts.length < 64 then { y with evts := y.evts ++ [e.1 + e.2 * 2 ^ 20] } else { y with evtOver := true }
    x.evtCounts.foldl add { x with evtCounts := [] })

end Sys2Proof.Machine
end

