-- ==== Sys2Proof/Machine/Reads.lean ====
section
/-! DEFINITION. Reads that act: register-read FIFOs (R393, R394), latching counters (R392, R517) and measurements (R319), by the
RAP or the I3C target (R57, R511, R512). -/

namespace Sys2Proof.Machine

/-- Addresses that a halted block still answers reads of (R444). -/
def haltReads (addr : Nat) : Bool := addr = 0 || (0x400 ≤ addr && addr ≤ 0x4FF)

/-- A read through the RAP at an address: none in Vigil; RAP_ERR where the halted block answers none (R444), and where the word fails
its check inside the block (R70). -/
def rapRead (addr : Nat) (icOk : Bool) (f : State → State × Nat) (s : State) : State :=
  if !powered s then s
  else if s.modes.halted && !haltReads addr then rapAnswer addr true 0 s
  else
    let r := f s
    if icOk then rapAnswer addr false r.2 r.1 else conclude (rapIcFail (rapAnswer addr true 0 r.1))

/-- The word that the I3C target reads at an address: zero, with I3C_REFUSED, outside 0x00_0000 to 0x00_0FFF (R57); zero where
the halted block answers none (R444). -/
def i3cWord (addr : Nat) (f : State → State × Nat) (s : State) : State × Nat :=
  if addr > 0xFFF then (portFault (2 ^ 25) s, 0)
  else if s.modes.halted && !haltReads addr then (s, 0)
  else f s

/-- A read of one word through the I3C target. -/
def i3cRead (addr : Nat) (f : State → State × Nat) (s : State) : State :=
  if !powered s then s
  else
    let r := i3cWord addr f s
    r.1.modPort fun p => { p with i3cOut := [word r.2] }

/-- A read at an address through a path. -/
def pathRead (path : Path) (addr : Nat) (icOk : Bool) (f : State → State × Nat) (s : State) : State :=
  match path with
  | .rap => rapRead addr icOk f s
  | .i3c => i3cRead addr f s

/-! ### Privileged FIFOs (R394) -/

/-- Address of a privileged FIFO. -/
def privAddr : PrivFifo → Nat
  | .tamper => 0x410 | .mailbox => 0x508 | .attest => 0x530

/-- Takes the oldest entry of a privileged FIFO with VALID = 1, or reads zero. -/
def privTake (which : PrivFifo) (s : State) : State × Nat :=
  match which with
  | .tamper => match s.tam.fifo with
    | [] => (s, 0)
    | w :: r => (s.modTam fun t => { t with fifo := r }, w % 2 ^ 31 + 2 ^ 31)
  | .mailbox => match s.ory.mailbox with
    | [] => (s, 0)
    | w :: r => (s.modOry fun o => { o with mailbox := r }, w % 2 ^ 31 + 2 ^ 31)
  | .attest => match s.ory.reply with
    | [] => (s, 0)
    | w :: r => (s.modOry fun o => { o with reply := r }, w % 2 ^ 31 + 2 ^ 31)

/-- PRIVILEGED_FIFO_READ (R394). -/
def execPrivilegedFifoRead (path : ReadPath) (which : PrivFifo) (s : State) : Out :=
  .next (pathRead path.path (privAddr which) path.icOk (privTake which) s)

/-! ### Ordinary FIFOs (R393) -/

/-- Takes the oldest tenant event of instance `i`, or repeats the last with UNDERRUN. -/
def evtTake (i : Nat) (s : State) : State × Nat :=
  match (s.inst i).evts with
  | [] => (s.modInst i fun x => { x with evtUnder := true }, (s.inst i).evtLast)
  | w :: r => (s.modInst i fun x => { x with evts := r, evtLast := w }, w)

/-- Takes the oldest lane sample, or repeats the last with UNDERRUN. -/
def sampleTake (s : State) : State × Nat :=
  match s.fab.fifo with
  | [] => (s.modFab fun b => { b with fifoUnder := true }, s.fab.fifoLast)
  | w :: r => (s.modFab fun b => { b with fifo := r, fifoLast := w }, w)

/-- ORDINARY_FIFO_READ (R393). -/
def execOrdinaryFifoRead (r : OrdRead) (s : State) : Out :=
  .next (match r.which with
    | .tenant vi => rapRead (pageBase vi.val + 0x50) r.icOk (evtTake vi.val) s
    | .laneSample => rapRead 0x2180 r.icOk sampleTake s)

/-! ### Counters, time and measurements -/

/-- A read of SPn_CNT_LO: the low half of the selected counter, its high half latched (R392). -/
def cntRead (p : Nat) (s : State) : State × Nat :=
  let sel := (s.sp p).cntSel.toNat
  let v := tget (s.sp p).cnt 0 (cntKey (fld sel 16 1) (fld sel 0 8) (fld sel 8 7))
  (s.modSp p fun x => { x with cntHiRap := word (v / 2 ^ 32) }, v % 2 ^ 32)

/-- COUNTER_READ (R392). -/
def execCounterRead (path : ReadPath) (port : PortId) (s : State) : Out :=
  .next (pathRead path.path (0x4014 + 0x400 * port.val) path.icOk (cntRead port.val) s)

/-- A read of GLB_TIME_SEC_LO: the seconds, with the time and TIME_LOST latched for the path (R517). -/
def timeTake (path : Path) (s : State) : State × Nat :=
  let t := now s
  (s.modTime fun x => match path with
    | .rap => { x with latchRap := t, lostRap := x.lost }
    | .i3c => { x with latchI3c := t, lostI3c := x.lost }, t / 1000000000 % 2 ^ 32)

/-- TIME_READ (R517). -/
def execTimeRead (path : ReadPath) (s : State) : Out := .next (pathRead path.path 0x40 path.icOk (timeTake path.path) s)

/-- A read of word `w` of measurement `m`: zeros with EARLY_READ while it runs (R319). -/
def measTake (m w : Nat) (s : State) : State × Nat :=
  if s.dig.measDone.toNat.testBit m then (s, leAt (tget s.dig.meas [] m) (4 * w) 4)
  else (s.modDig fun d => { d with early := true }, 0)

/-- MEAS_READ (R319). -/
def execMeasRead (path : ReadPath) (m : Fin 4) (w : Fin 12) (s : State) : Out :=
  .next (pathRead path.path (0x3440 + 0x30 * m.val + 4 * w.val) path.icOk (measTake m.val w.val) s)

end Sys2Proof.Machine
end

