-- ==== Sys2Proof/Machine/Tamper.lean ====
section
/-! DEFINITION. The commands of the tamper sources and the Vigil domain: detectors and their chains (R431 to R437), the external
ZEROISE_N (R82), the end of a clear (R377, R444), the thaw (R440), sampling on the backup cell (R447, R451 to R454) and the
crystal (R79). -/

namespace Sys2Proof.Machine

/-! ### Detectors and chains (R431 to R437) -/

/-- Whether a source reports discrete occurrences (R431). -/
def isReport (k : Nat) : Bool := k = 10 || k ≥ 13

/-- The class of a mesh pair from what its two inputs show (R76). The table names the classes by one input or by both; a pair of which
several rows hold takes the first of SWAPPED, SHORT_BETWEEN, SHORT_LOW, SHORT_HIGH and OPEN (log entry 166). -/
def meshPair (ai bi : MeshIn) : Nat :=
  if ai == .own && bi == .own then 0
  else if ai == .other && bi == .other then 5
  else if ai == .wired && bi == .wired then 4
  else if ai == .low || bi == .low then 2
  else if ai == .high || bi == .high then 3
  else 1

/-- The class of a lid input from its resistance (R78); 8 kΩ reads as closed and 40 kΩ as open (log entry 166). -/
def lidClass (closedNormal : Bool) (ohms : Nat) : Nat :=
  if ohms < 1500 then 3
  else if ohms > 40000 then 2
  else if (ohms ≤ 8000) = closedNormal then 0
  else 1

/-- The class of VCELL (R79). -/
def cellClass (mv : Int) : Nat := if mv < -200 then 3 else if mv < 1000 then 2 else if mv < 2400 then 1 else 0

/-- A 32-bit value as two's complement. -/
def int32 (v : Nat) : Int := if v ≥ 2 ^ 31 then (v : Int) - 2 ^ 32 else v

/-- A threshold by its calibration item: the factory default where CALIBRATE has set none (R431, R472; log entry 191). -/
def threshold (s : State) (id : Nat) : Int :=
  match tget s.ory.calib none id with
  | some w => int32 w.toNat
  | none => match id with
    | 1 => 675 | 2 => 925 | 3 => -40 | 4 => 130 | 6 => 50 | _ => Config.sensorThreshold id

/-- The class of a reading of source `k` under a configuration record; a source without classes of its own has class 1 while it is
active (R76, R78, R79, R431). -/
def readClass (s : State) (k : Nat) (r : TRec) : PinReading → Nat
  | .level a => b2n a
  | .mesh ai bi => meshPair ai bi
  | .lid ohms => lidClass r.polarity ohms
  | .cell mv => cellClass mv
  | .supply mv => b2n (decide (mv < threshold s 1) || decide (mv > threshold s 2))
  | .junction deg => b2n (decide (deg < threshold s 3) || decide (deg > threshold s 4))
  | .sensor code => b2n (decide ((code : Int) > threshold s (if k = 9 then 5 else 7)))
  | .glitch mv => b2n (decide ((mv : Int) ≥ threshold s 6))

/-- Whether a source has a pin class (R76, R78, R79). -/
def hasClass (k : Nat) : Bool := k ≤ 5 || k = 7

/-- Whether a level source is active: a detector under test does not drive it (R434). -/
def Src.active (x : Src) : Bool :=
  match x.test with
  | some .a => x.b
  | some .b => x.a
  | none => x.a || x.b

/-- The source's detectors are powered: its disable fuse is intact (R435). -/
def fuseIntact (s : State) (k : Nat) : Bool := !(k < 16 && s.tam.disabled.toNat.testBit k)

/-- A level source that is waiting qualifies (R436). -/
def qualify (k : Nat) (s : State) : State :=
  qualified k (s.tsrc k).cls (s.modTsrc k fun x => { x with waiting := false, ready := false })

/-- An armed level source rises: its debounce starts, it qualifies at once, or it bounces (R436, R437, R448). -/
def sourceRise (k : Nat) (s : State) : State :=
  if !armed s k then s
  else if !(s.tsrc k).ready then bounce k s
  else if (tRec s k).debounce = 0 then qualify k s
  else s.modTsrc k fun x => { x with waiting := true }

/-- A level source falls: a debounce that had not ended is a bounce (R437). -/
def sourceFall (k : Nat) (s : State) : State :=
  if (s.tsrc k).waiting then bounce k (s.modTsrc k fun x => { x with waiting := false }) else s

/-- A change of the chain's detectors with what follows from the source's activity. -/
def reactive (k : Nat) (f : Src → Src) (s : State) : State :=
  let was := (s.tsrc k).active
  let s1 := s.modTsrc k f
  let is := (s1.tsrc k).active
  if !was && is then sourceRise k s1 else if was && !is then sourceFall k s1 else s1

/-- A count path of a report source records an occurrence: the first path to record it raises the event, the other path's
record of the same occurrence raises none (R433, R436). -/
def pathRecord (k : Nat) (d : Detector) (s : State) : State :=
  let x := s.tsrc k
  match d with
  | .a => if x.recB > 0 then s.modTsrc k fun y => { y with recB := y.recB - 1 }
          else occurrence k (s.modTsrc k fun y => { y with recA := y.recA + 1 })
  | .b => if x.recA > 0 then s.modTsrc k fun y => { y with recA := y.recA - 1 }
          else occurrence k (s.modTsrc k fun y => { y with recB := y.recB + 1 })

/-- The chain of source `k` with a reading of one detector: every class other than OK or NORMAL is an active source (R77 to R79). The class
shown is detector A's, or B's where A reads none. -/
def Src.reads (x : Src) (s : State) (k : Nat) (r : TRec) (d : Detector) (p : PinReading) : Src :=
  let c := readClass s k r p
  let y := match d with
    | .a => { x with a := c != 0, pinA := p }
    | .b => { x with b := c != 0, pinB := p }
  let ca := readClass s k r y.pinA
  { y with told := y.told && y.a != y.b, cls := if !hasClass k then 0 else if ca != 0 then ca else readClass s k r y.pinB }

/-- A detector of source `k` changes; the detector under test answers its stimulus and drives nothing (R434). -/
def detectorChange (k : Nat) (d : Detector) (p : PinReading) (s : State) : State :=
  let on := readClass s k (tRec s k) p != 0
  if !powered s || !fuseIntact s k then s
  else if on && (s.tsrc k).test = some d then reactive k (fun x => { x with test := none }) s
  else if isReport k then (if on then pathRecord k d s else s)
  else reactive k (fun x => x.reads s k (tRec s k) d p) s

/-- Sources whose readings a configuration or a calibration may judge anew: the lids by their polarity, and those with a threshold (R78,
R449, R472). -/
def judged : List Nat := [2, 3, 4, 5, 6, 8, 9, 12]

/-- The readings are held against the configuration and the thresholds in force. -/
def reclassify (s : State) : State :=
  judged.foldl (fun t k => reactive k (fun x => (x.reads t k (tRec t k) .a x.pinA).reads t k (tRec t k) .b x.pinB) t) s

/-- TAMPER_SOURCE_CHANGE (R436): what a measuring source reads, or the level or report of another. -/
def execTamperSourceChange (src : SrcId) (det : Detector) (level : Bool) (meas : Option PinReading) (s : State) : Out :=
  .next (conclude (detectorChange src.val det (meas.getD (.level level)) s))

/-- TAMPER_DEBOUNCE_EXPIRY (R436): the source has been active for DEBOUNCE. -/
def execTamperDebounceExpiry (src : SrcId) (s : State) : Out :=
  .next (if powered s && (s.tsrc src.val).waiting && armed s src.val then conclude (qualify src.val s) else s)

/-- TAMPER_REARM_EXPIRY (R436): the source has been inactive for REARM. -/
def execTamperRearmExpiry (src : SrcId) (s : State) : Out :=
  .next (if powered s && !(s.tsrc src.val).active then s.modTsrc src.val fun x => { x with ready := true } else s)

/-- Whether the detectors of a source disagree, and the block has not recorded it (R433). -/
def detectorsDiffer (k : Nat) (x : Src) : Bool := if isReport k then x.recA + x.recB > 0 else x.a != x.b && !x.told

/-- DETECTOR_DISAGREE (R433): the detectors have disagreed for the limit. -/
def execDetectorDisagree (src : SrcId) (s : State) : Out :=
  let k := src.val
  .next (if powered s && fuseIntact s k && detectorsDiffer k (s.tsrc k) && (s.tsrc k).test.isNone then
      conclude (disagree k (s.modTsrc k fun x => { x with recA := 0, recB := 0, told := !isReport k }))
    else s)

/-- DETECTOR_SELF_TEST (R434): a stimulus is injected into one detector of an armed source, one detector at a time. -/
def execDetectorSelfTest (src : SrcId) (det : Detector) (s : State) : Out :=
  .next (if powered s && armed s src.val && ((List.range 16).all fun k => (s.tsrc k).test.isNone) then
      conclude (reactive src.val (fun x => { x with test := some det }) s)
    else s)

/-- DETECTOR_SELF_TEST_TIMEOUT (R434): the detector under test has not responded. -/
def execDetectorSelfTestTimeout (src : SrcId) (det : Detector) (s : State) : Out :=
  .next (if powered s && (s.tsrc src.val).test = some det then
      conclude (selfTestFail src.val (reactive src.val (fun x => { x with test := none }) s))
    else s)

/-- FUSE_REREAD (R431): a fuse word that fails its check is an occurrence of FUSEINT. -/
def execFuseReread (ok : Bool) (s : State) : Out :=
  .next (if ok || !powered s then s else conclude (occurrence 13 s))

/-! ### ZEROISE_N (R81, R82) -/

/-- ZEROISE_N_LOW (R82): an external low applies ZEROISE once. One that begins while the block itself drives the pin low is no event,
but the level is held (log entry 167). -/
def execZeroiseNLow (s : State) : Out :=
  .next (if !powered s || s.port.zExt then s
    else if s.port.zDriven then s.modPort fun p => { p with zExt := true }
    else conclude (alarm 18 4 0 (s.modPort fun p => { p with zExt := true })))

/-- ZEROISE_N_HIGH (R82): the external low ends. -/
def execZeroiseNHigh (s : State) : Out := .next (s.modPort fun p => { p with zExt := false })

/-! ### The end of a clear (R377, R444) -/

/-- Moves the DRBG with its log entry; SINGLE and STOPPED raise the fault interrupt, and STOPPED stalls Burnish (R345,
R359). -/
def drbgTo (d : DrbgState) (s : State) : State :=
  let code : Nat := match d with
    | .unseeded => 0 | .starting => 1 | .running => 2 | .single => 3 | .stopped => 4
  let s0 := (s.modAnv fun a => { a with drbg := d }).modCruc fun c => { c with stalled := c.stalled || d == .stopped }
  let s1 := logEvent 7 code 0 (settleMode s0)
  if code ≥ 3 then faultMsg s1 else s1

/-- Instantiates a starting DRBG once its sources have the blocks for it: a block of each source with 128 further bits of A, or
the remaining source's blocks (R344, R345). -/
def drbgTry (s : State) : State :=
  let a := s.anv
  if a.drbg != .starting then s
  else if a.aUp && a.bUp then
    if a.aBuf ≥ 2 && a.bBuf ≥ 1 then
      drbgTo .running (s.modAnv fun x => { x with aBuf := x.aBuf - 2, bBuf := x.bBuf - 1, requests := 0 })
    else s
  else if a.aUp && a.aBuf ≥ 3 then
    drbgTo .single (s.modAnv fun x => { x with aBuf := x.aBuf - 3, requests := 0 })
  else if a.bUp && a.bBuf ≥ 3 then
    drbgTo .single (s.modAnv fun x => { x with bBuf := x.bBuf - 3, requests := 0 })
  else s

/-- Starts an unseeded DRBG (R345, R377). -/
def drbgStart (s : State) : State := if s.anv.drbg == .unseeded then drbgTry (drbgTo .starting s) else s

/-- The halt of R444: no further host write, the outputs clamped, ZEROISE_N held low. -/
def haltBlock (s : State) : State :=
  let s1 := s.modMem fun m => { m with waiting := m.waiting.filter fun a => a.op == .read }
  let s2 := (clampOutputs s1).modPort fun p => { p with zDriven := true, attAck := false, detAck := p.detReq }
  s2.modModes fun m => { m with halted := true }

/-- Zeroised as the mode of a halt entered from elsewhere (R377, R485). -/
def haltMode (s : State) : State :=
  if s.modes.mode == .zeroised then s
  else enterMode .zeroised (s.modModes fun m => { m with zFrom := m.mode })

/-- ZEROISE_VERIFY_COMPLETE (R377, R444): the read-back of the cleared banks. -/
def execZeroiseVerifyComplete (ok : Bool) (s : State) : Out :=
  .next (match s.cruc.zRun with
    | .verify halt =>
      if !ok then haltBlock (haltMode (s.modCruc fun c => { c with zFail := true, zRun := .idle }))
      else if halt then haltBlock (s.modCruc fun c => { c with zRun := .fill })
      else
        conclude (drbgStart ((s.modCruc fun c =>
          { c with zRun := if s.anv.drbg == .stopped then .idle else .fill }).modPort fun p => { p with zDriven := false }))
    | _ => s)

/-- ZEROISE_FILL_COMPLETE (R377): Burnish has filled the banks. -/
def execZeroiseFillComplete (s : State) : Out :=
  .next (if s.cruc.zRun == .fill && (s.anv.drbg == .running || s.anv.drbg == .single) then
      s.modCruc fun c => { c with zRun := .idle, zFill := true }
    else s)

/-! ### The thaw (R440) -/

/-- A write of TMP_RESP_STATUS: a thaw lets admission resume at the next round boundary (R440, R450). -/
def tmpRespWrite (v : Nat) (s : State) : State :=
  let s1 := s.modTam fun t => { t with evtOvf := t.evtOvf && !bit v 5 }
  if bit v 0 && s.tam.frozen then scanBells ((s1.modTam fun t => { t with frozen := false }).modFab fun b => { b with rounds := 0 }) else s1

/-- FREEZE_THAW (R440). -/
def execFreezeThaw (v : RapWord) (s : State) : Out :=
  .next (rapDo 0x414 v (fun s => if bit v.toNat 0 then conclude (tmpRespWrite v.toNat s) else s) s)

/-! ### Vigil (R447, R451 to R454) -/

/-- Whether source `k` is armed in Vigil (R431, R448). -/
def vigilArmed (s : State) (k : Nat) : Bool := (tget s.vigil.vArm {} k).vigilArm && fuseIntact s k

/-- Writes a retained log entry (R454): into a free entry, else over the oldest below ZEROISE, else over the oldest. -/
def vigilLog (e : VLog) (s : State) : State :=
  s.modVigil fun v =>
    let fresh := min 16 (v.fresh + 1)
    if v.log.length < 16 then { v with log := v.log ++ [e], fresh := fresh }
    else
      let k := v.log.findIdx fun x => x.response < 4
      let rest := if k < v.log.length then v.log.eraseIdx k else v.log.drop 1
      { v with log := rest ++ [e], fresh := fresh, logLost := v.logLost + 1 }

/-- A qualified event on the backup cell: the count stage on the calendar, and its alarm (R452, R453). -/
def vigilQualified (k cls : Nat) (s : State) : State :=
  let r := tget s.vigil.vArm {} k
  let c := (tget s.vigil.src {} k).counts r (calNs s)
  let s1 := s.modVigil fun v => { v with src := tset v.src {} k c.1 }
  if !c.2.2 then s1
  else
    let s2 := vigilLog { sec := s.vigil.sec, source := k, kind := 1, response := r.response, cls := cls } s1
    if r.response ≥ 4 then s2.modVigil fun v => { v with root := none, vZeroise := true, zpend := true } else s2

/-- A sample of one source: active, or an inactive sample towards its readiness (R452). -/
def sampleSource (k : Nat) (p : PinReading) (s : State) : State :=
  if !vigilArmed s k then s
  else
    let cls := readClass s k (tget s.vigil.vArm {} k) p
    let x : Src := { tget s.vigil.src {} k with cls := if hasClass k then cls else 0 }
    if cls != 0 then
      let s1 := s.modVigil fun v => { v with src := tset v.src {} k { x with quiet := 0, ready := false } }
      if x.ready then vigilQualified k x.cls s1 else s1
    else
      let q := x.quiet + 1
      let need := max 1 (ceilDiv (tget s.vigil.vArm {} k).rearm 125)
      s.modVigil fun v => { v with src := tset v.src {} k { x with quiet := min q need, ready := x.ready || q ≥ need } }

/-- A disagreement of one source's detectors in a sample: the second in a row is one occurrence of DISAGREE (R433). -/
def sampleDisagree (k : Nat) (differs : Bool) (s : State) : State :=
  if !vigilArmed s k then s
  else
    let x := tget s.vigil.src {} k
    let s1 := s.modVigil fun v => { v with src := tset v.src {} k { x with recA := if differs then min 2 (x.recA + 1) else 0 } }
    if differs && x.recA = 1 && vigilArmed s 16 then vigilQualified 16 k s1 else s1

/-- A detector of source `k` fails the self-test of a sample: an occurrence of DISAGREE (R434). -/
def sampleSelfTest (k : Nat) (fails : Bool) (s : State) : State :=
  if fails && vigilArmed s k && vigilArmed s 16 then vigilQualified 16 k s else s

/-- What the sources read for DEBOUNCE within a sample: one that is not listed reads inactive. -/
def readingOf (reading : List (SrcId × PinReading)) (k : Nat) : PinReading :=
  ((reading.find? fun x => x.1.val = k).map Prod.snd).getD (if k ≤ 1 then .mesh .own .own else if k = 7 then .cell 3000 else .level false)

/-- The LFSR drives the mesh traces for the 30 bits of a sample (R76, R452). -/
def lfsrSample (s : State) : State :=
  s.modVigil fun v => { v with lfsr := (List.range 30).foldl (fun x _ => Config.lfsrStep x) v.lfsr }

/-- VIGIL_SAMPLE (R434, R452): what the sources read for DEBOUNCE within the sample, those whose detectors differ, and in one sample of
256 those of which a detector fails its self-test. -/
def execVigilSample (reading : List (SrcId × PinReading)) (checks : SampleChecks) (s : State) : Out :=
  .next (if powered s then s
    else
      let n := (s.vigil.samples + 1) % 256
      (List.range 16).foldl (fun t k =>
        sampleSelfTest k (n = 0 && checks.failed.any fun x => x.val = k)
          (sampleDisagree k (checks.disagree.any fun x => x.val = k) (sampleSource k (readingOf reading k) t)))
        ((lfsrSample s).modVigil fun v => { v with samples := n }))

/-- BOTH_SUPPLIES_LOST (R451): the whole retained storage is lost while main power is absent. -/
def execBothSuppliesLost (s : State) : Out :=
  .next (if powered s then s
    else { s with vigil := { retainLost := true, calLost := s.vigil.calLost, calGone := true } })

/-- XTAL_STOP (R79). -/
def execXtalStop (s : State) : Out := .next (s.modVigil fun v => { v with xtalLost := true })

/-- XTAL_RETURN (R79). -/
def execXtalReturn (s : State) : Out := .next (s.modVigil fun v => { v with xtalLost := false })

end Sys2Proof.Machine
end

