-- ==== Sys2Proof/Machine/Roots.lean ====
section
/-! DEFINITION. The roots (R360 to R363), the keys derived under them (R347, R348, R364, R475), the attestation secrets that the
Ledger keeps (R369) and MI's instance key (R409). -/

namespace Sys2Proof.Machine

/-- The value of a root held in ROM as 32 bytes. -/
def romRoot (n : Nat) : List Byte := natLe 32 n

/-- Installs a system key of a length: SYSTEM, DEPTH 0; its GEN advances (R350). -/
def putSystemBits (k bits : Nat) (key : List Byte) (s : State) : State :=
  drawn 16 <| s.modSysKey k fun old =>
    { st := .valid, kind := .system, owner := 0xFF, bits := bits, gen := (old.gen + 1) % 2 ^ 32, use := old.use,
      parent := if 1 ≤ k && k ≤ 6 then rootHandle else 0, pgen := if 1 ≤ k && k ≤ 6 then (s.sysKey 0).gen else 0,
      key := slotBytes key, seed := drawBytes s 16 }

/-- Installs a system key of 256 bits. -/
def putSystem (k : Nat) (key : List Byte) (s : State) : State := putSystemBits k 2 key s

/-- Zeroises a system slot: EMPTY. -/
def dropSystem (k : Nat) (s : State) : State := s.modSysKey k fun old => { use := old.use, gen := old.gen }

/-- A system key derived from the active root (R475). -/
def systemKey (s : State) (name : String) (context : List Byte) : List Byte := kdf s.cruc.rootKey 7 (ascii name) context 32

/-- The Vault key of a generation. -/
def vaultKeyOf (s : State) (gen : Nat) : List Byte :=
  systemKey s "VAULTKEY" ((s.vigil.root.getD (zeros 64)) ++ natLe 4 gen)

/-- Derives the Vault keys and the tree key of the present inputs (R475); they are absent without a Vault root. -/
def deriveVault (s : State) : State :=
  if s.vigil.root.isNone || s.cruc.root == .none then dropSystem 3 (dropSystem 2 (dropSystem 1 s))
  else
    let s1 := putSystem 1 (vaultKeyOf s s.ldg.vkeyGen) s
    let s2 := if s.ldg.reseal then putSystem 2 (vaultKeyOf s (s.ldg.vkeyGen - 1)) s1 else dropSystem 2 s1
    putSystem 3 (systemKey s "TREE_KEY" (s.vigil.root.getD [] ++ natLe 4 s.ldg.treeEpoch)) s2

/-- Loads the attestation secrets that open under STORE_KEY into slots 8 to 15 (R363, R369). -/
def loadSecrets (s : State) : State :=
  (List.range 8).foldl (fun t v =>
    let env := tget t.ldg.envs [] v
    let alg := leAt env 2 1
    match (if 1 ≤ alg && alg ≤ 3 then envOpen (t.sysKey 4).key 5 alg (keyBytes (alg - 1)) env else none) with
    | some k => putSystemBits (8 + v) (alg - 1) k t
    | none => dropSystem (8 + v) t) s

/-- Loads a root into slot 0, derives system slots 1 to 6 and loads the attestation secrets (R360, R363, R475). -/
def loadRoot (r : Root) (key : List Byte) (s : State) : State :=
  let s1 := putSystem 0 key (s.modCruc fun c => { c with root := r, rootKey := key, debug := r == .tin })
  let s2 := putSystem 4 (systemKey s1 "STOREKEY" []) s1
  let s3 := putSystem 6 (systemKey s2 "LEDGRKEY" []) (putSystem 5 (systemKey s2 "PROV_KEY" []) s2)
  loadSecrets (deriveVault s3)

/-- Derives an instance key into its slot from an epoch (R364, R408): a slot whose record is VALID with its key absent keeps its
recorded GEN, any other installation advances it. -/
def putInstKey (n epoch : Nat) (s : State) : State :=
  let key := kdf s.cruc.rootKey 1 [] (byte n :: natLe 4 epoch) 32
  drawn 16 <| s.modParent n fun old =>
    { st := .valid, kind := .inst, owner := n, depth := 1, bits := 2,
      gen := if old.st == .valid && old.absent then old.gen else (old.gen + 1) % 2 ^ 32,
      use := old.use, parent := rootHandle, pgen := (s.sysKey 0).gen, wraps := resumeWraps s key, key := key,
      seed := drawBytes s 16 }

/-- MI's instance key, while a root is loaded (R409). -/
def putMiKey (s : State) : State := if s.cruc.root == .none then s else recordSlot mi (putInstKey mi 0 s)

/-- Puts the counter area of the Ledger aside: in Test the block neither reads nor writes it, and counts from zero (R477). -/
def keepCounters (s : State) : State :=
  if s.ldg.kept.isSome then s
  else s.modLdg fun l =>
    { l with kept := some { vkeyGen := l.vkeyGen, treeEpoch := l.treeEpoch, cursor := l.cursor, reseal := l.reseal, epochs := l.epochs,
                            wraps := l.wraps, live := l.live },
             vkeyGen := 0, treeEpoch := 0, cursor := 0, reseal := false, epochs := [], wraps := [], live := {} }

/-- Debug enable (R363): a key clear, the Tin root and its keys, and Test; rings of another format stop (R106). -/
def enterTest (s : State) : State :=
  let s0 := keepCounters (clearKeys false false s)
  let s1 := loadRoot .tin (romRoot Config.tinRoot) s0
  let s2 := enterMode .test (s1.modModes fun m =>
    { m with prior := .vigil, cause := 0, eclipseDone := false, endAsked := false })
  scanEnabled (reformatRings s2)

end Sys2Proof.Machine
end

