-- ==== Sys2Proof/Machine/Schemes.lean ====
section
/-! DEFINITION. The public-key schemes of the Anvil units that work on integers (R326, R329 to R333): RSA, the NIST curves, X25519 and
X448, Ed25519 and Ed448, after the standards that those rules name (log entry 6). -/

namespace Sys2Proof.Machine

/-! ### Modular arithmetic -/

/-- `acc * b ^ e` modulo `m`, by squaring. -/
def powModGo (fuel m b e acc : Nat) : Nat :=
  match fuel with
  | 0 => acc
  | f + 1 => if e = 0 then acc else powModGo f m (b * b % m) (e / 2) (if e % 2 = 1 then acc * b % m else acc)

/-- `b ^ e` modulo `m`. -/
def powMod (m b e : Nat) : Nat := powModGo (Nat.log2 e + 1) m (b % m) e (1 % m)

/-- The inverse modulo a prime. -/
def invMod (p x : Nat) : Nat := powMod p x (p - 2)

/-- `a - b` modulo `m`. -/
def subMod (m a b : Nat) : Nat := (a % m + (m - b % m)) % m

/-! ### RSA (R326, R329) -/

/-- RSAEP: the public operation on an integer, k-byte result. -/
def rsaPublic (k n e m : Nat) : List Byte := natBe k (powMod n m e)

/-- RSADP by the Chinese remainder theorem. -/
def rsaPrivate (k p q dP dQ qInv m : Nat) : List Byte :=
  let m1 := powMod p m dP
  let m2 := powMod q m dQ
  natBe k (m2 + q * (subMod p m1 m2 * qInv % p))

/-- The prime of RSA's public exponent (R332). -/
def rsaE : Nat := 65537

/-- The inverse of 65,537 modulo a number that it does not divide. -/
def rsaInvE (m : Nat) : Nat := (1 + m * ((rsaE - invMod rsaE (m % rsaE)) % rsaE)) / rsaE

/-- Whether the bytes of a draw make a candidate for an RSA prime of `bits` bits beside the prime `p` already found, zero for none: odd, at
least √2 · 2^(bits − 1), and further than 2^(bits − 100) from `p` (R332; FIPS 186-5). -/
def rsaCandidate (bits p c : Nat) : Bool :=
  c % 2 == 1 && 2 ^ (2 * bits - 1) ≤ c * c && (p = 0 || 2 ^ (bits - 100) < max c p - min c p)

/-- Whether a candidate is left by the sieve of the odd numbers below 65,536, and prime to 65,537 after taking one from it (R332). -/
def rsaSieve (c : Nat) : Bool := (c - 1) % rsaE != 0 && (List.range 32767).all fun i => c % (2 * i + 3) != 0

/-- The squarings of a Miller-Rabin round: whether −1 comes up. -/
def millerGo (fuel n x : Nat) : Bool :=
  match fuel with
  | 0 => false
  | f + 1 => x == n - 1 || millerGo f n (x * x % n)

/-- How often two divides a number of so many bits. -/
def twos (fuel n : Nat) : Nat :=
  match fuel with
  | 0 => 0
  | f + 1 => if n % 2 = 0 then twos f (n / 2) + 1 else 0

/-- A Miller-Rabin round of an odd candidate on a base. -/
def millerRabin (n b : Nat) : Bool :=
  let a := twos (Nat.log2 n) (n - 1)
  let x := powMod n b ((n - 1) / 2 ^ a)
  x == 1 || millerGo a n x

/-- Miller-Rabin rounds for a prime of `bits` bits (FIPS 186-5; log entry 184). -/
def rsaRounds (bits : Nat) : Nat := if bits ≤ 1024 then 5 else 4

/-- The key pair of two primes, their order settled: public key and private key plaintext (R326). -/
def rsaPair (k p q : Nat) : List Byte × List Byte :=
  let x := max p q
  let y := min p q
  let h := natBe (k / 2)
  (natBe k (x * y) ++ natBe 32 rsaE,
   h x ++ h y ++ h (rsaInvE (x - 1)) ++ h (rsaInvE (y - 1)) ++ h (invMod x y) ++ natBe 32 rsaE)

/-- Whether the private exponent of two primes is as large as FIPS 186-5 asks. -/
def rsaExpOk (bits p q : Nat) : Bool := 2 ^ bits < rsaInvE (Nat.lcm (p - 1) (q - 1))

/-! ### The NIST curves (R330, R331) -/

/-- A short Weierstrass curve with coefficient −3: field, coefficient, order, base point, bytes of a coordinate. -/
structure Curve where
  p : Nat
  b : Nat
  n : Nat
  gx : Nat
  gy : Nat
  len : Nat
  deriving DecidableEq, Repr

/-- P-256. -/
def curve256 : Curve :=
  { p := 2 ^ 256 - 2 ^ 224 + 2 ^ 192 + 2 ^ 96 - 1,
    b := 0x5ac635d8aa3a93e7b3ebbd55769886bc651d06b0cc53b0f63bce3c3e27d2604b,
    n := 0xffffffff00000000ffffffffffffffffbce6faada7179e84f3b9cac2fc632551,
    gx := 0x6b17d1f2e12c4247f8bce6e563a440f277037d812deb33a0f4a13945d898c296,
    gy := 0x4fe342e2fe1a7f9b8ee7eb4a7c0f9e162bce33576b315ececbb6406837bf51f5, len := 32 }

/-- P-384. -/
def curve384 : Curve :=
  { p := 2 ^ 384 - 2 ^ 128 - 2 ^ 96 + 2 ^ 32 - 1,
    b := 0xb3312fa7e23ee7e4988e056be3f82d19181d9c6efe8141120314088f5013875ac656398d8a2ed19d2a85c8edd3ec2aef,
    n := 0xffffffffffffffffffffffffffffffffffffffffffffffffc7634d81f4372ddf581a0db248b0a77aecec196accc52973,
    gx := 0xaa87ca22be8b05378eb1c71ef320ad746e1d3b628ba79b9859f741e082542a385502f25dbf55296c3a545e3872760ab7,
    gy := 0x3617de4a96262c6f5d9e98bf9292dc29f8f41dbd289a147ce9da3113b5f0b8c00a60b1ce1d7e819d7a431d7c90ea0e5f, len := 48 }

/-- P-521. -/
def curve521 : Curve :=
  { p := 2 ^ 521 - 1,
    b := 0x51953eb9618e1c9a1f929a21a0b68540eea2da725b99b315f3b8b489918ef109e156193951ec7e937b1652c0bd3bb1bf073573df883d2c34f1ef451fd46b503f00,
    n := 0x1fffffffffffffffffffffffffffffffffffffffffffffffffffffffffffffffffa51868783bf2f966b7fcc0148f709a5d03bb5c9b8899c47aebb6fb71e91386409,
    gx := 0xc6858e06b70404e9cd9e3ecb662395b4429c648139053fb521f828af606b4d3dbaa14b5e77efe75928fe1dc127a2ffa8de3348b3c1856a429bf97e7e31c2e5bd66,
    gy := 0x11839296a789a3bc0045c8a5fb42c7d1bd998f54449579b446817afbd17273e662c97ee72995ef42640c550b9013fad0761353c7086a272c24088be94769fd16650,
    len := 66 }

/-- The curve of an ECDSA or ECDH code. -/
def curveOf (a : Nat) : Curve :=
  if a = 0x10 || a = 0x14 then curve256 else if a = 0x11 || a = 0x15 then curve384 else curve521

/-- A point of a curve: none is the identity. -/
abbrev Point := Option (Nat × Nat)

/-- Whether a pair lies on a curve. -/
def onCurve (c : Curve) (x y : Nat) : Bool :=
  x < c.p && y < c.p && y * y % c.p == ((x * x + (c.p - 3)) * x + c.b) % c.p

/-- The sum of two points. -/
def ptAdd (c : Curve) (a b : Point) : Point :=
  match a, b with
  | none, q => q
  | q, none => q
  | some (x1, y1), some (x2, y2) =>
    if x1 = x2 && (y1 + y2) % c.p = 0 then none
    else
      let l := if x1 = x2 then (3 * x1 * x1 + (c.p - 3)) * invMod c.p (2 * y1) % c.p
        else subMod c.p y2 y1 * invMod c.p (subMod c.p x2 x1) % c.p
      let x := subMod c.p (l * l) (x1 + x2)
      some (x, subMod c.p (l * subMod c.p x1 x) y1)

/-- `acc + k · q`. -/
def ptMulGo (fuel : Nat) (c : Curve) (k : Nat) (q acc : Point) : Point :=
  match fuel with
  | 0 => acc
  | f + 1 => if k = 0 then acc else ptMulGo f c (k / 2) (ptAdd c q q) (if k % 2 = 1 then ptAdd c acc q else acc)

/-- A multiple of a point. -/
def ptMul (c : Curve) (k : Nat) (q : Point) : Point := ptMulGo (Nat.log2 k + 1) c k q none

/-- The base point. -/
def Curve.g (c : Curve) : Point := some (c.gx, c.gy)

/-- An uncompressed point as bytes. -/
def ptBytes (c : Curve) (q : Point) : List Byte :=
  match q with
  | none => []
  | some (x, y) => [4] ++ natBe c.len x ++ natBe c.len y

/-- The point that bytes encode, none where it is not a valid uncompressed point (R326, R328). -/
def ptOfBytes (c : Curve) (l : List Byte) : Point :=
  let x := beNat (bytesAt l 1 c.len)
  let y := beNat (bytesAt l (1 + c.len) c.len)
  if l.length = 1 + 2 * c.len && leAt l 0 1 = 4 && onCurve c x y then some (x, y) else none

/-- The leftmost bits of a string, up to the bit length of the order. -/
def bitsToInt (c : Curve) (l : List Byte) : Nat := beNat l / 2 ^ (8 * l.length - (Nat.log2 c.n + 1))

/-- An ECDSA signature with a per-message secret: none where r or s is zero. -/
def ecdsaWith (c : Curve) (d z k : Nat) : Option (List Byte) :=
  match ptMul c k c.g with
  | none => none
  | some (x, _) =>
    let r := x % c.n
    let s := invMod c.n k * (z + r * d) % c.n
    if k = 0 || r = 0 || s = 0 then none else some (natBe c.len r ++ natBe c.len s)

/-- HMAC of a key and a message. -/
def hmacOf (h : Nat) (key msg : List Byte) : List Byte := hmacFrom h (hmacStates h key) msg

/-- Bytes of the generator of deterministic ECDSA: so many more blocks. -/
def detBlocks (fuel h : Nat) (k v : List Byte) : List Byte × List Byte :=
  match fuel with
  | 0 => ([], v)
  | f + 1 =>
    let v1 := hmacOf h k v
    let r := detBlocks f h k v1
    (v1 ++ r.1, r.2)

/-- Deterministic ECDSA: candidates until one gives a signature. -/
def detTry (fuel : Nat) (c : Curve) (h d z : Nat) (k v : List Byte) : Option (List Byte) :=
  match fuel with
  | 0 => none
  | f + 1 =>
    let t := detBlocks (ceilDiv c.len (hmacLen h)) h k v
    let cand := bitsToInt c (t.1.take (c.len))
    let cand1 := if c.len = 66 then beNat (t.1.take 66) / 2 ^ 7 else cand
    let got := if 0 < cand1 && cand1 < c.n then ecdsaWith c d z cand1 else none
    match got with
    | some s => some s
    | none =>
      let k1 := hmacOf h k (t.2 ++ [0])
      detTry f c h d z k1 (hmacOf h k1 t.2)

/-- Deterministic ECDSA of a digest: none where no candidate of 256 gives a signature (R330; log entry 183). -/
def ecdsaDet (c : Curve) (h d : Nat) (digest : List Byte) : Option (List Byte) :=
  let z := bitsToInt c digest
  let x := natBe c.len d ++ natBe c.len (z % c.n)
  let v0 : List Byte := List.replicate (hmacLen h) 1
  let k1 := hmacOf h (zeros (hmacLen h)) (v0 ++ [0] ++ x)
  let v1 := hmacOf h k1 v0
  let k2 := hmacOf h k1 (v1 ++ [1] ++ x)
  detTry 256 c h d z k2 (hmacOf h k2 v1)

/-- Verification of an ECDSA signature on a digest (R328, R330). -/
def ecdsaVerify (c : Curve) (q : Point) (digest sig : List Byte) : Bool :=
  let r := beNat (bytesAt sig 0 c.len)
  let s := beNat (bytesAt sig c.len c.len)
  let w := invMod c.n s
  if r = 0 || r ≥ c.n || s = 0 || s ≥ c.n then false
  else
    match ptAdd c (ptMul c (bitsToInt c digest * w % c.n) c.g) (ptMul c (r * w % c.n) q) with
    | none => false
    | some (x, _) => x % c.n == r

/-! ### X25519 and X448 (R331) -/

/-- The field of Curve25519. -/
def p25519 : Nat := 2 ^ 255 - 19
/-- The field of Curve448. -/
def p448 : Nat := 2 ^ 448 - 2 ^ 224 - 1

/-- The state of a Montgomery ladder. -/
structure Ladder where
  x2 : Nat
  z2 : Nat
  x3 : Nat
  z3 : Nat
  deriving DecidableEq, Repr

/-- One step of the ladder on a bit (RFC 7748). -/
def ladderStep (p a24 x1 : Nat) (s : Ladder) (b : Bool) : Ladder :=
  let t := if b then { x2 := s.x3, z2 := s.z3, x3 := s.x2, z3 := s.z2 } else s
  let a := (t.x2 + t.z2) % p
  let aa := a * a % p
  let m := subMod p t.x2 t.z2
  let bb := m * m % p
  let e := subMod p aa bb
  let da := subMod p t.x3 t.z3 * a % p
  let cb := (t.x3 + t.z3) * m % p
  let u : Ladder := { x3 := (da + cb) * (da + cb) % p, z3 := x1 * (subMod p da cb * subMod p da cb % p) % p, x2 := aa * bb % p,
                      z2 := e * (aa + a24 * e) % p }
  if b then { x2 := u.x3, z2 := u.z3, x3 := u.x2, z3 := u.z2 } else u

/-- The u-coordinate of a multiple, from the scalar's top bit down. -/
def ladder (p a24 bits k u : Nat) : Nat :=
  let s := (List.range bits).foldl (fun s i => ladderStep p a24 u s (k.testBit (bits - 1 - i)))
    { x2 := 1, z2 := 0, x3 := u, z3 := 1 }
  s.x2 * invMod p s.z2 % p

/-- A scalar clamped as RFC 7748 gives. -/
def clamp25519 (k : Nat) : Nat := k % 2 ^ 254 / 8 * 8 + 2 ^ 254
/-- The same for Curve448. -/
def clamp448 (k : Nat) : Nat := k % 2 ^ 447 / 4 * 4 + 2 ^ 447

/-- X25519 of a scalar and a u-coordinate. -/
def x25519 (k u : List Byte) : List Byte :=
  natLe 32 (ladder p25519 121665 255 (clamp25519 (leNat k)) (leNat u % 2 ^ 255 % p25519))

/-- X448 of a scalar and a u-coordinate. -/
def x448 (k u : List Byte) : List Byte := natLe 56 (ladder p448 39081 448 (clamp448 (leNat k)) (leNat u % p448))

/-! ### EdDSA (R333) -/

/-- An Edwards curve with its encoding length and hash. -/
structure EdCurve where
  p : Nat
  a : Nat
  d : Nat
  bx : Nat
  byy : Nat
  l : Nat
  len : Nat
  deriving DecidableEq, Repr

/-- edwards25519. -/
def ed25519 : EdCurve :=
  { p := p25519, a := p25519 - 1, d := subMod p25519 0 (121665 * invMod p25519 121666),
    bx := 0x216936d3cd6e53fec0a4e231fdd6dc5c692cc7609525a7b2c9562d608f25d51a, byy := 4 * invMod p25519 5 % p25519,
    l := 2 ^ 252 + 27742317777372353535851937790883648493, len := 32 }

/-- edwards448. -/
def ed448 : EdCurve :=
  { p := p448, a := 1, d := p448 - 39081,
    bx := 224580040295924300187604334099896036246789641632564134246125461686950415467406032909029192869357953282578032075146446173674602635247710,
    byy := 298819210078481492676017930443930673437544040154080242095928241372331506189835876003536878655418784733982303233503462500531545062832660,
    l := 2 ^ 446 - 13818066809895115352007386748515426880336692474882178609894547503885, len := 57 }

/-- The sum of two points of an Edwards curve. -/
def edAdd (c : EdCurve) (u v : Nat × Nat) : Nat × Nat :=
  let t := c.d * u.1 % c.p * v.1 % c.p * u.2 % c.p * v.2 % c.p
  ((u.1 * v.2 + u.2 * v.1) * invMod c.p (1 + t) % c.p,
   subMod c.p (u.2 * v.2) (c.a * u.1 % c.p * v.1) * invMod c.p (subMod c.p 1 t) % c.p)

/-- `acc + k · q`. -/
def edMulGo (fuel : Nat) (c : EdCurve) (k : Nat) (q acc : Nat × Nat) : Nat × Nat :=
  match fuel with
  | 0 => acc
  | f + 1 => if k = 0 then acc else edMulGo f c (k / 2) (edAdd c q q) (if k % 2 = 1 then edAdd c acc q else acc)

/-- A multiple of a point. -/
def edMul (c : EdCurve) (k : Nat) (q : Nat × Nat) : Nat × Nat := edMulGo (Nat.log2 k + 1) c k q (0, 1)

/-- The encoding of a point (RFC 8032). -/
def edBytes (c : EdCurve) (q : Nat × Nat) : List Byte := natLe c.len (q.2 + q.1 % 2 * 2 ^ (8 * c.len - 1))

/-- A square root in the field, where there is one. -/
def edRoot (c : EdCurve) (x2 : Nat) : Option Nat :=
  let r := if c.p % 4 = 3 then powMod c.p x2 ((c.p + 1) / 4) else powMod c.p x2 ((c.p + 3) / 8)
  let r1 := if r * r % c.p = x2 % c.p then r else r * powMod c.p 2 ((c.p - 1) / 4) % c.p
  if r1 * r1 % c.p = x2 % c.p then some r1 else none

/-- The point that bytes encode, canonical encodings only (R333). -/
def edOfBytes (c : EdCurve) (l : List Byte) : Option (Nat × Nat) :=
  let n := leNat l
  let y := n % 2 ^ (8 * c.len - 1)
  let sign := n / 2 ^ (8 * c.len - 1)
  if y ≥ c.p then none
  else
    match edRoot c (subMod c.p 1 (y * y) * invMod c.p (subMod c.p c.a (c.d * (y * y % c.p)))) with
    | none => none
    | some x => if x = 0 && sign = 1 then none else some (if x % 2 = sign then x else c.p - x, y)

/-- The hash of EdDSA: SHA-512, or SHAKE256 with the prefix of Ed448. -/
def edHash (c : EdCurve) (dom : Bool) (l : List Byte) : List Byte :=
  if c.len = 32 then sha512 l else shake 136 ((if dom then ascii "SigEd448" ++ [0, 0] else []) ++ l) 114

/-- The secret scalar of a seed's hash. -/
def edScalar (c : EdCurve) (h : List Byte) : Nat :=
  if c.len = 32 then clamp25519 (leNat (h.take 32)) else clamp448 (leNat (h.take 56))

/-- The public key of a seed. -/
def edPublic (c : EdCurve) (seed : List Byte) : List Byte := edBytes c (edMul c (edScalar c (edHash c false seed)) (c.bx, c.byy))

/-- An EdDSA signature. -/
def edSign (c : EdCurve) (seed msg : List Byte) : List Byte :=
  let h := edHash c false seed
  let a := edScalar c h
  let pub := edBytes c (edMul c a (c.bx, c.byy))
  let r := leNat (edHash c true (h.drop c.len ++ msg)) % c.l
  let rb := edBytes c (edMul c r (c.bx, c.byy))
  let k := leNat (edHash c true (rb ++ pub ++ msg)) % c.l
  rb ++ natLe c.len ((r + k * a) % c.l)

/-- Verification of an EdDSA signature, without the cofactor. -/
def edVerify (c : EdCurve) (pub msg sig : List Byte) : Bool :=
  let s := leNat (sig.drop c.len)
  match edOfBytes c pub, edOfBytes c (sig.take c.len) with
  | some a, some r =>
    let k := leNat (edHash c true (sig.take c.len ++ pub ++ msg)) % c.l
    s < c.l && edMul c s (c.bx, c.byy) == edAdd c r (edMul c k a)
  | _, _ => false

end Sys2Proof.Machine
end

