-- ==== Sys2Proof/Machine/Ports.lean ====
section
/-! DEFINITION. The commands of the Time Port (R59 to R61), the port clocks (R71), the Supply Request Port (R63, R64), the TAP
(R83, R492) and the fault message (R503). -/

namespace Sys2Proof.Machine

/-! ### Time Port (R59 to R61, R455) -/

/-- Sets the calendar to a time in nanoseconds (R455). -/
def setCalendar (t : Nat) (s : State) : State :=
  s.modVigil fun v => { v with sec := t / 1000000000, frac := t % 1000000000 * 32768 / 1000000000 }

/-- Declares TIME_LOST with the bit of its cause; while it holds already, the check for good edges starts again (R60,
R61, R74). -/
def timeLost (cause : Nat) (s : State) : State :=
  let s1 := portFault cause (s.modTime fun t => { t with goodEdges := 0 })
  if s.time.lost then s1 else portEvent 0 (portFault (2 ^ 18) (s1.modTime fun t => { t with lost := true }))

/-- Whether a decrease of the Time Port is the one that CLOCK_SET permits: at most 1 s, within 2 s of second P0 (R481). -/
def leapAllowed (s : State) (tod : Nat) : Bool :=
  match s.time.leap with
  | none => false
  | some p0 => s.time.lastTod - tod ≤ 1000000000 && p0 * 1000000000 ≤ now s && now s ≤ (p0 + 2) * 1000000000

/-- A sample of the Time Port (R59, R60). -/
def todSample (sec ns : Nat) (s : State) : State :=
  let tod := sec * 1000000000 + ns
  let take := fun (t : State) => t.modTime fun x => { x with lastTod := tod, now := if x.lost then x.now else tod }
  if ns ≥ 1000000000 then timeLost (2 ^ 16) s
  else if tod < s.time.lastTod then
    if leapAllowed s tod then take (s.modTime fun x => { x with leap := none })
    else (timeLost (2 ^ 16) s).modTime fun x => { x with lastTod := tod }
  else take s

/-- TP_TOD_SAMPLE (R60). -/
def execTpTodSample (sec : BitVec 48) (ns : BitVec 32) (s : State) : Out :=
  .next (if powered s && s.port.clkOk.toNat.testBit 4 then fltServe (todSample sec.toNat ns.toNat s) else s)

/-- An aligned edge: the calendar follows the time base, or the second good edge ends TIME_LOST and steps the time
base (R61, R455). -/
def ppsGood (s : State) : State :=
  if !s.time.lost then setCalendar s.time.now s
  else if s.time.goodEdges + 1 < 2 then s.modTime fun t => { t with goodEdges := t.goodEdges + 1 }
  else
    portEvent 1 (setCalendar s.time.lastTod (s.modTime fun t =>
      { t with lost := false, goodEdges := 0, now := t.lastTod }))

/-- TP_PPS_EDGE (R60, R61). -/
def execTpPpsEdge (aligned : Bool) (s : State) : Out :=
  .next (if !powered s || !s.port.clkOk.toNat.testBit 4 then s else if aligned then ppsGood s else timeLost (2 ^ 17) s)

/-- TP_PPS_MISSING (R60): no edge for 1.5 s. -/
def execTpPpsMissing (s : State) : Out := .next (if powered s then timeLost (2 ^ 17) s else s)

/-! ### Port clocks (R71) -/

/-- A port clock has stopped (R60, R71). -/
def clockStop (k : Nat) (s : State) : State :=
  if !powered s || !s.port.clkOk.toNat.testBit k then s
  else
    let s1 := portFault (2 ^ k) (s.modPort fun p => { p with clkOk := p.clkOk &&& ~~~(BitVec.ofNat 6 (2 ^ k)) })
    let s2 := if k ≤ 1 then hmpFail k s1 else if k = 4 then timeLost 0 s1 else s1
    conclude (portEvent 6 s2)

/-- TP_CLOCK_STOPPED (R60). -/
def execTpClockStopped (s : State) : Out := .next (clockStop 4 s)

/-- PORT_CLOCK_STOP (R71). -/
def execPortClockStop (clk : Fin 6) (s : State) : Out := .next (clockStop clk.val s)

/-- PORT_CLOCK_RETURN (R71, R73): the monitor sees the clock run again. -/
def execPortClockReturn (clk : Fin 6) (s : State) : Out :=
  .next (if !powered s || s.port.clkOk.toNat.testBit clk.val then s
    else conclude (portEvent 7 (s.modPort fun p => { p with clkOk := p.clkOk ||| BitVec.ofNat 6 (2 ^ clk.val) })))

/-! ### Supply requests (R63, R64, R235) -/

/-- Whether Bellows may issue a request: the handshake idle, no timeout pending, the outputs not clamped (R63, R64). -/
def srpFree (s : State) : Bool :=
  !s.port.srpReq && !s.port.srpAck && !s.port.fault.toNat.testBit 19 && !s.port.clamped

/-- Requests a supply code (R63). -/
def srpRequest (code : Nat) (s : State) : State :=
  if srpFree s then s.modPort fun p => { p with srpReq := true, srpCode := code } else s

/-- SRP_ACK_RISE (R63): the supply has reached the code; without a request only the level of the pin changes. -/
def execSrpAckRise (s : State) : Out :=
  .next (if s.port.srpReq && !s.port.srpAck then
      (s.modPort fun p => { p with srpReq := false, srpAck := true }).modBlw fun b => { b with code := s.port.srpCode }
    else s.modPort fun p => { p with srpAck := true })

/-- SRP_ACK_FALL (R63): the request ends. A Bellows that faulted during it requests code 0x18 now (R237). -/
def execSrpAckFall (s : State) : Out :=
  .next (if !s.port.srpAck then s
    else
      let s1 := s.modPort fun p => { p with srpAck := false }
      if s.fab.bellows.faulted && s.port.srpCode != 0x18 then srpRequest 0x18 s1 else s1)

/-- SRP_TIMEOUT (R64). -/
def execSrpTimeout (s : State) : Out :=
  .next (if s.port.srpReq && !s.port.srpAck then
      portEvent 5 (portFault (2 ^ 19) (s.modPort fun p => { p with srpReq := false }))
    else s)

/-- A write of GLB_PORT_FAULT clears the bits written 1 (R74). -/
def portFaultWrite (v : Word) (s : State) : State := s.modPort fun p => { p with fault := p.fault &&& ~~~v }

/-- SRP_TIMEOUT_CLEAR (R64). -/
def execSrpTimeoutClear (v : RapWord) (s : State) : Out :=
  .next (rapDo 0x108 v (fun s => if bit v.toNat 19 then portFaultWrite v.data s else s) s)

/-! ### The TAP (R83) -/

/-- What the boundary register captures of the pins whose levels the state holds (R83). -/
def scanBytes (s : State) : List Byte :=
  let p := s.port
  Config.boundaryScan [p.attReq, p.attAck, p.detReq, p.detAck, p.zDriven, p.zExt, p.srpReq, p.srpAck, p.clamped]

/-- Whether an instruction that takes the pins takes effect: in lifecycle MANUFACTURE or in Test (R83). -/
def tapPinsAllowed (s : State) : Bool := s.life == .manufacture || s.modes.mode == .test

/-- An instruction of the TAP with what it shifts out. -/
def tapLoad (ir : TapIr) (out : List Byte) (s : State) : State :=
  if powered s then s.modPort fun p => { p with tapIr := ir, tapPins := false, tapOut := out } else s

/-- An instruction that takes the pins, or a TAPINTR event where it is refused (R83). -/
def tapPin (ir : TapIr) (s : State) : State :=
  if !powered s then s
  else if tapPinsAllowed s then
    s.modPort fun p => { p with tapIr := ir, tapPins := true, tapOut := if ir == .extest then scanBytes s else [] }
  else conclude (occurrence 15 (tapLoad ir [] s))

/-- BYPASS (R83). -/
def execBypass (s : State) : Out := .next (tapLoad .bypass [] s)

/-- IDCODE (R83): version 0x3, part number 0xA032, the manufacturer identity and the leading 1 of IEEE 1149.1. -/
def execIdcode (s : State) : Out :=
  .next (tapLoad .idcode (natLe 4 (1 + Config.manufacturer % 2 ^ 11 * 2 + 0xA032 * 2 ^ 12 + 3 * 2 ^ 28)) s)

/-- SAMPLE/PRELOAD (R83). -/
def execSamplePreload (s : State) : Out := .next (tapLoad .samplePreload (scanBytes s) s)

/-- EXTEST (R83). -/
def execExtest (s : State) : Out := .next (tapPin .extest s)

/-- CLAMP (R83). -/
def execClamp (s : State) : Out := .next (tapPin .clamp s)

/-- HIGHZ (R83). -/
def execHighz (s : State) : Out := .next (tapPin .highz s)

/-- The lifecycle byte of R374. -/
def lifeCode (s : State) : Nat :=
  match s.life with
  | .manufacture => 0 | .deployed => 1 | .terminated => 2

/-- Whether the DRBG gives output. -/
def drbgUp (s : State) : Bool := s.anv.drbg == .running || s.anv.drbg == .single

/-- DBG_CHALLENGE (R492): 48 fresh bytes, or zeros after three refusals and while the DRBG gives no nonce. -/
def execDbgChallenge (s : State) : Out :=
  .next (if !powered s then s
    else if s.glb.dbgLocked || !drbgUp s then
      (tapLoad .challenge (zeros 48) s).modGlb fun g => { g with challenge := none }
    else
      let b := drawBytes s 32 ++ natLe 8 Config.serial ++ [byte (lifeCode s)] ++ zeros 7
      drawn 32 ((tapLoad .challenge b s).modGlb fun g => { g with challenge := some { bytes := b, time := now s } }))

/-- Whether a debug response is accepted (R492). -/
def dbgAccepted (resp : List Byte) (s : State) : Bool :=
  match s.glb.challenge with
  | none => false
  | some c =>
    Config.dbgKeyHash != 0 && s.anv.up != 0 && now s - c.time ≤ 10000000000
      && leNat (sha384 (resp.take 97)) == Config.dbgKeyHash
      && ecdsaVerify curve384 (ptOfBytes curve384 (resp.take 97)) (sha384 c.bytes) (resp.drop 97)

/-- The modes in which a debug response can be accepted (R485). -/
def dbgModes (s : State) : Bool := powered s && s.modes.mode != .test && !inTest s && !s.modes.halted

/-- DBG_RESPONSE (R363, R492): accepted, or a TAPINTR event that counts towards the lock. -/
def execDbgResponse (resp : List Byte) (s : State) : Out :=
  .next (if !dbgModes s then s
    else
      let s1 := (tapLoad .response [] s).modGlb fun g => { g with challenge := none }
      if dbgAccepted resp s then conclude (enterTest s1)
      else conclude (occurrence 15 (s1.modGlb fun g =>
        { g with dbgFails := min 3 (g.dbgFails + 1), dbgLocked := g.dbgLocked || g.dbgFails + 1 ≥ 3 })))

/-! ### The fault message (R503) -/

/-- FAULT_MSG_HOLDOFF (R503): the 10 µs end, and one message covers the events they held. -/
def execFaultMsgHoldoff (s : State) : Out :=
  .next (if !s.modes.msgHeld then s
    else
      let s1 := s.modModes fun m => { m with msgHeld := false, msgOwed := false }
      if s.modes.msgOwed then conclude (faultMsg s1) else s1)

end Sys2Proof.Machine
end

