-- ==== Sys2Proof/Machine/Lanes.lean ====
section
/-! DEFINITION. Work on the lanes and pipes: the token slots it takes (R216), the load of lanes, Forges and pipes (R222, R305), where new
work goes, and work that waits for a place or goes back to its last saved state (R22, R227 to R229, R313, R316, R322). -/

namespace Sys2Proof.Machine

/-! ### Logical Forges -/

/-- Physical Forge of a logical one, 15 for none (R232). -/
def State.phys (s : State) (l : Nat) : Nat := s.fab.map.getD l 15

/-- Whether a logical Forge has a physical one that is active. -/
def logicalUp (s : State) (l : Nat) : Bool := s.phys l < 9 && (s.forge (s.phys l)).st == .active

/-- Whether the lanes of a logical Forge run what stands on them: its Forge is active or retiring, and no failover has begun
(R225 to R227). -/
def logicalRuns (s : State) (l : Nat) : Bool :=
  s.phys l < 9 && ((s.forge (s.phys l)).st == .active || (s.forge (s.phys l)).st == .retiring) && !(s.forge (s.phys l)).failing

/-- Whether a logical Forge takes new work: active, not draining and not failing over (R222, R227, R234). -/
def takesWork (s : State) (l : Nat) : Bool :=
  logicalUp s l && !(s.forge (s.phys l)).draining && !(s.forge (s.phys l)).failing

/-- Logical Forges with a physical one, gated ones included. -/
def mappedForges (s : State) : List Nat := (List.range 8).filter fun l => s.phys l < 9

/-! ### Token slots (R216) -/

/-- The least token slots that a job occupies by its algorithm (R216): 12 for AES-GCM and MACsec, 16 for ChaCha20-Poly1305, 4
for the rest. -/
def slotFloor (kind : Nat) : Nat :=
  if kind = 1 || isMacsec kind || kind = 0x10 || kind = 0x11 then 12
  else if kind = 2 || kind = 0x12 || kind = 0x13 then 16
  else 4

/-- Token slots of an input stream of `n` bytes under a context kind (R216). -/
def tokenSlots (kind n : Nat) : Nat := max (ceilDiv n 16) (slotFloor kind)

/-- Bytes of an operation's input stream: its AAD and text, or its frame (R200). -/
def Job.stream (j : Job) : Nat :=
  if isSym j.opc then symAad j.body + symText j.body
  else if !isFrame j.opc then 0
  else if j.frame.isEmpty then frLen j.body
  else j.frame.length

/-- Whether an operation stands between two of its segments. -/
def Job.mid (j : Job) : Bool := j.phase == .computed && j.comet.isNone && j.segDone < j.segs

/-- Token slots an operation still has to pass. -/
def Job.tokens (j : Job) : Nat :=
  if j.phase == .reading then tokenSlots j.kind j.stream else if j.mid then ceilDiv (j.stream - 4096 * j.segDone) 16 else 0

/-- Text bytes that a stripe still has to pass. -/
def stripeLeft (text lanes : Nat) (p : StripePos) : Nat :=
  let n := cometChunks text
  if p.chunk ≥ n then 0
  else 16384 * ceilDiv (n - p.chunk) lanes - 4096 * p.seg - (if (n - 1 - p.chunk) % lanes = 0 then 16384 * n - text else 0)

/-! ### What stands on a lane -/

/-- Work that stands on a lane: an operation, or one stripe of a Comet job. `mid` holds once it has begun, `cbc` for a CBC encryption. -/
structure LaneRun where
  tag : Nat
  stripe : Nat := 0
  place : Place
  saved : Bool
  slotIx : Nat
  mid : Bool
  cbc : Bool := false
  tokens : Nat
  deriving DecidableEq, Repr

/-- Whether an operation enciphers in CBC, whose jobs a lane interleaves (R217). -/
def Job.cbcEnc (j : Job) : Bool := (j.opc = 0x10 && j.kind = 4) || (j.opc = 0x22 && j.kind / 2 = 0xA)

/-- What an operation has on the lanes. -/
def Job.runs (j : Job) : List LaneRun :=
  if j.phase == .held || j.phase == .finished then []
  else
    match j.comet with
    | some c => c.stripes.zipIdx.map fun x =>
        { tag := j.tag, stripe := x.2, place := x.1.place, saved := x.1.saved, slotIx := x.1.slotIx,
          mid := j.phase == .computed && !x.1.fin && !x.1.saved && x.1.pos != { chunk := x.2 },
          tokens := if x.1.fin then 0 else ceilDiv (stripeLeft (symText j.body) c.lanes x.1.pos) 16 }
    | none =>
      match j.place with
      | .lane _ _ => [{ tag := j.tag, place := j.place, saved := j.saved, slotIx := j.slotIx, mid := j.mid && !j.saved, cbc := j.cbcEnc,
                        tokens := j.tokens }]
      | _ => []

/-- Whether an operation, or a stripe of it, is saved. -/
def Job.resting (j : Job) : Bool := j.saved || (j.comet.map fun c => c.stripes.any Stripe.saved).getD false

/-- What stands on all lanes. -/
def laneRuns (s : State) : List LaneRun := (s.jobs.map Job.runs).flatten

/-- The logical Forge of a place on a lane. -/
def Place.forge? : Place → Option Nat
  | .lane l _ => some l
  | _ => Option.none

/-- The logical Forge of an operation's lane. -/
def Job.onForge (j : Job) : Option Nat := j.place.forge?

/-- Tokens queued on lane `k` of logical Forge `l`, of which a lane holds 32 (R222). -/
def laneLoad (s : State) (l k : Nat) : Nat :=
  min 32 (((laneRuns s).filter fun r => r.place == .lane l k && !r.saved).map LaneRun.tokens).sum

/-- Tokens queued on the lanes of logical Forge `l`. -/
def forgeLoad (s : State) (l : Nat) : Nat := ((List.range 4).map fun k => laneLoad s l k).sum

/-- The first of a list with the least measure. -/
def argMin (f : Nat → Nat) (l : List Nat) : Option Nat :=
  match l with
  | [] => none
  | a :: r => match argMin f r with
    | none => some a
    | some b => if f a ≤ f b then some a else some b

/-- The lane of logical Forge `l` with the fewest queued tokens. -/
def bestLane (s : State) (l : Nat) : Place := .lane l ((argMin (laneLoad s l) (List.range 4)).getD 0)

/-- Where new work goes: the active logical Forge with the fewest queued tokens, and its lane with the fewest (R222). -/
def pickLane (s : State) : Place :=
  match argMin (forgeLoad s) ((List.range 8).filter (takesWork s)) with
  | none => .none
  | some l => bestLane s l

/-- Whether a lane is free for work: nothing else stands on it between segments, but that CBC encryptions, up to 14 of them, interleave with
each other and with other work (R202, R217). -/
def laneFree (s : State) (tag : Nat) (cbc : Bool) (p : Place) : Bool :=
  let on := (laneRuns s).filter fun r => r.place == p && r.mid && r.tag != tag
  (cbc || on.all LaneRun.cbc) && on.length < 14

/-- The free lane of logical Forge `l` with the fewest queued tokens, for saved work that goes on (R202). -/
def freeLane (s : State) (tag : Nat) (cbc : Bool) (l : Nat) : Option Place :=
  (argMin (laneLoad s l) ((List.range 4).filter fun k => laneFree s tag cbc (.lane l k))).map fun k => .lane l k

/-- Whether the combiner of logical Forge `l` holds a Comet job, from its admission to its completion (R208). -/
def combinerBusy (s : State) (l : Nat) : Bool :=
  s.jobs.any fun j => j.phase != .finished && (j.comet.map fun c => c.holder == l).getD false

/-- Whether logical Forge `l` holds a token, job, saved state or combiner (R234). -/
def forgeBusy (s : State) (l : Nat) : Bool := combinerBusy s l || (laneRuns s).any fun r => r.place.forge? == some l

/-- Save slots of logical Forge `l` in use (R201). -/
def savesUsed (s : State) (l : Nat) : List Nat := ((laneRuns s).filter fun r => r.saved && r.place.forge? == some l).map LaneRun.slotIx

/-- A free save slot of logical Forge `l`, 0 to 31 (R201). -/
def freeSave (s : State) (l : Nat) : Option Nat := (List.range 32).find? fun k => !(savesUsed s l).contains k

/-! ### Pipes (R299, R303, R305, R313) -/

/-- Whether pipe `p` holds an operation: a digest job that has begun, or an encrypt-then-MAC frame from its placement on. -/
def Job.onPipe (j : Job) (p : Nat) : Bool :=
  !j.saved && ((j.mid && j.place == .pipe p)
    || (j.etm && j.pipe == some p && j.place != .none && (j.phase == .reading || j.mid)))

/-- Whether pipe `p` holds an operation other than `tag`. -/
def pipeBusy (s : State) (tag p : Nat) : Bool := s.jobs.any fun j => j.tag != tag && j.onPipe p

/-- Whether an encrypt-then-MAC frame waits for its reservation on pipe `p` (R313). -/
def reservationWaits (s : State) (p : Nat) : Bool :=
  s.jobs.any fun j => j.etm && j.pipe == some p && (j.place == .none || j.saved) && (j.phase == .reading || j.phase == .computed)

/-- Bytes that the ICV of an encrypt-then-MAC frame covers (R191, R314). -/
def Job.macBytes (j : Job) : Nat :=
  let c := j.adm
  let n := if j.opc = 0x22 then txOut c j.stream (frHdr j.body) - frHdr j.body - 16 else j.stream - frHdr j.body - 16
  n + if c.esn then 4 else 0

/-- Compressions or permutations that an operation still costs its pipe (R303). -/
def Job.pipeCost (j : Job) : Nat :=
  let done := j.eng.pos / j.sc.alg.block
  if j.etm then
    (if j.phase == .reading || j.mid then ceilDiv (j.macBytes + 9) 64 + 1 - (if j.mid then done else 0) else 0)
  else if !isDigestOp j.opc then 0
  else if j.phase == .reading then digestCost j.body j.hslot.isSome j.srcBuf.count
  else if j.mid then digestCost j.body j.hslot.isSome j.srcBuf.count - done - j.eng.dst / j.sc.alg.block
  else 0

/-- The pipe that an operation is queued on. -/
def Job.pipe? (j : Job) : Option Nat :=
  match j.place with
  | .pipe p => some p
  | _ => j.pipe

/-- Compressions or permutations queued on a pipe, measurements with them; the length of a listed message counts as far as its list is
walked (R303, R305). -/
def pipeLoad (s : State) (p : Nat) : Nat :=
  ((s.jobs.filter fun j => j.pipe? == some p && !j.saved).map Job.pipeCost).sum
    + ((s.dig.runs.filter fun r => r.pipe = p).map fun r => ceilDiv (r.len + 17) 128).sum

/-- The pipes in service. -/
def pipesUp (s : State) : List Nat := (List.range 8).filter fun p => s.dig.pipeUp.toNat.testBit p

/-- The pipe in service whose queue holds the fewest compressions (R305). -/
def leastPipe (s : State) : Option Nat := argMin (pipeLoad s) (pipesUp s)

/-- That pipe as a place. -/
def pickPipe (s : State) : Place :=
  match leastPipe s with
  | some p => .pipe p
  | none => .none

/-- Digest save slots in use (R305, R315). -/
def digestSaves (s : State) : List Nat :=
  (s.jobs.filter fun j => j.saved && isDigestOp j.opc).map (fun j => j.slotIx) ++ s.jobs.filterMap fun j => j.dslot

/-- A free digest save slot, 0 to 255 (R305). -/
def freeDigestSave (s : State) : Option Nat := (List.range 256).find? fun k => !(digestSaves s).contains k

/-! ### Keys of an operation (R201, R366) -/

/-- The key bytes of a context's slot. -/
def ctxKeyBytes (s : State) (e slot : Nat) : List Byte :=
  (s.ctxKey (ctxKeyIx e slot)).key.take (keyBytes (s.ctxAt e).keySize)

/-- Reads an operation's context keys from the Crucible: for XTS both halves, else the key of its slot and the other (R201). -/
def readKeys (s : State) (j : Job) : Job :=
  match j.ctxEnt with
  | none => j
  | some e =>
    if j.kind = 5 then { j with keyA := ctxKeyBytes s e 0, keyB := (s.ctxKey (ctxKeyIx e 1)).key.take (keyBytes j.adm.keySize) }
    else { j with keyA := ctxKeyBytes s e j.keySlot, keyB := ctxKeyBytes s e (1 - j.keySlot) }

/-! ### Placing work that waits -/

/-- Whether an operation runs on a lane. -/
def needsLane (j : Job) : Bool := !(isDigestOp j.opc || j.opc == 0x33 || isAnvil j.opc)

/-- An encrypt-then-MAC frame with a reservation: it names a pipe, another where its own is gone (R313). -/
def reserve (s : State) (j : Job) : Job :=
  if !j.etm then j
  else match j.pipe with
    | some p => if s.dig.pipeUp.toNat.testBit p then j else { j with pipe := leastPipe s }
    | none => { j with pipe := leastPipe s }

/-- Whether an operation's pipe lets it go on (R313). -/
def reserved (s : State) (j : Job) : Bool := !j.etm || (j.pipe.map fun p => !pipeBusy s j.tag p).getD false

/-- A saved operation back on a free lane of its Forge, its keys read again; where none is free it stays saved (R201, R202, R315). -/
def restored (s : State) (l : Nat) (j : Job) : Job :=
  match freeLane s j.tag j.cbcEnc l with
  | some p => readKeys s { j with saved := false, slotIx := 0, dslot := none, place := p }
  | none => j

/-- The pipe in service that is free for a saved digest job, with the fewest compressions in its queue (R305). -/
def freePipe (s : State) (tag : Nat) : Option Nat :=
  argMin (pipeLoad s) ((pipesUp s).filter fun p => !pipeBusy s tag p && !reservationWaits s p)

/-- Jobs queued in Anvil unit `u`, the one it runs with them (R324). -/
def unitLoad (s : State) (u : Nat) : Nat := (s.jobs.filter fun j => j.place == .unit u && j.phase == .reading).length

/-- The Anvil unit in service with the fewest jobs, where one has room in its queue of 64 (R324). -/
def pickUnit (s : State) : Place :=
  match argMin (unitLoad s) ((List.range 4).filter fun u => s.anv.up.toNat.testBit u && unitLoad s u < 64) with
  | some u => .unit u
  | none => .none

/-- Gives an operation that waits for a lane, a pipe or an Anvil unit its place, where there is one: new work, a resumed encrypt-then-MAC frame whose
pipe has become free, stripes that have lost their lane, and Anvil jobs that waited in the dispatcher for room in a queue (R324). -/
def placeOne (s : State) (j : Job) : State :=
  if !(j.phase == .reading || j.phase == .computed) || j.res.isSome then s
  else if isAnvil j.opc then (if j.place == .none then s.modJob j.tag fun x => { x with place := pickUnit s } else s)
  else if !needsLane j then s
  else
    match j.comet with
    | some c =>
      (List.range c.stripes.length).foldl (fun t i => t.modJob j.tag fun x =>
        { x with comet := x.comet.map fun d =>
          { d with stripes := d.stripes.modify i fun r => if r.place == .none then { r with place := pickLane t } else r } }) s
    | none =>
      let k := reserve s j
      if j.saved then
        match j.pipe, j.onForge with
        | some _, some l => s.modJob j.tag fun _ => if reserved s k then restored s l k else k
        | _, _ => s
      else if j.place == .none then s.modJob j.tag fun _ => if reserved s k then { k with place := pickLane s } else k
      else s

/-- Gives every operation that waits for a place one, the oldest first. -/
def placeWork (s : State) : State := s.jobs.foldl (fun t x => match t.job? x.tag with
  | some j => placeOne t j
  | none => t) s

/-! ### Replay (R22, R223, R227 to R229) -/

/-- An operation back at its last saved state, or at its first byte. -/
def Job.replay (j : Job) : Job := if j.mid then { j with segDone := j.back.1, eng := j.back.2, handed := false, outQ := [] } else j

/-- A stripe back at its last saved state (R211). -/
def Stripe.replay (x : Stripe) : Stripe := if x.fin then x else { x with pos := x.back, handed := false }

/-- An operation whose work on logical Forge `l` is issued again on the Forge that takes its number (R227). -/
def Job.reissue (l : Nat) (j : Job) : Job :=
  match j.comet with
  | some c => { j with comet := some { c with stripes := c.stripes.map fun x => if x.place.forge? == some l then x.replay else x } }
  | none => if j.onForge == some l then j.replay else j

/-- Issues the work of logical Forge `l` again. -/
def reissueForge (l : Nat) (s : State) : State := { s with jobs := s.jobs.map (Job.reissue l) }

/-- Takes an operation off logical Forge `l`, which has no physical Forge left (R229): its work waits for another lane, and a combiner lost
with it goes to the first surviving Forge of the job's set, else to the first Forge that takes work. -/
def Job.leave (s : State) (l : Nat) (j : Job) : Job :=
  let off : Stripe → Stripe := fun x =>
    if x.place.forge? == some l then { x.replay with place := .none, saved := false, slotIx := 0 } else x
  match j.comet with
  | some c =>
    let rest := c.forges.filter fun f => f != l && s.phys f < 9
    let next := (rest ++ (List.range 8).filter (takesWork s)).headD c.holder
    { j with comet := some { c with stripes := c.stripes.map off, forges := rest, holder := if c.holder = l then next else c.holder } }
  | none => if j.onForge == some l then
      (let x := { j.replay with place := .none, saved := false, slotIx := 0, dslot := none }
       if j.saved then readKeys s x else x) else j

/-- The work of logical Forge `l` leaves it. -/
def leaveForge (l : Nat) (s : State) : State := placeWork { s with jobs := s.jobs.map (Job.leave s l) }

end Sys2Proof.Machine
end

