-- ==== Sys2Proof/Machine/Forges.lean ====
section
/-! DEFINITION. Lanes, Forges and Bellows: placement (R206, R221, R222), faults and failover (R213, R214, R220, R225 to R232,
R525), Bellows (R233 to R237), the microcode rotation (R239, R240) and the rate windows (R219, R396). -/

namespace Sys2Proof.Machine

/-! ### The Forge map -/

/-- Maps logical Forge `l` to physical Forge `m`. -/
def setMap (l m : Nat) (s : State) : State := s.modFab fun b => { b with map := b.map.set l m }

/-- Whether physical Forge `m` is powered (BLW_STATUS.POWERED). -/
def forgePowered (f : Forge) : Bool := f.st == .active || f.st == .retiring || f.st == .restoring

/-- BLW_STATUS (R237); before Boot has powered the Forges, POWERED reads its reset value. -/
def blwStatus (s : State) : Nat :=
  s.fab.bellows.code
    + (if s.fab.booted then ((List.range 9).map fun m => 2 ^ (8 + m) * b2n (forgePowered (s.forge m))).sum else 0xFF * 2 ^ 8)
    + s.fab.bellows.limit * 2 ^ 24

/-! ### Commands that wait for a Forge -/

/-- Completes the command packet at a slot of the control ring that waits for its engines. -/
def packetDone (slot : Nat) (r : Res) (s : State) : State :=
  s.modOry fun o => { o with packets := o.packets.map fun p =>
    if p.slot = slot && p.res.isNone then { p with res := some r, waits := false } else p }

/-- Completes the packet that waits for physical Forge `m`. -/
def forgeCmdDone (m : Nat) (r : Res) (s : State) : State :=
  match (s.forge m).cmd with
  | none => s
  | some k => packetDone k r (s.modForge m fun f => { f with cmd := none })

/-- Posts a message in Orrery's mailbox of 32 words, or drops it with MBX_OVF (R482). -/
def postMail (code arg : Nat) (s : State) : State :=
  s.modOry fun o =>
    if o.mailbox.length < 32 then { o with mailbox := o.mailbox ++ [code + arg % 2 ^ 16 * 2 ^ 8] } else { o with mbxOvf := true }

/-- ROTATION_PAUSED, where a rotation is in progress and physical Forge `m` stops it (R240, R482). -/
def pauseRotation (m : Nat) (s : State) : State := if s.fab.rotation.isSome then postMail 3 m s else s

/-- UNSUPPORTED with MODE. -/
def modeBad : Res := res 5 4

/-! ### Failover (R227 to R229, R525) -/

/-- The spare that a failover or handover can take: SPARE and not already taking over. -/
def freeSpare (s : State) : Option Nat :=
  (List.range 9).find? fun m => (s.forge m).st == .spare && !(s.forge m).waking

/-- The spare that powers up to take logical Forge `l`. -/
def takingSpare (s : State) (l : Nat) : Option Nat :=
  (List.range 9).find? fun m => (s.forge m).st == .spare && (s.forge m).waking && (s.forge m).logical = l

/-- FRG_m_FAULT as the event log shows it (R231). -/
def frgFault (s : State) (m : Nat) : Nat := (s.forge m).fault + min 0xFFFF (s.forge m).failovers * 2 ^ 16

/-- Latches a fault of physical Forge `m` with the lane it names (R231). -/
def latchForge (m b : Nat) (lane : Option Nat) (s : State) : State :=
  s.modForge m fun f => { f with fault := f.fault ||| 2 ^ b ||| (match lane with
    | some k => 2 ^ (8 + k)
    | none => 0) }

/-- Counts a fault-driven move of a logical Forge away from physical Forge `m` (R231, R477). -/
def countFailover (m : Nat) (s : State) : State :=
  (s.modForge m fun f => { f with failovers := min 0xFFFF (f.failovers + 1) }).modLdg fun l =>
    let up := { l.live with failovers := tmod l.live.failovers 0 m fun n => min 0xFFFF (n + 1) }
    { l with live := up, saved := if inTest s then l.saved else { l.saved with failovers := up.failovers } }

/-- Logical Forge `l` is left without a physical one: its work moves to the others, or no Forge is left (R229, R499). -/
def loseLogical (l : Nat) (s : State) : State :=
  let s2 := leaveForge l (setMap l 15 s)
  if (List.range 8).any fun k => s2.phys k < 9 then s2 else blockFault 3 s2

/-- Physical Forge `m` is out of service for a fault. -/
def forgeFailed (m : Nat) (s : State) : State :=
  s.modForge m fun f => { f with st := .failed, failing := false, waking := false, draining := false, pend := false }

/-- Reports a Forge fault (R504, R520). -/
def reportForge (m : Nat) (s : State) : State := reportFault 1 (frgFault s m) m 0xFF s

/-- Physical Forge `m` becomes ACTIVE as logical Forge `l`, and work that waits for a lane is placed (R225). -/
def enterActive (m l : Nat) (s : State) : State :=
  placeWork ((setMap l m (s.modForge m fun f => { f with st := .active, waking := false, logical := l })).modFab fun b =>
    { b with lanes := tmap b.lanes {} fun n x => if n / 4 = m then { x with faults := 0, times := [], devs := 0 } else x })

/-- Physical Forge `m` takes logical Forge `l`, whose work is issued again (R225, R227). -/
def takeLogical (m l : Nat) (s : State) : State := enterActive m l (reissueForge l s)

/-- A fault ends a spare that was taking over logical Forge `l` of a Forge that failed or retires (R525). -/
def spareFailed (m : Nat) (s : State) : State :=
  let l := (s.forge m).logical
  let s1 := forgeFailed m s
  match (List.range 9).find? fun k => (s.forge k).failing && (s.forge k).logical = l with
  | some k => reportForge k (reportForge m (loseLogical l (forgeFailed k (countFailover k s1))))
  | none => reportForge m s1

/-- A fault of a retiring Forge: FAILED at once, its work goes where its handover was going (R525). -/
def retiringFailed (m : Nat) (s : State) : State :=
  let l := (s.forge m).logical
  let s1 := countFailover m s
  let s2 := match takingSpare s l with
    | some k => takeLogical k l s1
    | none => if s.phys l = m then loseLogical l s1 else s1
  reportForge m (forgeCmdDone m (res 0 0) (forgeFailed m s2))

/-- A fault of an active Forge: the spare powers up, or its logical Forge is left without one (R227, R229). -/
def activeFailed (m : Nat) (s : State) : State :=
  let l := (s.forge m).logical
  match freeSpare s with
  | some k => pauseRotation m ((s.modForge m fun f => { f with failing := true, draining := false }).modForge k fun f =>
      { f with waking := true, logical := l })
  | none => reportForge m (loseLogical l (forgeFailed m (countFailover m s)))

/-- A lane or Forge fault of physical Forge `m` of cause bit `b` (R227, R525). -/
def forgeFault (m b : Nat) (lane : Option Nat) (s : State) : State :=
  let f := s.forge m
  if f.st == .retired || f.st == .gated then s
  else
    let s1 := latchForge m b lane s
    if f.failing || f.st == .failed then reportForge m s1
    else
      match f.st with
      | .active => activeFailed m s1
      | .retiring => retiringFailed m s1
      | .restoring => reportForge m (forgeCmdDone m modeBad (forgeFailed m s1))
      | .spare =>
        if f.waking then spareFailed m s1
        else if s.fab.rotation.isSome then pauseRotation m (reportForge m (forgeFailed m s1))
        else s
      | _ => s1

/-- Whether physical Forge `m` runs lanes that can fault. -/
def forgeRuns (s : State) (m : Nat) : Bool :=
  powered s && (forgePowered (s.forge m) || ((s.forge m).st == .spare && ((s.forge m).waking || s.fab.rotation.isSome)))

/-- STAGE_FAULT (R213): the operation is replayed with an identical result; the third stage fault of the lane within 1 ms is a
lane fault. -/
def execStageFault (lane : LaneId) (s : State) : Out :=
  let n := lane.val
  .next (if !forgeRuns s (n / 4) then s
    else
      let t := now s
      let times := ((s.lane n).times.filter fun x => t - x < 1000000) ++ [t]
      let s1 := s.modLane n fun x => { x with faults := min 0xFF (x.faults + 1), times := if times.length ≥ 3 then [] else times }
      if times.length ≥ 3 then conclude (forgeFault (n / 4) 0 (some (n % 4)) s1) else s1)

/-- LANE_SELF_TEST (R214). -/
def execLaneSelfTest (lane : LaneId) (res : LaneTest) (s : State) : Out :=
  let n := lane.val
  .next (if !forgeRuns s (n / 4) then s
    else match res with
      | .pass => s
      | .mismatch => conclude (forgeFault (n / 4) 1 (some (n % 4)) s)
      | .residue => conclude (forgeFault (n / 4) 2 (some (n % 4)) s))

/-- Whether a busy lane's rate differs from its reference's by more than 15 % (R220); a lane that did no work shows none. -/
def rateDeviates (ref rate : Nat) : Bool := rate != 0 && ((if rate > ref then rate - ref else ref - rate) * 100 > 15 * ref)

/-- Whether a reference rate lies outside the band that calibration gives for a supply code and temperature (R220, R472). -/
def refOutside (s : State) (ref supply temp : Nat) : Bool :=
  let band := match tget s.ory.calib none (0x100 + supply) with
    | some w => (fld w.toNat 0 16, fld w.toNat 16 16)
    | none => Config.rateBand supply temp
  ref < band.1 || ref > band.2

/-- One lane's rate against its reference: the third deviation in a row is a fault (R220). -/
def rateLane (m k : Nat) (dev : Bool) (s : State) : State :=
  if !dev then s.modLane (4 * m + k) fun x => { x with devs := 0 }
  else if (s.lane (4 * m + k)).devs + 1 < 3 then s.modLane (4 * m + k) fun x => { x with devs := x.devs + 1 }
  else forgeFault m 5 (some k) (s.modLane (4 * m + k) fun x => { x with devs := 0 })

/-- RATE_CHECK (R220): the reference's rate, the busy rate of lane `k` in bits `16 k` upwards, and the supply (as the code whose band applies,
20 µs after a step) and temperature sensed. A lane that deviates three times in a row has a fault; a reference outside its band drives
HSRATE. -/
def execRateCheck (forge : ForgeId) (ref : BitVec 16) (m : RateSample) (s : State) : Out :=
  let n := forge.val
  let refOut := refOutside s ref.toNat m.supply.toNat m.temp.toNat
  .next (if !forgeRuns s n then s
    else
      let s1 := (List.range 4).foldl (fun t k => rateLane n k (rateDeviates ref.toNat (fld m.rates.toNat (16 * k) 16)) t) s
      let was := s1.fab.refOut != 0
      let s2 := s1.modFab fun b =>
        { b with refOut := if refOut then b.refOut ||| BitVec.ofNat 9 (2 ^ n) else b.refOut &&& ~~~(BitVec.ofNat 9 (2 ^ n)) }
      let is := s2.fab.refOut != 0
      conclude (if was = is then s2 else detectorChange 11 .a (.level is) s2))

/-- FORGE_FAILOVER_COMPLETE (R227): the spare's test has ended; with it passed the spare takes the logical Forge and the work,
and the faulted Forge is FAILED. -/
def execForgeFailoverComplete (forge : ForgeId) (ok : Bool) (s : State) : Out :=
  let m := forge.val
  let l := (s.forge m).logical
  .next (if !(s.forge m).failing then s
    else match takingSpare s l with
      | none => s
      | some k =>
        if ok then conclude (reportForge m (countFailover m (forgeFailed m (takeLogical k l s))))
        else conclude (spareFailed k (latchForge k 1 none s)))

/-! ### Retirement and restoration (R225, R226) -/

/-- Starts the retirement of an ACTIVE Forge: onto a spare, or without a replacement (R226). -/
def startRetire (m : Nat) (s : State) : State :=
  let l := (s.forge m).logical
  let s1 := s.modForge m fun f => { f with st := .retiring, draining := false }
  match freeSpare s with
  | some k => s1.modForge k fun f => { f with waking := true, logical := l }
  | none => s1

/-- Starts the restoration of a Forge. -/
def startRestore (m : Nat) (s : State) : State := s.modForge m fun f => { f with st := .restoring, pend := false }

/-- FORGE_RETIRE_COMPLETE (R225, R226, R232): the lanes have handed over. -/
def execForgeRetireComplete (forge : ForgeId) (s : State) : Out :=
  let m := forge.val
  let f := s.forge m
  .next (if f.st != .retiring then s
    else
      let s1 := match takingSpare s f.logical with
        | some k => takeLogical k f.logical s
        | none => if s.phys f.logical = m then loseLogical f.logical s else s
      let s2 := s1.modForge m fun x => { x with st := .retired, logical := 0 }
      let s3 := settleMode s2
      conclude (if f.pend then startRestore m s3 else forgeCmdDone m (res 0 0) s3))

/-- The version of the microcode image in force (R230, R474). -/
def mcodeVersion (s : State) : Nat := (if s.ldg.mActive then s.ldg.mB.version else s.ldg.mA.version) % 2 ^ 16

/-- FORGE_RESTORE_TEST_DONE (R225): SPARE, or ACTIVE where a logical Forge lacks a physical one, or FAILED. -/
def execForgeRestoreTestDone (forge : ForgeId) (ok : Bool) (s : State) : Out :=
  let m := forge.val
  .next (if (s.forge m).st != .restoring then s
    else if !ok then conclude (reportForge m (forgeCmdDone m modeBad (forgeFailed m s)))
    else
      let s1 := (s.modForge m fun f => { f with mcode := mcodeVersion s, failing := false }).modFab fun b =>
        { b with rotation := b.rotation.map fun r => { r with loaded := m :: r.loaded } }
      let s2 := match (List.range 8).find? fun l => s.phys l ≥ 9 with
        | some l => enterActive m l s1
        | none => s1.modForge m fun f => { f with st := .spare, logical := 0 }
      conclude (settleMode (forgeCmdDone m (res 0 0) s2)))

/-! ### Bellows (R233 to R237) -/

/-- Logical Forges that are active. -/
def activeForges (s : State) : List Nat := (List.range 8).filter (logicalUp s)

/-- Gated Forges' logical numbers, not already waking. -/
def gatedForges (s : State) : List Nat :=
  (List.range 8).filter fun l => s.phys l < 9 && (s.forge (s.phys l)).st == .gated && !(s.forge (s.phys l)).waking

/-- Powers up a gated Forge. -/
def wakeForge (l : Nat) (s : State) : State := s.modForge (s.phys l) fun f => { f with waking := true }

/-- Cancels every drain (R234). -/
def cancelDrains (s : State) : State :=
  s.modFab fun b => { b with forges := tmap b.forges {} fun _ f => { f with draining := false } }

/-- Wakes every gated Forge. -/
def wakeAll (s : State) : State := (gatedForges s).foldl (fun t l => wakeForge l t) (cancelDrains s)

/-- Bounds of the codes that Bellows requests (R235, R237). -/
def Bellows.lo (b : Bellows) : Nat := min b.minCode 0x30
/-- The highest code. -/
def Bellows.hi (b : Bellows) : Nat := max (min b.maxCode 0x30) b.lo
/-- The step of a request. -/
def Bellows.inc (b : Bellows) : Nat := max 1 b.step
/-- Forges kept active. -/
def Bellows.keep (b : Bellows) : Nat := min 8 (max 1 b.minForges)

/-- The calibration item of a supply code (R472). -/
def codeItem (s : State) (code : Nat) : Option Word := tget s.ory.calib none (0x100 + code)

/-- Capacity of the active lanes at a code, in token slots per microsecond: each measured rate scaled from the code it was measured at by
the calibration items of the two codes (R233, R472). -/
def capacity (s : State) (code : Nat) : Nat :=
  ((activeForges s).map fun l => ((List.range 4).map fun k =>
    let x := s.lane (4 * s.phys l + k)
    Config.rateAt (codeItem s x.code) (codeItem s code) x.code code x.rate).sum).sum

/-- Token slots that wait for the lanes. -/
def backlog (s : State) : Nat := ((laneRuns s).map LaneRun.tokens).sum

/-- Four times the demand over a period, in token slots (R233). -/
def demand4 (s : State) : Nat := 4 * s.fab.bellows.slots + backlog s

/-- Whether utilisation exceeds 0.90 (R233). -/
def utilHigh (s : State) : Bool :=
  demand4 s * 10 > 9 * 4 * capacity s s.fab.bellows.code * (10 * max 1 s.fab.bellows.period)

/-- Whether utilisation at a code lies below 0.60; with no demand it does (R233). -/
def utilLow (s : State) (code : Nat) : Bool :=
  demand4 s = 0 || demand4 s * 10 < 6 * 4 * capacity s code * (10 * max 1 s.fab.bellows.period)

/-- What Bellows does when demand is high. -/
def bellowsUp (s : State) : State :=
  let b := s.fab.bellows
  let s1 := cancelDrains s
  if (activeForges s).length < 8 then
    match (gatedForges s).head? with
    | some l => wakeForge l s1
    | none => s1
  else if b.code < b.hi then srpRequest (max (min (b.code + b.inc) b.hi) b.lo) s1
  else s1

/-- What Bellows does when demand has stayed low: below code 0x08 only while the predicted rates pass (R235); while SRP_TIMEOUT holds the code it
drains Forges at once (R237). -/
def bellowsDown (s : State) : State :=
  let b := s.fab.bellows
  let c := min (max (b.code - b.inc) b.lo) b.hi
  if b.code > b.lo && !s.port.fault.toNat.testBit 19 then (if c < 8 && !utilLow s c then s else srpRequest c s)
  else if (activeForges s).length > b.keep then
    match (activeForges s).getLast? with
    | some l => s.modForge (s.phys l) fun f => { f with draining := true }
    | none => s
  else s

/-- BELLOWS_STEP (R233, R236): one control step; the limit it computes takes effect at the next round (R29). -/
def execBellowsStep (s : State) : Out :=
  let b := s.fab.bellows
  let w := backlog s
  let rises := if w > b.lastBacklog then min 2 (b.rises + 1) else 0
  let low := if utilLow s b.code then min 10 (b.low + 1) else 0
  .next (if !powered s || !b.started || !b.en || b.faulted then s
    else
      let s1 := if utilHigh s || rises ≥ 2 then bellowsUp s else if low ≥ 10 then bellowsDown s else s
      s1.modBlw fun x =>
        { x with slots := 0, lastBacklog := w, rises := rises, low := low,
                 pwrEst := Config.powerEstimate b.slots % 2 ^ 10,
                 autoLimit := Config.powerLimit b.pmax b.tj (Config.powerEstimate b.slots % 2 ^ 10) b.code % 256,
                 pendLimit := min (Config.powerLimit b.pmax b.tj (Config.powerEstimate b.slots % 2 ^ 10) b.code % 256) b.manLimit })

/-- FORGE_GATE (R234): a draining Forge holds no work. -/
def execForgeGate (forge : ForgeId) (s : State) : Out :=
  let f := s.forge forge.val
  .next (if f.st == .active && f.draining && !forgeBusy s f.logical then
      s.modForge forge.val fun x => { x with st := .gated, draining := false }
    else s)

/-- FORGE_WAKE_COMPLETE (R225, R226): a gated Forge has powered up; a retirement that waits for it starts. -/
def execForgeWakeComplete (forge : ForgeId) (s : State) : Out :=
  let f := s.forge forge.val
  .next (if f.st == .gated && f.waking then
      let s1 := enterActive forge.val f.logical s
      if f.cmd.isSome then startRetire forge.val s1 else s1
    else s)

/-- BELLOWS_FAULT (R29, R237): code 0x18 is requested once, the eight logical Forges wake, the limiter opens from the next round on, and
all three hold. -/
def execBellowsFault (s : State) : Out :=
  .next (if !powered s || s.fab.bellows.faulted then s
    else
      let s1 := srpRequest 0x18 (wakeAll (s.modBlw fun b => { b with faulted := true, pendLimit := 0xFF }))
      conclude (reportFault 9 (blwStatus s1) 0xFF 0xFF s1))

/-! ### Rate windows (R219, R396) -/

/-- One lane's figures of a window, and its sample. -/
def rateWindow (n : Nat) (r : LaneRate) (s : State) : State :=
  let on := forgePowered (s.forge (n / 4))
  let s1 := s.modLane n fun x =>
    { x with rate := if on then r.rate.toNat else 0, code := s.fab.bellows.code, busy := if on then r.busy.toNat else 0 }
  if !s.fab.fifoEn || !on then s1
  else s1.modFab fun b =>
    if b.fifo.length < 256 then { b with fifo := b.fifo ++ [r.rate.toNat + r.busy.toNat * 2 ^ 16 + n * 2 ^ 24] }
    else { b with fifoOver := true }

/-- LANE_RATE_WINDOW (R219, R396): what each of the 36 lanes measured. -/
def execLaneRateWindow (rates : List LaneRate) (s : State) : Out :=
  .next (if !powered s then s
    else (List.range 36).foldl (fun t n => rateWindow n (rates.getD n { rate := 0, busy := 0 }) t) s)

/-! ### The microcode rotation (R239, R240) -/

/-- Logical Forges that still run the old image, the lowest first. -/
def oldForges (s : State) (r : Rotation) : List Nat := (mappedForges s).filter fun l => !r.loaded.contains (s.phys l)

/-- The measurement of an image: the factory image has the digest of its body (R317). -/
def imageDigest (kind : Nat) (g : Image) : List Byte :=
  if g.digest.isEmpty then sha384 (Config.factoryImage kind) else g.digest

/-- Measurement `m` of `len` bytes begins on the pipe with the shortest queue; its bit falls (R305, R317, R319). -/
def beginMeas (m len : Nat) (s : State) : State :=
  s.modDig fun x => { x with measDone := x.measDone &&& ~~~(BitVec.ofNat 4 (2 ^ m)),
                             runs := (x.runs.filter fun r => r.m != m) ++ [{ m := m, pipe := (leastPipe s).getD 8, len := len }] }

/-- Sets measurement `m`: its words take their values as its bit rises (R319). -/
def putMeas (m : Nat) (d : List Byte) (s : State) : State :=
  s.modDig fun x => { x with runs := x.runs.filter fun r => r.m != m, meas := tset x.meas [] m d, measDone := x.measDone ||| BitVec.ofNat 4 (2 ^ m) }

/-- The rotation is complete: the minimum SVN, the measurement of the microcode and the command (R239, R317, R318, R474). -/
def rotationDone (r : Rotation) (s : State) : State :=
  let img := if s.ldg.mActive then s.ldg.mB else s.ldg.mA
  packetDone r.slot (res 0 0 r.version) ((putMeas 1 (imageDigest 1 img) (s.modFab fun b => { b with rotation := none })).modLdg fun l =>
    if r.raise then { l with mMin := r.svn } else l)

/-- The spare `k` holds the rotation's image (step 2 of R239). -/
def loadSpare (k : Nat) (r : Rotation) (s : State) : State :=
  (s.modForge k fun f => { f with mcode := r.version % 2 ^ 16 }).modFab fun b => { b with rotation := some { r with loaded := k :: r.loaded } }

/-- The Forge that a handover of the rotation retires becomes SPARE. -/
def becomeSpare (m : Nat) (s : State) : State :=
  s.modForge m fun f => { f with st := .spare, waking := false, draining := false, logical := 0 }

/-- MICROCODE_ROTATION_STEP (R239, R240, R525): the spare is loaded and tested, and takes the ACTIVE logical Forge with the lowest number that
runs the old image; a gated one is woken first; once none is left, the rotation is complete. A spare that fails its test pauses the
rotation; one that fails as it takes over leaves the logical Forge without a physical one. -/
def execMicrocodeRotationStep (result : RotResult) (s : State) : Out :=
  .next (match s.fab.rotation, freeSpare s with
    | some r, some k =>
      if result == .testFail then conclude (pauseRotation k (reportForge k (forgeFailed k (latchForge k 1 none s))))
      else
        let s1 := loadSpare k r s
        let old := oldForges s1 { r with loaded := k :: r.loaded }
        match old.filter (logicalUp s1) with
        | [] => (match old with
            | [] => conclude (rotationDone r s1)
            | l :: _ => conclude (wakeForge l s1))
        | l :: _ =>
          let m := s1.phys l
          if result == .takeFail then
            conclude (reportForge k (forgeFailed k (loseLogical l (becomeSpare m (latchForge k 1 none s1)))))
          else conclude (becomeSpare m (takeLogical k l s1))
    | _, _ => s)

end Sys2Proof.Machine
end

