-- ==== Sys2Proof/Machine/Units.lean ====
section
/-! DEFINITION. The commands of the Crucible banks and Burnish (R355 to R359), the digest pipes (R322), the Anvil units (R342), the
entropy sources and the DRBG (R343 to R345), the lockstep pairs (R23, R36, R37, R499) and the block's own timers (R371, R477,
R481). -/

namespace Sys2Proof.Machine

/-! ### Banks and Burnish (R355 to R359) -/

/-- CRC_BANK_FAULT (R377). -/
def bankFaultReg (s : State) : Nat := s.cruc.bankFault + s.cruc.corrected * 2 ^ 16

/-- Bank `b` is retired with the bit of its cause; the second of one Boot is block-level and clears the keys (R355 to R357). -/
def bankFail (b cause : Nat) (s : State) : State :=
  if !s.cruc.bankUp.toNat.testBit b then s
  else
    let second := s.cruc.bankUp != 0x1F
    let s1 := s.modCruc fun c =>
      { c with bankUp := c.bankUp &&& ~~~(BitVec.ofNat 5 (2 ^ b)),
               bankFault := c.bankFault ||| 2 ^ b ||| 2 ^ cause ||| (if second then 2 ^ 8 else 0) }
    if second then clearKeys false false (blockFault 1 s1) else reportFault 2 (bankFaultReg s1) b 0xFF s1

/-- A word of bank `b` fails its check: rebuilt in place; the fourth in the bank within 1 ms fails the bank (R355). -/
def wordFail (b : Nat) (s : State) : State :=
  let t := now s
  let mine := (s.cruc.wordFails.filter fun x => x.1 = b && t - x.2 < 1000000) ++ [(b, t)]
  let others := s.cruc.wordFails.filter fun x => x.1 != b
  let s1 := s.modCruc fun c => { c with corrected := min 0xFFFF (c.corrected + 1), wordFails := others ++ mine }
  if mine.length ≥ 4 then bankFail b 5 s1 else s1

/-- Slots that a Burnish pass covers (R346). -/
def burnishSlots : Nat := 528400

/-- Re-masks slot number `n` of a pass: a fresh seed for a slot that holds a key (R358). -/
def remask (n : Nat) (s : State) : State :=
  let fresh : KeySlot → KeySlot := fun k => if k.key.isEmpty then k else { k with seed := drawBytes s 16 }
  drawn 16 (if n < 524288 then s.modCtxKey n fresh
    else if n < 528384 then s.modParent (n - 524288) fresh
    else s.modSysKey (n - 528384) fresh)

/-- A pass ends: counted, and the next starts at once where its period has ended (R359). -/
def passEnd (s : State) : State :=
  (s.modCruc fun c => { c with nextSlot := 0, passes := (c.passes + 1) % 2 ^ 24, passDone := !c.overrun, overrun := false }).modLdg
    fun l => { l with live := { l.live with burnish := (l.live.burnish + 1) % 2 ^ 48 } }

/-- BURNISH_SLOT (R355, R358): the next slot of the pass is re-masked; `bad` names a bank whose word failed its check. -/
def execBurnishSlot (bad : Option BankId) (s : State) : Out :=
  .next (if !powered s || !drbgUp s || s.cruc.stalled || s.cruc.passDone then s
    else
      let n := s.cruc.nextSlot
      let s1 := match bad with
        | some b => wordFail b.val (remask n s)
        | none => remask n s
      let s2 := s1.modCruc fun c => { c with nextSlot := n + 1 }
      conclude (if n + 1 ≥ burnishSlots then passEnd s2 else s2))

/-- BURNISH_PERIOD_END (R359): the next pass starts, or LATE is set while the pass goes on. -/
def execBurnishPeriodEnd (s : State) : Out :=
  .next (if !powered s || s.cruc.stalled then s
    else if s.cruc.passDone then s.modCruc fun c => { c with passDone := false, nextSlot := 0 }
    else s.modCruc fun c => { c with late := true, overrun := true })

/-- BANK_WATCHDOG (R355). -/
def execBankWatchdog (bank : BankId) (s : State) : Out := .next (if powered s then conclude (bankFail bank.val 6 s) else s)

/-! ### Pipes and Anvil units (R322, R342) -/

/-- Whether an operation needs a digest pipe: the digest opcodes and the ESP kinds with HMAC (R499). -/
def needsPipe (j : Job) : Bool := isDigestOp j.opc || j.etm

/-- Moves the jobs of a retired Anvil unit to the others, each from its start, or completes every Anvil job as UNSUPPORTED where no unit
is left (R342, R499). -/
def moveUnit (u : Nat) (s : State) : State :=
  s.jobs.foldl (fun t j => if !isAnvil j.opc || j.phase != .reading then t
    else if t.anv.up == 0 then endJob j.tag modeBad t
    else if j.place == .unit u then t.modJob j.tag fun x => { x with place := pickUnit t, ops := [] }
    else t) s

/-- Takes an operation off a retired pipe (R316, R322): a digest job goes to another pipe, and an encrypt-then-MAC frame is withdrawn from
its lane with it; each goes on from its last saved state or its first byte. -/
def leavePipe (p : Nat) (t : State) (j : Job) : State :=
  if j.saved then t
  else if j.etm && j.pipe == some p then t.modJob j.tag fun x => { x.replay with place := .none, pipe := none }
  else if j.place == .pipe p && (j.phase == .reading || j.mid) then t.modJob j.tag fun x => { x.replay with place := pickPipe t }
  else t

/-- Restarts the read of an image being staged whose measurement stood on a retired pipe, from its first byte (R317). -/
def restageOn (p : Nat) (s : State) : State :=
  if !(s.dig.runs.any fun r => r.m = 3 && r.pipe = p) then s
  else s.ory.packets.foldl (fun t k =>
    if k.opc != 0x38 || k.res.isSome || k.reads.isEmpty then t
    else
      let u := k.reads.foldl (fun u r => dropBuf r.2 u) t
      startRead mi (k.ps.getD 0 0) (k.ps.getD 1 0) false (.cmd k.slot 0) (u.modOry fun o =>
        { o with packets := o.packets.map fun x => if x.slot = k.slot && x.res.isNone then { x with reads := [(0, u.mem.nextId)] } else x })) s

/-- Takes the measurements off a retired pipe: each starts again from its image's first byte on another (R317). -/
def leaveMeasured (p : Nat) (s : State) : State :=
  match leastPipe s with
  | some q => s.modDig fun d => { d with runs := d.runs.map fun r => if r.pipe = p then { r with pipe := q } else r }
  | none => s

/-- Pipe `p` is retired with the bit of its cause (R322). -/
def pipeFail (p cause : Nat) (s : State) : State :=
  if !powered s || !s.dig.pipeUp.toNat.testBit p then s
  else
    let s1 := s.modDig fun d =>
      { d with pipeUp := d.pipeUp &&& ~~~(BitVec.ofNat 8 (2 ^ p)), fault := d.fault ||| word (2 ^ p) ||| word (2 ^ cause) }
    let s2 := leaveMeasured p (restageOn p (s1.jobs.foldl (leavePipe p) s1))
    let s3 := if s2.dig.pipeUp != 0 then placeWork s2 else
      s2.jobs.foldl (fun t j => if needsPipe j && (j.phase == .reading || j.mid) then endJob j.tag modeBad t else t) s2
    conclude (reportFault 3 s3.dig.fault.toNat p 0xFF s3)

/-- PIPE_SELF_TEST (R322). -/
def execPipeSelfTest (pipe : PipeId) (ok : Bool) (s : State) : Out := .next (if ok then s else pipeFail pipe.val 8 s)

/-- PIPE_FAULT (R322). -/
def execPipeFault (pipe : PipeId) (cause : PipeCause) (s : State) : Out :=
  .next (match cause with
    | .residue => pipeFail pipe.val 9 s
    | .watchdog => pipeFail pipe.val 10 s)

/-- Anvil unit `u` is retired with the bit of its cause (R342). -/
def unitFail (u cause : Nat) (s : State) : State :=
  if !powered s || !s.anv.up.toNat.testBit u then s
  else
    let s1 := s.modAnv fun a =>
      { a with up := a.up &&& ~~~(BitVec.ofNat 4 (2 ^ u)), fault := a.fault ||| word (2 ^ u) ||| word (2 ^ cause) }
    let s2 := moveUnit u s1
    conclude (reportFault 4 s2.anv.fault.toNat u 0xFF s2)

/-- ANVIL_SELF_TEST (R342). -/
def execAnvilSelfTest (unit : UnitId) (ok : Bool) (s : State) : Out := .next (if ok then s else unitFail unit.val 4 s)

/-- ANVIL_UNIT_FAULT (R342). -/
def execAnvilUnitFault (unit : UnitId) (cause : UnitCause) (s : State) : Out :=
  .next (match cause with
    | .residue => unitFail unit.val 5 s
    | .watchdog => unitFail unit.val 6 s
    | .resultCheck => unitFail unit.val 7 s
    | .pct => unitFail unit.val 8 s)

/-! ### Entropy and the DRBG (R343 to R345) -/

/-- Reseeds from buffered blocks where they suffice: one of each source, or two of the one that remains; else the reseed
waits (R344, R345). -/
def reseed (s : State) : State :=
  let a := s.anv
  let ok := fun (x y : Nat) => s.modAnv fun b =>
    { b with aBuf := b.aBuf - x, bBuf := b.bBuf - y, wantReseed := false, requests := 0,
             reseeds := (b.reseeds + 1) % 2 ^ 32 }
  if !drbgUp s then s
  else if a.aUp && a.bUp && a.aBuf ≥ 1 && a.bBuf ≥ 1 then ok 1 1
  else if a.aUp && !a.bUp && a.aBuf ≥ 2 then ok 2 0
  else if a.bUp && !a.aUp && a.bBuf ≥ 2 then ok 0 2
  else s.modAnv fun b => { b with wantReseed := true }

/-- ENTROPY_BLOCK_READY (R343): a conditioned block is buffered, and a start or reseed that waits for it goes on. -/
def execEntropyBlockReady (src : EntSrc) (s : State) : Out :=
  .next (if !powered s then s
    else
      let s1 := s.modAnv fun a => match src with
        | .a => if a.aUp then { a with aBuf := min 4 (a.aBuf + 1) } else a
        | .b => if a.bUp then { a with bBuf := min 4 (a.bBuf + 1) } else a
      let s2 := drbgTry s1
      if s2.anv.wantReseed then reseed s2 else s2)

/-- A source has failed for the fourth time within 1 s: it is retired, and the DRBG goes on with the other or stops (R345). -/
def retireSource (a : Bool) (s : State) : State :=
  let s1 := s.modAnv fun x =>
    if a then { x with aUp := false, aBuf := 0, esFault := x.esFault ||| 8 } else { x with bUp := false, bBuf := 0, esFault := x.esFault ||| 0x80 }
  match s.anv.drbg with
  | .running => reseed (drbgTo .single s1)
  | .single => drbgTo .stopped s1
  | .starting => if s1.anv.aUp || s1.anv.bUp then drbgTry s1 else drbgTo .stopped s1
  | _ => s1

/-- ENTROPY_HEALTH_FAIL (R345). -/
def execEntropyHealthFail (src : EntSrc) (kind : EntFail) (s : State) : Out :=
  let a := src == .a
  let up := if a then s.anv.aUp else s.anv.bUp
  let k : Nat := match kind with
    | .rct => 0 | .apt => 1 | .start => 2
  let t := now s
  let times := ((if a then s.anv.aFails else s.anv.bFails).filter fun x => t - x < 1000000000) ++ [t]
  .next (if !powered s || !up then s
    else
      let s1 := s.modAnv fun x =>
        if a then { x with esFault := x.esFault ||| word (2 ^ k), aFails := times }
        else { x with esFault := x.esFault ||| word (2 ^ (4 + k)), bFails := times }
      conclude (if times.length ≥ 4 then retireSource a s1 else s1))

/-- DRBG_RESEED (R344): the interval or the request count has been reached. -/
def execDrbgReseed (s : State) : Out := .next (if powered s then reseed s else s)

/-- DRBG_KAT (R345): a failed known-answer test stops the DRBG. -/
def execDrbgKat (ok : Bool) (s : State) : Out :=
  .next (if ok || !powered s || s.anv.drbg == .stopped then s
    else conclude (drbgTo .stopped (s.modAnv fun a => { a with esFault := a.esFault ||| 0x100 })))

/-! ### Lockstep pairs (R23, R36, R37, R499) -/

/-- DSP_STATUS. -/
def dspStatus (s : State) : Nat :=
  s.jobs.length + ((List.range 8).map fun l => if s.phys l < 9 then 2 ^ (16 + s.phys l) * b2n (combinerBusy s l) else 0).sum
    + b2n s.fab.halfA * 2 ^ 25 + b2n s.fab.halfB * 2 ^ 26

/-- DISPATCHER_MISMATCH (R23): the named half retires while its partner runs; else the fault is block-level. -/
def execDispatcherMismatch (half : Option Half) (s : State) : Out :=
  let f := s.fab
  .next (if !powered s then s
    else match half with
      | none => conclude (blockFault 0 s)
      | some .a =>
        if !f.halfA then s
        else if !f.halfB then conclude (blockFault 0 (s.modFab fun b => { b with halfA := false }))
        else
          let s1 := s.modFab fun b => { b with halfA := false }
          conclude (reportFault 7 (dspStatus s1) 0 0xFF s1)
      | some .b =>
        if !f.halfB then s
        else if !f.halfA then conclude (blockFault 0 (s.modFab fun b => { b with halfB := false }))
        else
          let s1 := s.modFab fun b => { b with halfB := false }
          conclude (reportFault 7 (dspStatus s1) 1 0xFF s1))

/-- STATE of ORY_STATUS. -/
def oryCode (s : State) : Nat :=
  match s.ory.st with
  | .reset => 0 | .booting => 1 | .running => 2 | .restarting => 3 | .rom => 4 | .stopped => 5

/-- Command packets that execute. -/
def oryRunning (s : State) : Nat := (s.ory.packets.filter fun p => p.res.isNone).length

/-- ORY_STATUS (R482). -/
def oryStatus (s : State) : Nat :=
  oryCode s + b2n s.ory.mbxOvf * 2 ^ 3 + min 0xFF s.ory.restarts * 2 ^ 8 + oryRunning s * 2 ^ 16

/-- Holds Orrery in reset and restarts Yuham (R36, R474). Its measurement begins anew, except at a commit, whose measurement is copied in
one step (R317 to R319). -/
def restartYuham (s : State) : State :=
  let s1 := s.modOry fun o => { o with st := .restarting, restarts := min 0xFF (o.restarts + 1) }
  if s.ory.commit.isSome then s1 else beginMeas 0 0 s1

/-- A half of Orrery retires: Yuham restarts on the partner, or Orrery stops where there is none (R499). -/
def oryHalf (first : Bool) (s : State) : State :=
  let up := if first then s.ory.halfA else s.ory.halfB
  let other := if first then s.ory.halfB else s.ory.halfA
  if !up then s
  else
    let s1 := s.modOry fun o => if first then { o with halfA := false } else { o with halfB := false }
    let s2 := if other then restartYuham s1 else s1.modOry fun o => { o with st := .stopped }
    reportFault 8 (oryStatus s2) (b2n (!first)) 0xFF s2

/-- ORRERY_FAULT (R23, R36, R499). A mismatch that names neither half is block-level. -/
def execOrreryFault (half : Option Half) (s : State) : Out :=
  .next (if !powered s then s
    else match half with
      | none => conclude (blockFault 4 s)
      | some .a => conclude (oryHalf true s)
      | some .b => conclude (oryHalf false s))

/-- Packets that Orrery had not taken past their commit point complete as DEFERRED (R464). -/
def deferPackets (s : State) : State :=
  s.modOry fun o => { o with packets := o.packets.map fun p =>
    if p.res.isNone && !p.committed then { p with res := some (res 0x24 0), waits := false } else p }

/-- Yuham runs again: the buffered events are logged, YUHAM_UP is posted, interrupted packets end, and a committed image is in
force (R37, R464, R474). The image that runs is measured (R317). -/
def yuhamUp (s : State) : State :=
  let img := if s.ldg.yActive then s.ldg.yB else s.ldg.yA
  let s0 := putMeas 0 (if s.ldg.yRom then sha384 Config.romImage else imageDigest 0 img) s
  let s1 := drainEvents (s0.modOry fun o => { o with st := if s.ldg.yRom then .rom else .running })
  let s2 := postMail 1 (b2n s.ldg.yActive) (deferPackets s1)
  match s.ory.commit with
  | none => s2
  | some (slot, raiseMin) =>
    let s3 := s2.modLdg fun l => if raiseMin then { l with yMin := img.svn } else l
    packetDone slot (res 0 0 img.version) (s3.modOry fun o => { o with commit := none })

/-- YUHAM_RESTART_COMPLETE (R36, R37). -/
def execYuhamRestartComplete (s : State) : Out :=
  .next (if powered s && s.ory.st == .restarting then conclude (yuhamUp s) else s)

/-- UNCONTAINED_FAULT (R501). -/
def execUncontainedFault (s : State) : Out := .next (if powered s then conclude (blockFault 4 s) else s)

/-! ### Timers of the block -/

/-- OFFER_TIMEOUT (R371): an OFFERED slot that has not finished within 10 s becomes EMPTY. -/
def execOfferTimeout (slot : ParentId) (s : State) : Out :=
  .next (if powered s && (s.parent slot.val).st == .offered then recordSlot slot.val (freeSlot slot.val s) else s)

/-- COUNTER_CHECKPOINT (R477). -/
def execCounterCheckpoint (s : State) : Out := .next (if powered s then checkpoint s else s)

/-- CALENDAR_CHECKPOINT (R477, R481): the hourly checkpoint, with the power-on hours. -/
def execCalendarCheckpoint (s : State) : Out :=
  .next (if !powered s then s
    else calCheckpoint (s.modLdg fun l =>
      let h := (l.live.hours + 1) % 2 ^ 32
      { l with live := { l.live with hours := h },
               saved := if inTest s then l.saved else { l.saved with hours := h } }))

end Sys2Proof.Machine
end

