-- ==== Sys2Proof/Machine/Checks.lean ====
section
/-! DEFINITION. The admission checks of R158 for an entry or a stream frame: structure and parameters, the context's kind and
algorithm (R150, R157, R170 to R172, R182, R271), the keys and slots (R310, R354), the Comet limits (R410) and the declared lengths
(R160). -/

namespace Sys2Proof.Machine

/-! ### Checks 1 to 4 -/

/-- Opcodes whose key work needs a root (R362). -/
def needsRoot (o : Nat) : Bool := o == 0x40 || o == 0x42 || (0x44 ≤ o && o ≤ 0x47) || isKeyJob o

/-- Opcodes that Recovery permits (R483). -/
def recoveryOps : List Nat := [0x00, 0x30, 0x33, 0x41, 0x43, 0x48]

/-- The verdict of an entry whose chain is broken or too long: RESERVED_SET of one of its headers stands before both in the table of R124;
the body of such a chain is not whole, and its fields are not read. -/
def chainVerdict (reserved : Bool) (v : Res) : Res :=
  if (v == malformed 8 || v == malformed 9) && reserved then malformed 6 else v

/-- RESERVED_SET and LEN_OPCODE in the order of R124, then checks 1 to 4 of R158, MODE also where no engine of the opcode's kind is left (R499), then NO_ROOT (R362). -/
def entryChecks (s : State) (e : Entry) : Option Res :=
  let o := hOpc e.hdr
  let f := hFlags e.hdr
  let b := e.body
  if reservedSet o e.hdr b then some (malformed 6)
  else if lenWrong o e then some (malformed 7)
  else if !allZero (beyondLayout o b) then some (malformed 6)
  else if paramCheck o b || (isAnvil o && anvilBad o f b) then some paramBad
  else if inplaceBad o f b then some (malformed 0x13)
  else if s.modes.mode == .recovery && !recoveryOps.contains o then some modeBad
  else if (isDigestOp o && s.dig.pipeUp == 0) || (isAnvil o && s.anv.up == 0) then some modeBad
  else if needsRoot o && !hasRoot s then some noRoot
  else none

/-! ### Check 5: the context -/

/-- Whether a miss may fetch from the Vault (R253). -/
def fetchAllowed (s : State) : Bool :=
  s.vault.en && s.vault.autoFetch && s.ory.st == .running
    && (s.modes.mode == .service || s.modes.mode == .degraded || s.modes.mode == .eclipse)

/-- How a handle resolves for an instance: resident, resident but being evicted, or a miss (R159, R256). -/
inductive Resolved | hit (e : Nat) | busy | miss
  deriving DecidableEq, Repr

/-- Resolves a handle for an instance. -/
def resolve (s : State) (i h : Nat) : Resolved :=
  match s.ctxOf h with
  | none => .miss
  | some e => if (s.ctxAt e).owner != i then .miss else if (s.ctxAt e).st == .evicting then .busy else .hit e

/-! ### Check 6: the kind -/

/-- CTX_KIND. -/
def kindBad : Res := res 5 2

/-- Whether a context's kind suits an opcode (R140, R156, R271); an ESP target whose next slot has no SPI does not. -/
def kindSuits (o : Nat) (c : Ctx) : Bool :=
  if isSym o then isMem c.kind && c.kind != 6
  else if o = 0x20 then c.kind == 8 || c.kind == 0xA
  else if o = 0x21 then c.kind == 9 || c.kind == 0xB
  else if o = 0x22 then isEsp c.kind && isTx c.kind
  else if o = 0x23 then isEsp c.kind && isRx c.kind
  else if isMacOp o then c.kind == 6
  else c.kind != 5 && (isKeyJob o || c.kind != 6) && !(isEsp c.kind && c.spi (1 - c.role) = 0)

/-! ### Check 7: parameters and options -/

/-- Whether the IV bytes after the first 12 are set, which GCM and ChaCha20-Poly1305 do not use. -/
def ivTail (b : List Byte) : Bool := !allZero ((symIv b).drop 12)

/-- PARAM of a symmetric job against its context's algorithm (R150, R170, R172, R526). -/
def symParam (k f : Nat) (b : List Byte) : Bool :=
  let t := symText b
  let a := symAad b
  let g := symTag b
  let du := symDu b
  let noAead := a != 0 || g != 0
  (k != 5 && du != 0)
  || (if k = 1 then
        a + t < 1 || !((12 ≤ g && g ≤ 16) || g = 4 || g = 8) || (!fIvCtx f && ivTail b)
          || (fComet f && (t < 65536 || symLanes b = 1 || symLanes b > 16))
      else if k = 2 then g != 16 || (!fIvCtx f && ivTail b)
      else if k = 3 then noAead || t < 1
      else if k = 4 then noAead || t < 16 || t % 16 != 0
      else noAead || t < 16 || (du != 0 && (du < 9 || du > 16 || (t % 2 ^ du != 0 && t % 2 ^ du < 16))))

/-- OPTION of a symmetric job (R150, R170, R171, R205). -/
def symOption (o k f : Nat) (b : List Byte) : Bool :=
  (k = 1 && (symTag b = 4 || symTag b = 8)) || (fIvCtx f && (o != 0x10 || (k != 1 && k != 2))) || (fComet f && k != 1)

/-- Check 7 for the opcodes that install a key (R157, R271, R526). -/
def installParam (o f : Nat) (c : Ctx) (b : List Byte) : Bool :=
  (isKeyJob o && (kjBits b != c.keySize + 1 || (o = 0x51 && kjBlobLen b != 44 + keyBytes c.keySize + saltLen c.kind)))
    || (if isMacsec c.kind then f % 4 = c.an c.role else f % 4 != 0)

/-- Check 7 of R158 for an entry that names no context. -/
def optionCheck (o f : Nat) (b : List Byte) : Option Res :=
  if isDigestOp o then
    if algIsMac (dgAlg b) = isMacOp o && !(isMacOp o && bit f 0 && algIsKmac (dgAlg b)) then none else some optionBad
  else if isAnvil o then
    (if ((avOpcodes (avAlg b)).getD []).contains o then none else some optionBad)
  else none

/-- Check 7 of R158 against a context. -/
def ctxParam (j : Job) (c : Ctx) : Option Res :=
  let b := j.body
  if isSym j.opc then
    if symParam c.kind j.flags b then some paramBad else if symOption j.opc c.kind j.flags b then some optionBad else none
  else if j.opc = 0x20 || j.opc = 0x22 then
    if j.egress.isSome && txOut c (frLen b) (frHdr b) > 16384 then some paramBad else none
  else if installsKey j.opc then (if installParam j.opc j.flags c b then some paramBad else optionCheck j.opc j.flags b)
  else optionCheck j.opc j.flags b

/-! ### Check 8: keys and slots -/

/-- HMAC slot `n` of the digest complex. -/
def State.hslot (s : State) (n : Nat) : HSlot := tget s.dig.slots {} n

/-- Check 8 on an HMAC slot for an instance and a hash (R310). -/
def hslotCheck (s : State) (n i hash : Nat) : Option Res :=
  let h := s.hslot n
  if !h.valid || h.owner != i then some (keyInvalid 0x30)
  else if h.hash != hash then some (keyInvalid 0x31)
  else recordedCheck s h.parent h.pgen

/-- The slot of a context that an operation uses: for a transmit kind, the one after the switch of R272. -/
def useSlot (c : Ctx) : Nat := if isTx c.kind then (match c.takeTx with
  | some p => p.2.role
  | none => c.role) else c.role

/-- Check 8 on the context's keys (R267, R275, R310, R354); an operation that installs a next key is refused on a context STALE under an
invalidated parent. -/
def keyCheck (s : State) (j : Job) (e : Nat) : Option Res :=
  let c := s.ctxAt e
  if installsKey j.opc then (if c.st == .stale && c.cause = 1 then some (parentInvalid 1) else none)
  else
    let k := useSlot c
    match ctxKeyCheck s e k with
    | some r => some r
    | none =>
      if c.kind = 5 then ctxKeyCheck s e (1 - k)
      else if isEspMac c.kind then hslotCheck s (c.hslot k) j.inst 0
      else none

/-- Check 8 on what an entry names itself: the parent key of key and Anvil jobs, or the HMAC slot of SLOT = 1. -/
def namedCheck (s : State) (j : Job) : Option Res :=
  let b := j.body
  if isKeyJob j.opc then parentCheck s (kjParent b) j.inst [.parent]
  else if isAnvil j.opc && usesWrapped j.opc b then parentCheck s (avParent b) j.inst [.parent]
  else if isMacOp j.opc && bit j.flags 0 then hslotCheck s (dgSlot b) j.inst (algHash (dgAlg b))
  else none

/-! ### Checks 9 and 10 -/

/-- Check 9: the Comet limits (R410). -/
def cometCheck (s : State) (j : Job) : Option Res :=
  if !(isSym j.opc && fComet j.flags) then none
  else
    let lim := (s.inst j.inst).comet
    if lim = 0 || symLanes j.body > lim then some (res 0x22 3) else none

/-- Check 10: the declared length of a direct source, then the capacity of a direct destination (R149, R160, R301, R328). -/
def lengthCheck (j : Job) (c : Ctx) : Option Res :=
  let o := j.opc
  let b := j.body
  let small : Option Res := some (res 4 0x11)
  let src : Option Res :=
    if (isSym o || isFrame o) && !srcSgl b && j.frame.isEmpty then
      (if srcLen b < declaredLen o j.flags b then some (res 2 2)
       else if srcLen b > declaredLen o j.flags b then some (res 3 2) else none)
    else none
  match src with
  | some r => some r
  | none =>
    if isSym o then (if !fInplace j.flags && !dstSgl b && dstLen b < symDstNeed o j.flags b then small else none)
    else if o = 0x20 || o = 0x22 then
      (if j.egress.isNone && !dstSgl b && dstLen b < txOut c (frLen b) (frHdr b) then small else none)
    else if o = 0x30 || o = 0x31 then (if dstLen b < dgLen b then small else none)
    else if isAnvil o then (if avDstSmall o j.flags b then small else none)
    else none

/-- The first of a list of checks that fails. -/
def firstOf (l : List (Option Res)) : Option Res := l.findSome? id

/-- Checks 6 to 10 of an operation on a context; an ESP kind that needs a pipe is refused as check 4 refuses an opcode (R499). -/
def ctxChecks (s : State) (j : Job) (e : Nat) : Option Res :=
  let c := s.ctxAt e
  if c.st == .stale && c.cause = 2 then some (res 7 1)
  else if !kindSuits j.opc c then some kindBad
  else if isFrame j.opc && isEspMac c.kind && s.dig.pipeUp == 0 then some modeBad
  else firstOf [ctxParam j c, namedCheck s j, keyCheck s j e, cometCheck s j, lengthCheck j c]

/-- Checks 7 to 10 of an operation that names no context. -/
def plainChecks (s : State) (j : Job) : Option Res :=
  firstOf [optionCheck j.opc j.flags j.body, namedCheck s j, lengthCheck j {}]

end Sys2Proof.Machine
end

