-- ==== Sys2Proof/Machine/Admission.lean ====
section
/-! DEFINITION. The dispatcher: rounds and credit (R29, R236, R411 to R413), the admission of ring entries (R120, R158), stream
frames (R165, R383 to R387) and saved segments (R202), and the wait of operations for a context (R254, R256). -/

namespace Sys2Proof.Machine

/-! ### Schedulers (R411) -/

/-- The scheduler of an opcode. -/
def schedOf (o : Nat) : Sched := if 0x30 ≤ o && o ≤ 0x33 then .digest else if isAnvil o then .anvil else .lane

/-- The bit of a scheduler among the rounds in progress. -/
def schedBit (c : Sched) : BitVec 3 :=
  match c with
  | .lane => 1 | .digest => 2 | .anvil => 4

/-- Whether a round of a scheduler is in progress: a change of the mode has ended it until the next boundary (R28). -/
def roundOpen (s : State) (c : Sched) : Bool := s.fab.rounds &&& schedBit c != 0

/-- An instance's credit in a scheduler. -/
def Inst.credit (i : Inst) (c : Sched) : Nat :=
  match c with
  | .lane => i.crLane | .digest => i.crDigest | .anvil => i.crAnvil

/-- Sets it. -/
def Inst.setCredit (i : Inst) (c : Sched) (n : Nat) : Inst :=
  match c with
  | .lane => { i with crLane := n } | .digest => { i with crDigest := n } | .anvil => { i with crAnvil := n }

/-- Where a scheduler stands in its round. -/
def State.turn (s : State) (c : Sched) : Turn :=
  match c with
  | .lane => s.fab.turnLane | .digest => s.fab.turnDigest | .anvil => s.fab.turnAnvil

/-- Changes it. -/
def State.modTurn (s : State) (c : Sched) (f : Turn → Turn) : State :=
  s.modFab fun b => match c with
    | .lane => { b with turnLane := f b.turnLane }
    | .digest => { b with turnDigest := f b.turnDigest }
    | .anvil => { b with turnAnvil := f b.turnAnvil }

/-- Whether a ring's next entry is work for a scheduler. -/
def ringWork (s : State) (n : Nat) (c : Sched) : Bool :=
  !isControl s n && (((s.ring n).cache.head?).map fun e => schedOf (hOpc e.hdr) == c).getD false

/-- Whether an instance has work in a scheduler. -/
def hasWork (s : State) (i : Nat) (c : Sched) : Bool :=
  let v := s.inst i
  ((tkeys s.rings).any fun n => v.sqFirst ≤ n && n < v.sqFirst + v.sqCount && ringWork s n c)
    || (s.jobs.any fun j => j.inst = i && j.resting && schedOf j.opc == c)
    || (c == .lane && [0, 1].any fun p => (s.sp p).ing.any fun f => f.f.inst.val = i && (match f.st with
            | .admitted _ => false
            | _ => true))

/-- Whether the shaper holds an instance in a scheduler (R413). -/
def shpHolds (i : Inst) (c : Sched) : Bool := c != .anvil && i.shpEn && i.shpLevel < 0

/-! ### What holds admission back -/

/-- Whether the dispatcher admits new work of an instance: the data plane runs, no freeze, detach or halt, and the instance is
ENABLED (R24, R87, R427, R440). -/
def admitOn (s : State) (i : Nat) : Bool :=
  powered s && !s.modes.dpStopped && !s.modes.halted && !s.tam.frozen && s.port.att == .attached && (s.inst i).st == .enabled
    && !reEnabling s i

/-- Whether the mode admits ring entries (R483). -/
def ringMode (s : State) : Bool := streamMode s || s.modes.mode == .recovery

/-- Operations of an instance in flight. -/
def inFlight (s : State) (i : Nat) : Nat := (s.jobs.filter fun j => j.inst = i).length

/-- The lowest free tag. -/
def freeJobTag (s : State) : Option Nat := (List.range (s.jobs.length + 1)).find? fun t => (s.job? t).isNone

/-- Whether an instance may take another tag (R406). -/
def tagOk (s : State) (i : Nat) : Bool := inFlight s i < (s.inst i).tagQuota && s.jobs.length < 32768

/-- Whether credit and shaper let an instance admit in a scheduler. -/
def creditOk (s : State) (i : Nat) (c : Sched) : Bool := (s.inst i).credit c ≥ 1 && !shpHolds (s.inst i) c

/-- Charges one admission of so many input bytes (R411, R413). -/
def chargeSlot (i : Nat) (c : Sched) (bytes : Nat) (s : State) : State :=
  let s1 := s.modInst i fun v =>
    let v1 := v.setCredit c (v.credit c - 1)
    if c == .anvil || !v.shpEn then v1 else { v1 with shpLevel := v1.shpLevel - 8 * (bytes : Int) }
  if c == .lane then s1.modFab fun b => { b with used256 := b.used256 + 1 } else s1

/-- One slot of the lane scheduler passes; of each 256, the Bellows limiter lets LIMIT + 1 admit (R236). -/
def passSlot (s : State) : State :=
  s.modFab fun b => if b.slots256 ≥ 256 then { b with slots256 := 1, used256 := 0 } else { b with slots256 := b.slots256 + 1 }

/-- Whether the limiter closes the present slot. -/
def slotClosed (s : State) : Bool := s.fab.used256 > s.fab.bellows.limit

/-- Input bytes that an entry's first segment counts (R413); the length of a listed message is not known at admission, and
a whole segment counts. -/
def firstBytes (o : Nat) (b : List Byte) : Nat :=
  if isSym o then min 4096 (symAad b + symText b)
  else if isFrame o then min 4096 (frLen b)
  else if isDigestOp o then (if srcSgl b then 4096 else min 4096 (srcLen b))
  else if o = 0x33 then min 4096 (srcLen b)
  else 0

/-! ### Egress reservations (R379, R383, R385) -/

/-- Whether a reservation for so many input bytes fits a class's ceiling (R383). -/
def egressRoom (s : State) (p cls bytes : Nat) : Bool := egOcc (s.sp p) cls + reserveCells bytes ≤ ceiling (s.sp p) cls

/-- Reserves an egress frame for an operation. -/
def reserveEgress (p cls prio i tag bytes : Nat) (desc : Bool) (s : State) : State :=
  putEgress p { seq := 0, cls := cls, inst := i, tag := some tag, cells := reserveCells bytes, desc := desc, prio := prio } s

/-! ### Operations -/

/-- The buffer that an address word and a length word describe. -/
def bufOf (sgl : Bool) (addr len : Nat) : Buf :=
  if sgl then { listed := true, tail := .page, pageAddr := addr, pageCnt := len } else { elems := [(addr, len)], count := len }

/-- The source buffer of an opcode. -/
def srcBufOf (o : Nat) (b : List Byte) : Buf :=
  if isSym o || isFrame o || isDigestOp o then bufOf (srcSgl b) (srcAddr b) (srcLen b) else {}

/-- The destination buffer of an opcode. -/
def dstBufOf (o : Nat) (b : List Byte) : Buf :=
  if isSym o || isFrame o then bufOf (dstSgl b) (dstAddr b) (dstLen b)
  else if isDigestOp o then bufOf false (dstAddr b) (dstLen b)
  else if isAnvil o then bufOf false (avOut b) (avOutLen b)
  else {}

/-- Segments of an operation's input stream; a Comet job's stripes count theirs (R200). -/
def segsOf (o flags : Nat) (b : List Byte) : Nat :=
  if isSym o && fComet flags then 1
  else if isSym o then max 1 (ceilDiv (symAad b + symText b) 4096) else if isFrame o then max 1 (ceilDiv (frLen b) 4096) else 1

/-- The operation of a ring entry, not yet resolved. -/
def ringJob (n : Nat) (e : Entry) (tag i : Nat) : Job :=
  let o := hOpc e.hdr
  let b := e.body
  { tag := tag, inst := i, src := .ring n e.slot, opc := o, flags := hFlags e.hdr, body := b, handle := hCtx e.hdr,
    srcBuf := srcBufOf o b, dstBuf := dstBufOf o b, phase := .held, segs := segsOf o (hFlags e.hdr) b,
    egress := if isFrame o && frSel b != 0 then some (frSel b - 1, frClass b, 0) else none }

/-- The end of the IP header that step 3 of R165 finds, with the protocol it names: none where there is no IP header. -/
def ipHeader (l : List Byte) : Option (Nat × Nat) :=
  let o := etherOff l 12
  let t := beNat (bytesAt l o 2)
  if t = 0x0800 then some (o + 2 + 4 * fld (beNat (bytesAt l (o + 2) 1)) 0 4, beNat (bytesAt l (o + 11) 1))
  else if t = 0x86DD then some (o + 42, beNat (bytesAt l (o + 8) 1))
  else none

/-- The opcode by which a stream frame is processed, by its context's kind (R165). -/
def streamOpc (k : Nat) : Nat := if isMacsec k then 0x20 + k % 2 else 0x22 + k % 2

/-- The body that stands for a stream frame: FRAME_LEN, HDR_LEN, NEXT_HDR, OUT_CLASS and OUT_SEL (log entry 59). -/
def streamBody (l : List Byte) (k cls p : Nat) : List Byte :=
  let hdr := if k == 8 || k == 0xA then 12
    else if isMacsec k then etherOff l 12
    else ((ipHeader l).map Prod.fst).getD 255
  let nxt := ((ipHeader l).map Prod.snd).getD 0
  zeros 32 ++ natLe 2 l.length ++ [byte (min hdr 255), byte nxt, byte (cls + 8 * (p + 1))] ++ zeros 11

/-! ### Outcomes decided at admission -/

/-- Whether an operation's context counts an outcome in its statistics, and the count (R196, R243, R246). -/
def countOutcome (j : Job) (ok : Bool) (s : State) : State :=
  match s.ctxOf j.handle with
  | none => s
  | some e =>
    if j.opc != 0 && j.handle = (s.ctxAt e).handle && (s.ctxAt e).owner = j.inst && j.ctxEnt.isSome then
      s.modCtx e fun c => c.counted ok
    else s

/-- Ends an operation at admission with an outcome: its tag is free, and its entry or frame has the outcome. -/
def refuseJob (tag : Nat) (r : Res) (s : State) : State :=
  match s.job? tag with
  | none => s
  | some j =>
    let s1 := dropEgress tag ((countOutcome j false s).dropJob tag)
    match j.src with
    | .ring n slot => finishItem n slot r 0 [] s1
    | .stream p id => failFrame p id r (s1.modSp p fun x =>
        { x with ing := x.ing.map fun f => if f.id = id then { f with st := .named j.handle } else f })

/-- Asks the Vault for a handle on behalf of an instance, once. -/
def addMiss (h i : Nat) (s : State) : State :=
  s.modVault fun v => if v.misses.contains (h, i) then v else { v with misses := v.misses ++ [(h, i)] }

/-! ### Placement (R206, R222, R305, R313, R324) -/

/-- The first Forge of a Comet job's set: the lowest with a free combiner that admits (R206, R208, R227). -/
def cometFirst (s : State) : Option Nat :=
  (mappedForges s).find? fun l => !combinerBusy s l && !(s.forge (s.phys l)).failing

/-- The set of a Comet job's Forges and the number of its stripes (R206, R410). -/
def cometSet (s : State) (i : Nat) (b : List Byte) : Option (List Nat × Nat) :=
  (cometFirst s).map fun f =>
    let c := if symLanes b = 0 then min 16 (s.inst i).comet else symLanes b
    let l := min c (cometChunks (symText b))
    let m := mappedForges s
    let set := ((m.filter fun x => x ≥ f) ++ m.filter fun x => x < f).take (ceilDiv l 4)
    (set, min l (4 * set.length))

/-- Whether a Forge of a Comet set is up: active, and neither draining nor failing over. -/
def cometUp (s : State) (l : Nat) : Bool := takesWork s l

/-- Wakes the gated Forges of a Comet set and ends the drains of its others, so that they take the job's stripes (R234; log entry 181). -/
def wakeSet (set : List Nat) (s : State) : State :=
  set.foldl (fun t l => if (t.forge (t.phys l)).st == .gated then wakeForge l t
    else t.modForge (t.phys l) fun f => { f with draining := false }) s

/-- A Comet job with its stripes placed, four to a Forge of its set, and the powers that its combiner computes (R206, R208). -/
def cometStart (s : State) (j : Job) : Option Comet :=
  (cometSet s j.inst j.body).map fun x =>
    let h := gcmKey j.keyA
    { lanes := x.2, forges := x.1, holder := x.1.headD 0, h1024 := ghPow 16 h 1024, hL := ghPow 16 h (1024 * x.2),
      stripes := (List.range x.2).map fun l =>
        { place := .lane (x.1.getD (l / 4) 0) (l % 4), pos := { chunk := l }, back := { chunk := l } } }

/-- Where an operation that needs no lane runs: a pipe, an Anvil unit, or nowhere for COMPARE, whose comparator is no part of a pipe
(R320). -/
def pickPlace (s : State) (j : Job) : Place :=
  if j.opc = 0x33 || needsLane j then .none else if isAnvil j.opc then pickUnit s else pickPipe s

/-- Whether no engine in service can run an operation (R499). -/
def noEngine (s : State) (j : Job) (c : Ctx) : Bool :=
  (if needsLane j then (mappedForges s).isEmpty else if isAnvil j.opc then s.anv.up == 0 else j.opc != 0x33 && s.dig.pipeUp == 0)
    || (isEspMac c.kind && s.dig.pipeUp == 0)

/-- Takes the operation's place and starts its reads. -/
def startJob (tag : Nat) (s : State) : State :=
  match s.job? tag with
  | none => s
  | some j =>
    let j1 := { j with place := pickPlace s j, comet := if isSym j.opc && fComet j.flags then cometStart s j else none, phase := .reading }
    let s1 := placeOne (s.modJob tag fun _ => j1) j1
    jobStart tag (if needsLane j1 then s1.modBlw fun b => { b with slots := b.slots + j1.tokens } else s1)

/-! ### The end of admission -/

/-- PN_EXHAUSTED. -/
def exhausted (d : Nat) : Res := res 0x12 d

/-- The HMAC slots that an operation would depend on (R273, R311). -/
def Job.hslotsOf (s : State) (j : Job) (e : Option Nat) : List Nat :=
  match e with
  | some k =>
    let c := s.ctxAt k
    if !isEspMac c.kind then [] else if isRx c.kind then [c.hslot 0, c.hslot 1] else [c.hslot (useSlot c)]
  | none => if isMacOp j.opc && bit j.flags 0 then [dgSlot j.body] else []

/-- Check 8 on the other slot of a received frame's context, as it stands at admission (R27, R273). -/
def otherCheck (s : State) (j : Job) (e slot : Nat) : Option Res :=
  let c := s.ctxAt e
  if !isRx c.kind then none
  else match ctxKeyCheck s e (1 - slot) with
    | some r => some r
    | none => if isEspMac c.kind then hslotCheck s (c.hslot (1 - slot)) j.inst 0 else none

/-- Captures what an operation reads of its context at admission: the context itself with its generation, the keys, the key slot and its
generation, and the HMAC slot with its generation (R27). -/
def captureKeys (s : State) (j : Job) (e slot : Nat) : Job :=
  let c := s.ctxAt e
  let hs := if isEspMac c.kind then some (c.hslot slot) else none
  readKeys s { j with ctxEnt := some e, adm := c, other := otherCheck s j e slot, keySlot := slot,
                      keyGen := (s.ctxKey (ctxKeyIx e slot)).gen, hslot := hs, hgen := (hs.map fun n => (s.hslot n).gen).getD 0,
                      parent := if isKeyJob j.opc then kjParent j.body else if isAnvil j.opc then avParent j.body else 0 }

/-- The key of the parent slot that a handle names. -/
def parentKey (s : State) (h : Nat) : List Byte :=
  let k := s.parent (hIndex h)
  k.key.take (keyBytes k.bits)

/-- Captures what a key or Anvil job, or a MAC job with a slot, reads at admission. -/
def captureNamed (s : State) (j : Job) : Job :=
  if isKeyJob j.opc || isAnvil j.opc then
    let h := if isKeyJob j.opc then kjParent j.body else avParent j.body
    { j with parent := h, keyA := if h = 0 then [] else parentKey s h, keyGen := handleGen s h }
  else if isMacOp j.opc && bit j.flags 0 then
    let n := dgSlot j.body
    { j with hslot := some n, hgen := (s.hslot n).gen }
  else j

/-- Consumes the number that an operation takes at admission: a packet or sequence number (R152, R272), or an invocation
count (R171); none where there is none left. -/
def takeNumber (s : State) (j : Job) (e : Nat) : Except Res (Job × State) :=
  let c := s.ctxAt e
  if j.opc = 0x20 || j.opc = 0x22 then
    match c.takeTx with
    | none => .error (exhausted 1)
    | some p => .ok ({ j with pn := p.1 }, s.setCtx e p.2)
  else if isSym j.opc && fIvCtx j.flags then
    if c.sci ≥ 2 ^ 64 - 1 then .error (exhausted 2)
    else .ok ({ j with iv := natLe 4 c.w ++ natBe 8 c.sci }, s.modCtx e fun x => { x with sci := x.sci + 1 })
  else .ok (j, s)

/-- Whether a transmit frame for a stream port is oversize for its gate, checked before it consumes a number (R403). -/
def txOversize (s : State) (j : Job) (c : Ctx) : Bool :=
  (j.opc == 0x20 || j.opc == 0x22) && (match j.egress with
    | some x => oversize s x.1 x.2.1 (txOut c (if j.frame.isEmpty then frLen j.body else j.frame.length) (frHdr j.body))
    | none => false)

/-- A checked operation on cache entry `e` is admitted (R27, R152, R171, R250, R272). -/
def admitChecked (tag e : Nat) (j : Job) (s : State) : State :=
  let slot := useSlot (s.ctxAt e)
  if noEngine s j (s.ctxAt e) then refuseJob tag modeBad s
  else if txOversize s j (s.ctxAt e) then refuseJob tag windowOversize (s.modJob tag fun _ => { j with ctxEnt := some e })
  else
    match takeNumber s j e with
    | .error r => refuseJob tag r (s.modJob tag fun _ => { j with ctxEnt := some e })
    | .ok p =>
      let j1 := captureKeys p.2 p.1 e slot
      let j2 := if installsKey j.opc then { captureNamed s j1 with keyB := [] } else j1
      startJob tag ((p.2.modJob tag fun _ => j2).modCtx e fun c => { c with lastUse := now s / 1000 })

/-- Whether an operation must wait for an HMAC slot that is being loaded (R311). -/
def slotPending (s : State) (j : Job) (e : Option Nat) : Bool := (j.hslotsOf s e).any fun n => (s.hslot n).pending

/-- The Comet set that an operation must wait for: a combiner, or Forges that are gated or out of service for a while (R208, R234). -/
def cometWaits (s : State) (j : Job) : Option (List Nat) :=
  if !(isSym j.opc && fComet j.flags) then none
  else match cometSet s j.inst j.body with
    | none => some []
    | some x => if x.1.all (cometUp s) then none else some x.1

/-- A stream operation whose context's kind is known: its opcode, body and segments; other operations stay as they are. -/
def Job.ofKind (j : Job) (k : Nat) : Job :=
  match j.src with
  | .stream p _ =>
    { j with opc := streamOpc k, body := streamBody j.frame k ((j.egress.map fun x => x.2.1).getD 0) p,
             segs := max 1 (ceilDiv j.frame.length 4096) }
  | .ring _ _ => j

/-- Whether a stream frame stands at a context of a kind that no stream may use. -/
def streamBad (j : Job) (k : Nat) : Bool :=
  match j.src with
  | .stream _ _ => !(isMacsec k || isEsp k)
  | .ring _ _ => false

/-- Checks a held operation whose context is cache entry `e`: it is admitted, ends with the first check that fails, or waits. -/
def admitHit (tag e : Nat) (j : Job) (s : State) : State :=
  let k := (s.ctxAt e).kind
  let j1 := j.ofKind k
  let s1 := s.modJob tag fun _ => j1
  let s2 := s.modJob tag fun _ => { j1 with ctxEnt := some e }
  if (s.ctxAt e).st == .stale && (s.ctxAt e).cause = 2 then refuseJob tag (res 7 1) s2
  else if streamBad j k then refuseJob tag kindBad s
  else if slotPending s1 j1 (some e) then s1
    else match ctxChecks s1 j1 e with
      | some r => refuseJob tag r s2
      | none => (match cometWaits s1 j1 with
        | some set => wakeSet set s1
        | none => admitChecked tag e j1 s1)

/-- Checks a held operation that names no context. -/
def admitPlain (tag : Nat) (j : Job) (s : State) : State :=
  if slotPending s j none then s
  else match plainChecks s j with
  | some r => refuseJob tag r s
  | none =>
    if noEngine s j {} then refuseJob tag modeBad s
    else startJob tag (s.modJob tag fun _ => captureNamed s j)

/-- Resolves and checks a held operation: it is admitted, ends with the first check that fails, or waits (R158, R159, R254, R256). -/
def admitJob (tag : Nat) (s : State) : State :=
  match s.job? tag with
  | none => s
  | some j =>
    if j.phase != .held then s
    else if !namesCtx j.opc j.flags then admitPlain tag j s
    else
      match resolve s j.inst j.handle with
      | .busy => addMiss j.handle j.inst s
      | .miss => if fetchAllowed s then addMiss j.handle j.inst s else refuseJob tag (ctxMiss 2) s
      | .hit e => admitHit tag e j s

/-- Tries every held operation again that waits for no fetch. -/
def resumeHeld (s : State) : State :=
  s.jobs.foldl (fun t j => if j.phase == .held && !(t.vault.misses.contains (j.handle, j.inst)) then admitJob j.tag t else t) s

/-- Tries the operations held for a handle again. -/
def resumeHandle (h : Nat) (s : State) : State :=
  s.jobs.foldl (fun t j => if j.phase == .held && j.handle = h then admitJob j.tag t else t) s

/-! ### Admitting entries, frames and segments -/

/-- Puts an entry in the reorder buffer and takes it from the cache. -/
def takeCached (n : Nat) (e : Entry) (fin : Option Res) (s : State) : State :=
  s.modRing n fun r => { r with cache := r.cache.drop 1, rob := r.rob ++ [{ ent := e, fin := fin }] }

/-- Whether no Anvil unit in service has room in its queue (R324). -/
def anvilFull (s : State) : Bool := s.anv.up != 0 && pickUnit s == .none

/-- Whether a tag quota, a combiner, a full Anvil queue or an egress ceiling holds an entry of instance `i` back (R208, R324, R383,
R406, R411). -/
def entryHeld (s : State) (e : Entry) (i : Nat) : Bool :=
  let o := hOpc e.hdr
  !tagOk s i || (isSym o && fComet (hFlags e.hdr) && (cometFirst s).isNone) || (isAnvil o && anvilFull s)
    || (isFrame o && frSel e.body != 0 && frSel e.body ≤ 2 && e.verdict.isNone
        && !egressRoom s (frSel e.body - 1) (frClass e.body) (frLen e.body))

/-- Whether the next entry of ring `n` may be admitted now. -/
def ringReady (s : State) (n : Nat) (e : Entry) (i : Nat) : Bool :=
  let o := hOpc e.hdr
  admitOn s i && ringMode s && (s.ring n).st == .enabled && !isControl s n && creditOk s i (schedOf o)
    && !(hBarrier e.hdr && !(s.ring n).rob.isEmpty) && !entryHeld s e i

/-- Admits the next entry of ring `n`. -/
def admitEntry (n : Nat) (e : Entry) (i : Nat) (s : State) : State :=
  let verdict := match e.verdict with
    | some v => some (chainVerdict (e.headers.any fun h => hdrReserved (hOpc h.2) h.2 e.body) v)
    | none => entryChecks s e
  let s0 := chargeSlot i (schedOf (hOpc e.hdr)) (firstBytes (hOpc e.hdr) e.body) s
  match verdict with
  | some v => takeCached n e (some v) s0
  | none =>
    match freeJobTag s with
    | none => s
    | some tag =>
      let j := ringJob n e tag i
      let s1 := takeCached n e none { s0 with jobs := s0.jobs ++ [j] }
      let s2 := match j.egress with
        | some x => reserveEgress x.1 x.2.1 0 i tag (frLen e.body) true s1
        | none => s1
      admitJob tag s2

/-- Admits an entry as the entry cache holds it: one whose words fail their check there has the outcome IC_ERROR (R68, R70). -/
def admitCached (n : Nat) (flip : Option Nat) (e : Entry) (i : Nat) (s : State) : State :=
  if storedGood flip e.body e.ics (fun b => entryCodes (s.ring n) i { e with body := b }) then admitEntry n e i s
  else icViolation (admitEntry n { e with verdict := some icError } i s)

/-- The stored frame of an instance on a port that is admitted next: the highest class whose oldest frame has its context, class 7
by priority (R387). -/
def nextFrame (s : State) (p i : Nat) : Option InFrame :=
  let mine := (s.sp p).ing.filter fun f => f.f.inst.val = i && (match f.st with
    | .admitted _ => false
    | _ => true)
  let head := fun (c : Nat) =>
    let q := mine.filter fun f => f.f.cls.val = c
    let best := if c = 7 then q.foldl (fun m f => max m f.prio) 0 else 0
    (if c = 7 then q.filter fun f => f.prio = best else q).head?
  [7, 6, 5, 4, 3, 2, 1, 0].findSome? fun c => (head c).bind fun f => match f.st with
    | .named _ => if egressRoom s p c f.f.data.length then some f else none
    | _ => none

/-- Admits a stored stream frame. -/
def admitFrame (p i : Nat) (f : InFrame) (s : State) : State :=
  match freeJobTag s, f.st with
  | some tag, .named h =>
    let len := f.f.data.length
    let c := f.f.cls.val
    let s0 := chargeSlot i .lane (min 4096 len) s
    let j : Job := { tag := tag, inst := i, src := .stream p f.id, opc := 0x20, handle := h, frame := f.f.data, phase := .held,
                     egress := some (p, c, f.prio), colour := f.colour }
    let s1 := reserveEgress p c f.prio i tag len false { s0 with jobs := s0.jobs ++ [j] }
    admitJob tag (s1.modSp p fun x =>
      { x with ing := x.ing.map fun g => if g.id = f.id then { g with st := .admitted tag } else g })
  | _, _ => s

/-- A stored ingress frame fails the check of its words at its admission: an IC_ERROR of the frame and a fault of its port
(R68, R70). -/
def ingressFail (p i : Nat) (f : InFrame) (s : State) : State :=
  failFrame p f.id icError (icViolation (portFault (2 ^ (12 + p)) (chargeSlot i .lane (min 4096 f.f.data.length) s)))

/-- The free lane that a saved stripe goes on with, where its Forge runs its lanes. -/
def stripeLane (s : State) (tag : Nat) (x : Stripe) : Option Place :=
  if !x.saved then none else (x.place.forge?.filter (logicalRuns s)).bind (freeLane s tag false)

/-- A Comet job with the lowest of its saved stripes that has one back on a lane of its Forge (R211). -/
def resumeStripe (s : State) (tag : Nat) (c : Comet) : Comet :=
  match c.stripes.findIdx? fun x => (stripeLane s tag x).isSome with
  | none => c
  | some i => { c with stripes := c.stripes.modify i fun x =>
      { x with saved := false, slotIx := 0, place := (stripeLane s tag x).getD x.place } }

/-- Resumes a saved operation: on a lane of its Forge (R202), on a pipe (R305), or, an encrypt-then-MAC frame, with a reservation on a
pipe (R315). -/
def resumeSegment (j : Job) (s : State) : State :=
  let s0 := chargeSlot j.inst (schedOf j.opc) (if j.comet.isSome then 4096 else min 4096 (j.stream - 4096 * j.segDone)) s
  match j.comet, j.onForge with
  | some c, _ => s0.modJob j.tag fun x => { x with comet := some (resumeStripe s0 j.tag c) }
  | none, some l => if j.etm then placeOne (s0.modJob j.tag fun x => { x with pipe := leastPipe s }) { j with pipe := leastPipe s }
      else s0.modJob j.tag fun x => restored s0 l x
  | none, none => match freePipe s j.tag with
    | some p => s0.modJob j.tag fun x => readKeys s { x with saved := false, slotIx := 0, place := .pipe p }
    | none => s

/-- Whether a saved operation may go on: its Forge runs its lanes and has a free one, or a pipe is free. -/
def canResume (s : State) (j : Job) : Bool :=
  match j.comet with
  | some c => c.stripes.any fun x => (stripeLane s j.tag x).isSome
  | none => j.saved && j.pipe.isNone && (match j.onForge with
    | some l => logicalRuns s l && (j.etm || (freeLane s j.tag j.cbcEnc l).isSome)
    | none => (freePipe s j.tag).isSome)

/-- Whether the turn of a saved operation has come: the data plane runs and its instance has credit. -/
def turnReady (s : State) (j : Job) : Bool :=
  j.resting && powered s && !s.modes.dpStopped && !s.modes.halted && creditOk s j.inst (schedOf j.opc)

/-- Whether a saved operation's segment may be granted: its turn has come and an engine is free for it. -/
def segmentReady (s : State) (j : Job) : Bool := turnReady s j && canResume s j

/-! ### The rounds of R411 -/

/-- The sources of an instance in the order of their rotation: its rings by number, then its two ingress queues. -/
def sourcesOf (s : State) (i : Nat) : List Source :=
  ((tkeys s.rings).filter fun n => (s.inst i).sqFirst ≤ n && n < (s.inst i).sqFirst + (s.inst i).sqCount).map Source.ring
    ++ [.stream 0, .stream 1]

/-- Admissions that a source takes in one turn (R411). -/
def burstOf (s : State) : Source → Nat
  | .ring n => (s.ring n).burst + 1
  | .stream _ => 64

/-- Whether an operation comes from ring `n`. -/
def Job.ofRing (j : Job) (n : Nat) : Bool :=
  match j.src with
  | .ring r _ => r == n
  | .stream _ _ => false

/-- Whether an operation comes from the frames of instance `i` on port `p`. -/
def Job.ofPort (j : Job) (p i : Nat) : Bool :=
  match j.src with
  | .ring _ _ => false
  | .stream q _ => q == p && j.inst == i

/-- Whether an operation came from a source of its instance. -/
def Job.fromSource (j : Job) : Source → Bool
  | .ring n => j.ofRing n
  | .stream p => j.ofPort p j.inst

/-- What an admission slot grants: the next segment of a saved operation, a ring's next entry, or a stored stream frame. -/
inductive Work | segment (j : Job) | entry (n : Nat) (e : Entry) | frame (p : Nat) (f : InFrame)
  deriving DecidableEq, Repr

/-- Whether the block and an instance take stream frames now (R383, R483). -/
def streamOn (s : State) (i : Nat) : Bool :=
  let st := (s.inst i).st
  (admitOn s i || ((s.modes.mode == .eclipse || st == .eclipse) && powered s && !s.modes.dpStopped && !s.modes.halted
      && !s.tam.frozen && ((st == .enabled && !reEnabling s i) || st == .eclipse)))
    && (streamMode s || s.modes.mode == .eclipse)

/-- The work of a source that may be admitted now in a scheduler: its saved operations before its next entry or frame. -/
def sourceWork (s : State) (i : Nat) (c : Sched) (src : Source) : Option Work :=
  match s.jobs.find? fun j => j.inst == i && schedOf j.opc == c && j.fromSource src && segmentReady s j with
  | some j => some (.segment j)
  | none => match src with
    | .ring n => ((s.ring n).cache.head?.filter fun e => schedOf (hOpc e.hdr) == c && ringReady s n e i).map (Work.entry n)
    | .stream p => if c == .lane && streamOn s i && creditOk s i .lane && tagOk s i then (nextFrame s p i).map (Work.frame p) else none

/-- The next source of an instance: the one being served while its burst lasts, else the next in rotation that has work (R411). -/
def nextSource (s : State) (i : Nat) (c : Sched) (t : Turn) : Option (Source × Work × Nat) :=
  let same := t.cur.bind fun x => if t.left = 0 then none else (sourceWork s i c x).map fun w => (x, w, t.left - 1)
  match same with
  | some g => some g
  | none =>
    let l := sourcesOf s i
    let k := ((tget t.last none i).bind fun x => l.findIdx? (· == x)).elim 0 (· + 1)
    (l.drop k ++ l.take k).findSome? fun x => (sourceWork s i c x).map fun w => (x, w, burstOf s x - 1)

/-- The next admission of a round: an instance, its work, and where the scheduler stands after it (R411). -/
def findGrant (s : State) (c : Sched) (t : Turn) : List Nat → Option (Nat × Work × Turn)
  | [] => none
  | i :: l =>
    match if creditOk s i c then nextSource s i c t else none with
    | some g => some (i, g.2.1, { t with todo := i :: l, cur := some g.1, left := g.2.2, last := tset t.last none i (some g.1) })
    | none => findGrant s c { t with cur := none, left := 0 } l

/-- The next admission of the round in progress, none where the round has come to its end. -/
def nextGrant (s : State) (c : Sched) : Option (Nat × Work × Turn) :=
  if roundOpen s c then findGrant s c (s.turn c) (s.turn c).todo else none

/-- Whether a tag quota, the egress ceiling, a combiner or a full Anvil queue holds back all the work of an instance (R411). -/
def heldBack (s : State) (i : Nat) (c : Sched) : Bool :=
  (!(s.jobs.any fun j => j.inst = i && j.resting && schedOf j.opc == c))
    && (sourcesOf s i).all fun
      | .ring n => match (s.ring n).cache.head? with
        | some e => schedOf (hOpc e.hdr) != c || isControl s n || entryHeld s e i
        | none => true
      | .stream p => c != .lane || !tagOk s i || (nextFrame s p i).isNone

/-- An instance at a round boundary: the pending weight and burst, then its credit (R411, R412). -/
def roundInst (s : State) (c : Sched) (i : Nat) (v0 : Inst) : Inst :=
  let v := { v0 with weight := v0.newWeight, burst := v0.newBurst }
  if !hasWork s i c then v.setCredit c 0
  else if shpHolds v c || heldBack s i c then v.setCredit c (min (v.credit c) v.burst)
  else v.setCredit c (min (v.credit c + v.weight) v.burst)

/-- The order of a new round: ascending from the instance after the first of the last round (R411). -/
def newRound (s : State) (t : Turn) : Turn :=
  let k := (t.first + 1) % 129
  let l := tkeys s.insts
  { t with first := k, todo := (l.filter (· ≥ k)) ++ l.filter (· < k), cur := none, left := 0 }

/-- SCHEDULER_ROUND (R28, R29, R411, R412): a round begins once the one in progress has nothing more to admit (log entry 46). -/
def execSchedulerRound (sch : Sched) (s : State) : Out :=
  .next (if !powered s || (nextGrant s sch).isSome then s
    else
      let s0 := (s.modFab fun b => { b with rounds := b.rounds ||| schedBit sch }).modTurn sch (newRound s)
      let s1 := (tkeys s.insts).foldl (fun t i => t.modInst i (roundInst s sch i)) s0
      if sch == .lane then s1.modBlw fun b => { b with limit := b.pendLimit } else s1)

/-! ### ADMISSION -/

/-- Carries a grant out; `flip` names a bit of the stored entry or frame that has flipped (R68). -/
def admitWork (i : Nat) (flip : Option Nat) (w : Work) (s : State) : State :=
  match w with
  | .segment j => resumeSegment j s
  | .entry n e => admitCached n flip e i s
  | .frame p f => if storedGood flip f.f.data f.ics (fun b => wordCodes b 0 i) then admitFrame p i f s else ingressFail p i f s

/-- ADMISSION (R158, R202, R236, R411): the dispatcher grants an admission slot of a scheduler to the next work of its round. A slot of
the lane scheduler that the limiter closes passes unused. -/
def execAdmission (slot : AdmSlot) (s : State) : Out :=
  .next (match nextGrant s slot.sch with
    | none => s
    | some g =>
      let s1 := if slot.sch == .lane then passSlot s else s
      if slot.sch == .lane && slotClosed s1 then s1 else conclude (admitWork g.1 slot.flip g.2.1 (s1.modTurn slot.sch fun _ => g.2.2)))

end Sys2Proof.Machine
end

