-- ==== Sys2Proof/Machine/Jobs.lean ====
section
/-! DEFINITION. The opcodes of the lanes and the digest pipes (R140): PAD, the symmetric jobs (R149 to R151, R169 to R177), MACsec and
ESP frames (R179 to R194) and the digest jobs (R153, R154, R301, R302, R320). Each row takes up an admitted operation whose reads are
complete: an operation of one segment is computed at once, a longer one begins, and its segments pass one by one (R200, R305). -/

namespace Sys2Proof.Machine

/-! ### Keys in use (R270) -/

/-- The frame of a frame job: the stored ingress frame, or the source. -/
def jobFrame (s : State) (j : Job) : List Byte :=
  if j.frame.isEmpty then bytesAt (jobPart s j partData) 0 (frLen j.body) else j.frame

/-- The slot that a received frame selects by its AN or SPI, on its context as admitted (R273). -/
def Job.selects (s : State) (j : Job) : Option Nat :=
  let l := jobFrame s j
  let o := frHdr j.body
  j.adm.rxSlot fun k => if j.opc = 0x21 then j.adm.an k == leAt l (o + 2) 1 % 4 else j.adm.spi k == leAt l o 4

/-- Whether an admitted operation uses the key in a slot of its context: a received frame, while it has not arrived, may select any that
its context offered (R270). -/
def usesSlot (s : State) (j : Job) (slot : Nat) : Bool :=
  if !isRx j.kind then j.keySlot = slot || j.kind = 5
  else if j.phase == .reading then
    (if readsDone s j then j.selects s == some slot else slot = j.adm.role || j.adm.other = 1 || j.adm.other = 2)
  else if j.verified then j.keySlot = slot
  else j.res.isNone && j.sc.slot = slot

/-- Whether admitted operations still use the key in a slot of cache entry `e` that a new one would replace. -/
def slotInUse (s : State) (e slot : Nat) : Bool :=
  s.jobs.any fun k => k.ctxEnt == some e && !installsKey k.opc && usesSlot s k slot

/-- Whether the key that an installation would replace in cache entry `e` is in use. -/
def nextInUse (s : State) (e : Nat) : Bool := slotInUse s e (1 - (s.ctxAt e).role)

/-! ### When an opcode's row may compute -/

/-- Whether the block works on operations: powered, not halted, the data plane running (R24, R444). -/
def working (s : State) : Bool := powered s && !s.modes.halted && !s.modes.dpStopped

/-- Whether a Forge of a Comet job's stripes runs its lanes. -/
def Comet.runs (s : State) (c : Comet) : Bool := c.stripes.any fun x => (x.place.forge?.map (logicalRuns s)).getD false

/-- Whether an operation searches for RSA primes, in which it yields its unit after each candidate (R324). -/
def rsaSearch (j : Job) : Bool := j.opc == 0x47 && avAlg j.body == 1

/-- Whether an Anvil operation could run now, but for the other jobs of its unit. -/
def unitReady (s : State) (j : Job) : Bool :=
  j.phase == .reading && j.res.isNone && readsDone s j && !(installsKey j.opc && (j.ctxEnt.map (nextInUse s)).getD false)

/-- Whether an Anvil unit has come to an operation of its queue: none that could run stands before it but a search for RSA primes (R324). -/
def unitTurn (s : State) (j : Job) : Bool :=
  (s.jobs.takeWhile fun k => k.tag != j.tag).all fun k => k.place != j.place || rsaSearch k || !unitReady s k

/-- Whether an engine takes an operation up: its lane runs and is free, with the pipe of an encrypt-then-MAC frame, its pipe is in
service and free, ahead of which no such frame waits, or its Anvil unit has come to it (R202, R299, R313, R324); COMPARE needs none
(R320). -/
def placeUp (s : State) (j : Job) : Bool :=
  match j.comet with
  | some c => c.runs s
  | none => match j.place with
    | .none => j.opc == 0x33
    | .lane l _ => logicalRuns s l && laneFree s j.tag j.cbcEnc j.place && reserved s j
    | .pipe p => s.dig.pipeUp.toNat.testBit p && !pipeBusy s j.tag p && !reservationWaits s p
    | .unit u => s.anv.up.toNat.testBit u && unitTurn s j

/-- The operation with a tag that waits for the computation of an opcode, its data having arrived. -/
def readyJob (s : State) (tag o : Nat) : Option Job :=
  (s.job? tag).filter fun j =>
    working s && j.opc == o && j.phase == .reading && j.res.isNone && !j.saved && readsDone s j && placeUp s j

/-- Runs an opcode's computation on an operation that waits for it. -/
def runOp (tag o : Nat) (f : Job → State → State) (s : State) : Out :=
  .next (match readyJob s tag o with
    | some j => conclude (placeWork (f j s))
    | none => s)

/-- PAD (R103): nothing, as OK. -/
def execPad (tag : Tag) (s : State) : Out := runOp tag.val 0x00 (fun j t => computeJob j.tag [] [] (res 0 0) t) s

/-! ### The end of a text or frame -/

/-- The key of a context's slot as the operation was admitted with it. -/
def Job.keyOf (j : Job) (slot : Nat) : List Byte := if slot = j.keySlot then j.keyA else j.keyB

/-- The key under which an operation's text stands: that of the slot a received frame selects, else the one it was admitted with. -/
def Job.textKey (j : Job) : List Byte := if isFrame j.opc && decrypts j.opc then j.keyOf j.sc.slot else j.keyA

/-- The HMAC slot of an encrypt-then-MAC frame's text (R314). -/
def Job.macSlot (j : Job) : Option Nat :=
  if !j.etm then none else if decrypts j.opc then some (j.adm.hslot j.sc.slot) else j.hslot

/-- The tag or ICV of an operation's text, its outer HMAC state read from the slot again (R306). -/
def Job.textTag (s : State) (j : Job) : List Byte :=
  j.sc.tag j.textKey ((j.macSlot.map fun n => (s.hslot n).states.2).getD []) j.eng

/-- RESULT of an operation that has given so much output: zero for a stream job (R151). -/
def Job.resultOf (j : Job) (n : Nat) : Nat := if j.egress.isSome then 0 else n

/-- Counts a MAC failure on an HMAC slot (R312). -/
def hslotFail (n : Nat) (s : State) : State :=
  s.modDig fun d => { d with slots := tmod d.slots {} n fun h => { h with failCnt := min 0xFFF (h.failCnt + 1) } }

/-- Marks a received frame as verified, with its number and slot. -/
def markVerified (tag slot num : Nat) (s : State) : State :=
  s.modJob tag fun x => { x with verified := true, pn := num, keySlot := slot }

/-- AUTH_FAIL of a tag or ICV that does not match: it counts on the HMAC slot it was made with. -/
def Job.tagVerdict (j : Job) (s : State) : Res × State :=
  match j.macSlot with
  | some n => (macFail, hslotFail n s)
  | none => (tagFail, s)

/-- An operation's output and outcome are complete: what is left of the output is written up to byte `n`, and the separate outputs. -/
def closeJob (j : Job) (out : List Byte) (n : Nat) (post : List (Nat × List Byte)) (r : Res) (s : State) : State :=
  jobPost j.tag (jobEmit j.tag j.eng.dst (n - j.eng.dst) (s.modJob j.tag fun x =>
    { x with out := out, post := post, res := some r, phase := .computed, segs := j.segs, segDone := j.segs, handed := false }))

/-- The last segment of a text or frame: the tag is added, or compared in full (R149, R195, R320); a receiver writes what it has
deciphered before it knows the verdict (R197), but of a frame whose padding fails only the segments before (R193). -/
def endText (j : Job) (s : State) : State :=
  let tag := j.textTag s
  let n := j.out.length
  if decrypts j.opc then
    if tag == j.sc.given then
      closeJob j j.out (if j.ends.isSome then j.eng.dst else n) [] (j.ends.getD (res 0 0 (j.resultOf n)))
        (if isFrame j.opc then markVerified j.tag j.sc.slot j.sc.num s else s)
    else closeJob j j.out n [] (j.tagVerdict s).1 (j.tagVerdict s).2
  else if isSym j.opc && fTagSep j.flags then
    closeJob j j.out n (if tag.isEmpty then [] else [(symTagAddr j.body, tag)]) (res 0 0 n) s
  else closeJob j (j.out ++ tag) (n + tag.length) [] (res 0 0 (j.resultOf (n + tag.length))) s

/-- An operation whose source list has run out or does not end works on what it has read, and ends with that outcome (R160). -/
def endShort (j : Job) (got : Nat) (r : Res) (s : State) : State :=
  let out := j.out.take (j.sc.outAt got)
  closeJob { j with segs := 1 } out out.length [] r s

/-- The state that the string of an encrypt-then-MAC frame follows: the inner state of its slot (R314). -/
def Job.textStart (s : State) (j : Job) : Eng := { words := (j.macSlot.map fun n => (s.hslot n).states.1).getD [] }

/-- Takes up what a lane makes of an operation, of whose source `got` bytes have been read. -/
def startText (got : Nat) (m : Made) (j : Job) (s : State) : State :=
  let j1 := { j with out := m.out, sc := m.sc }
  let e := j1.textStart s
  let j2 := { j1 with eng := e, back := (0, e), phase := .computed }
  match j.ends with
  | some r => endShort j2 got r (s.modJob j.tag fun _ => j2)
  | none =>
    let j3 := { j2 with ends := m.ends }
    let s1 := s.modJob j.tag fun _ => j3
    if j.segs ≤ 1 then endText j3 s1 else s1

/-! ### Symmetric jobs (R149, R150, R169 to R177) -/

/-- The IV of a symmetric job: the context's (R171) or the descriptor's. -/
def Job.symIvOf (j : Job) : List Byte := if fIvCtx j.flags then j.iv else symIv j.body

/-- What a lane makes of a symmetric job. -/
def symTake (dec : Bool) (s : State) (j : Job) : Made :=
  let b := j.body
  let data := jobPart s j partData
  let given := if !dec then [] else if fTagSep j.flags then jobPart s j partTag else bytesAt data (symAad b + symText b) (symTag b)
  symMade dec j.kind j.keyA j.keyB j.symIvOf (bytesAt data 0 (symAad b)) (bytesAt data (symAad b) (symText b)) (symDu b)
    (fAadCopy j.flags) given (symTag b)

/-- A Comet job's text, which its stripes work off (R207). -/
def startComet (m : Made) (j : Job) (s : State) : State := s.modJob j.tag fun x => { x with out := m.out, sc := m.sc, phase := .computed, segs := 1 }

/-- Runs a symmetric job. -/
def symRun (dec : Bool) (j : Job) (s : State) : State :=
  let m := symTake dec s j
  if j.comet.isSome && j.ends.isNone then startComet m j s else startText (jobPart s j partData).length m j s

/-- SYM_ENC (R149). -/
def execSymEnc (tag : Tag) (s : State) : Out := runOp tag.val 0x10 (symRun false) s
/-- SYM_DEC (R149). -/
def execSymDec (tag : Tag) (s : State) : Out := runOp tag.val 0x11 (symRun true) s

/-! ### Frames -/

/-- Bytes of a frame that have been read. -/
def frameGot (s : State) (j : Job) : Nat := if j.frame.isEmpty then (jobPart s j partData).length else j.frame.length

/-- The context of an operation as it stands. -/
def jobCtx (s : State) (j : Job) : Ctx := (j.ctxEnt.map s.ctxAt).getD {}

/-- Check 8 as it stood at admission on the slot that a received frame selects, where it is not the one in use then (R27, R273). -/
def Job.slotCheck (j : Job) (slot : Option Nat) : Option Res :=
  match slot with
  | some k => if k = j.keySlot then none else j.other
  | none => none

/-- The outcome of a received frame that fails: a bad key of the selected slot comes before the replay checks and the ICV. -/
def rxFail (g : Option Res) (r : Res) : Res := if r.status = 1 || r.status = 0x11 then g.getD r else r

/-- Takes up a received frame, `g` being check 8 on the slot it selects: a source list's outcome comes first. -/
def startRx (m : Except Res Made) (g : Option Res) (j : Job) (s : State) : State :=
  match m, g with
  | .ok x, none => startText (frameGot s j) x j s
  | .ok _, some r => computeJob j.tag [] [] (j.ends.getD r) s
  | .error r, g => computeJob j.tag [] [] (j.ends.getD (rxFail g r)) s

/-- MACSEC_TX on an operation (R179, R180). -/
def macsecSend (j : Job) (s : State) : State :=
  startText (frameGot s j) (macsecTxMade j.adm j.keyA j.keySlot j.pn (jobFrame s j)) j s

/-- MACSEC_RX on an operation: steps 1 to 5 of R183 against the state at admission (R186), and the deciphering. -/
def macsecReceive (j : Job) (s : State) : State :=
  startRx (macsecRxMade j.adm j.keyOf (jobFrame s j) (frHdr j.body)) (j.slotCheck (j.selects s)) j s

/-- MACSEC_TX (R179). -/
def execMacsecTx (tag : Tag) (s : State) : Out := runOp tag.val 0x20 macsecSend s
/-- MACSEC_RX (R183). -/
def execMacsecRx (tag : Tag) (s : State) : Out := runOp tag.val 0x21 macsecReceive s

/-- TIMEOUT with NO_ENTROPY (R345). -/
def noEntropy : Res := res 0x23 1

/-- One generate request of `n` bytes from the DRBG (R344). -/
def drbgUse (n : Nat) (s : State) : State := drawn n (s.modAnv fun a => { a with requests := a.requests + 1 })

/-- Runs an operation that needs random bits: it waits for the DRBG to run, and fails where it has stopped (R345). -/
def withDrbg (f : Job → State → State) (j : Job) (s : State) : State :=
  if s.anv.drbg == .stopped then computeJob j.tag [] [] noEntropy s else if drbgUp s then f j s else s

/-- ESP_OUT on an operation (R189 to R191). -/
def espSend (j : Job) (s : State) : State :=
  match espOutMade j.adm j.keyA j.keySlot j.pn (frHdr j.body) (frNext j.body) (drawBytes s 16) (jobFrame s j) with
  | .error r => computeJob j.tag [] [] (j.ends.getD r) s
  | .ok m => startText (frameGot s j) m j (if j.kind / 2 = 0xA then drbgUse 16 s else s)

/-- ESP_OUT (R190): an AES-CBC suite needs random bits for its IV. -/
def execEspOut (tag : Tag) (s : State) : Out :=
  runOp tag.val 0x22 (fun j t => if j.kind / 2 = 0xA then withDrbg espSend j t else espSend j t) s

/-- ESP_IN on an operation: steps 1 to 5 of R193 against the state at admission, and the deciphering. -/
def espReceive (j : Job) (s : State) : State :=
  startRx (espInMade j.adm j.keyOf (jobFrame s j) (frHdr j.body)) (j.slotCheck (j.selects s)) j s

/-- ESP_IN (R193). -/
def execEspIn (tag : Tag) (s : State) : Out := runOp tag.val 0x23 espReceive s

/-! ### Digest jobs (R153, R154, R301, R302, R305, R320) -/

/-- The inner and outer HMAC states of a MAC job: its slot's, or its context key's (R302, R306). -/
def Job.macStates (s : State) (j : Job) : List Nat × List Nat :=
  match j.hslot with
  | some n => (s.hslot n).states
  | none => hmacStates (algHash (dgAlg j.body)) j.keyA

/-- The last segment of a digest job: its output, or the comparison of MAC_VERIFY, which writes nothing (R154). -/
def endDigest (j : Job) (s : State) : State :=
  let out := digestEnd (dgAlg j.body) (dgLen j.body) j.sc (j.macStates s).2 j.eng
  if j.opc != 0x32 then closeJob j out out.length [] (res 0 0 out.length) s
  else if out == jobPart s j partSecond then closeJob j [] 0 [] (res 0 0) s
  else closeJob j [] 0 [] macFail (match j.hslot with
    | some n => hslotFail n s
    | none => s)

/-- Takes up a digest job: its pipe loads the state that the message follows (R305). -/
def startDigest (j : Job) (s : State) : State :=
  let b := j.body
  let a := dgAlg b
  let msg := jobPart s j partData
  let e : Eng := { words := digestStart a j.keyA (jobPart s j partCustom) (j.hslot.map fun n => (s.hslot n).states.1) }
  let j1 := { j with phase := .computed, sc := digestScript a (dgLen b) msg, eng := e, back := (0, e), segs := digestSegs b msg.length }
  let s1 := s.modJob j.tag fun _ => j1
  if j1.segs ≤ 1 then endDigest j1 s1 else s1

/-- DIGEST (R301). -/
def execDigest (tag : Tag) (s : State) : Out := runOp tag.val 0x30 startDigest s

/-- MAC (R302). -/
def execMac (tag : Tag) (s : State) : Out := runOp tag.val 0x31 startDigest s

/-- MAC_VERIFY (R154): writes nothing; a mismatch is AUTH_FAIL and counts on the HMAC slot it used. -/
def execMacVerify (tag : Tag) (s : State) : Out := runOp tag.val 0x32 startDigest s

/-- COMPARE (R154, R320). -/
def execCompare (tag : Tag) (s : State) : Out :=
  runOp tag.val 0x33 (fun j t =>
    computeJob j.tag [] [] (if jobPart t j partData == jobPart t j partSecond then res 0 0 else res 1 3) t) s

end Sys2Proof.Machine
end

