-- ==== Sys2Proof/Machine/Lattice.lean ====
section
/-! DEFINITION. The lattice schemes of the Anvil units: ML-KEM after FIPS 203 (R335) and ML-DSA after FIPS 204 (R334), with the operand
formats of R326 (log entry 6). Polynomials are lists of 256 coefficients modulo the scheme's prime. -/

namespace Sys2Proof.Machine

/-- A polynomial. -/
abbrev Poly := List Nat

/-! ### Transforms -/

/-- The lowest `n` bits of a number in reverse order. -/
def bitRev (n x : Nat) : Nat :=
  match n with
  | 0 => 0
  | k + 1 => x % 2 * 2 ^ k + bitRev k (x / 2)

/-- A number-theoretic transform of so many layers, the twiddle of block `k` given by `z`. -/
def nttGo (layers q : Nat) (z : Nat → Nat) (k : Nat) (l : Poly) : Poly :=
  match layers with
  | 0 => l
  | n + 1 =>
    let h := l.length / 2
    let a := l.take h
    let t := (l.drop h).map fun x => z k * x % q
    nttGo n q z (2 * k) (List.zipWith (fun x y => (x + y) % q) a t)
      ++ nttGo n q z (2 * k + 1) (List.zipWith (fun x y => subMod q x y) a t)

/-- Its inverse, without the scaling; `z` gives the inverse twiddles. -/
def invGo (layers q : Nat) (z : Nat → Nat) (k : Nat) (l : Poly) : Poly :=
  match layers with
  | 0 => l
  | n + 1 =>
    let h := l.length / 2
    let a := invGo n q z (2 * k) (l.take h)
    let b := invGo n q z (2 * k + 1) (l.drop h)
    List.zipWith (fun x y => (x + y) % q) a b ++ List.zipWith (fun x y => z k * subMod q x y % q) a b

/-- Sum of two polynomials. -/
def polyAdd (q : Nat) (a b : Poly) : Poly := List.zipWith (fun x y => (x + y) % q) a b
/-- Difference of two polynomials. -/
def polySub (q : Nat) (a b : Poly) : Poly := List.zipWith (fun x y => subMod q x y) a b
/-- The zero polynomial. -/
def polyZero : Poly := List.replicate 256 0
/-- Inner product of two vectors under a product. -/
def dotWith (q : Nat) (mul : Poly → Poly → Poly) (a b : List Poly) : Poly := (List.zipWith mul a b).foldl (polyAdd q) polyZero

/-- Coefficients of `w` bits each as bytes. -/
def packBits (w : Nat) (l : List Nat) : List Byte :=
  natLe (w * l.length / 8) (l.foldr (fun x acc => x % 2 ^ w + acc * 2 ^ w) 0)

/-- The coefficients of `w` bits that bytes hold. -/
def unpackBits (w : Nat) (b : List Byte) : List Nat :=
  let n := leNat b
  (List.range (8 * b.length / w)).map fun i => fld n (w * i) w

/-! ### ML-KEM -/

/-- The modulus of ML-KEM. -/
def kemQ : Nat := 3329
/-- Twiddles of ML-KEM. -/
def kemZ (k : Nat) : Nat := powMod kemQ 17 (bitRev 7 k)
/-- Inverse twiddles. -/
def kemZi (k : Nat) : Nat := powMod kemQ 17 (256 - bitRev 7 k)
/-- The transform. -/
def kemNtt (l : Poly) : Poly := nttGo 7 kemQ kemZ 1 l
/-- The inverse transform. -/
def kemInv (l : Poly) : Poly := (invGo 7 kemQ kemZi 1 l).map fun x => x * 3303 % kemQ

/-- Products modulo X² − γ of coefficient pairs. -/
def kemMulGo (i : Nat) (a b : Poly) : Poly :=
  match a, b with
  | a0 :: a1 :: ar, b0 :: b1 :: br =>
    let g := powMod kemQ 17 (2 * bitRev 7 i + 1)
    ((a0 * b0 + a1 * b1 % kemQ * g) % kemQ) :: ((a0 * b1 + a1 * b0) % kemQ) :: kemMulGo (i + 1) ar br
  | _, _ => []

/-- Product in the transform domain. -/
def kemMul (a b : Poly) : Poly := kemMulGo 0 a b

/-- The parameters of a parameter set. -/
structure KemP where
  k : Nat
  eta1 : Nat
  du : Nat
  dv : Nat
  deriving DecidableEq, Repr

/-- The parameter set of an ALG code. -/
def kemP (a : Nat) : KemP :=
  if a = 0x30 then { k := 2, eta1 := 3, du := 10, dv := 4 }
  else if a = 0x31 then { k := 3, eta1 := 2, du := 10, dv := 4 }
  else { k := 4, eta1 := 2, du := 11, dv := 5 }

/-- Coefficients below the modulus from 3-byte groups, two candidates each. -/
def kemReject (l : List Byte) : Poly :=
  match l with
  | a :: b :: c :: r =>
    let d1 := a.toNat + 256 * (b.toNat % 16)
    let d2 := b.toNat / 16 + 16 * c.toNat
    (if d1 < kemQ then [d1] else []) ++ (if d2 < kemQ then [d2] else []) ++ kemReject r
  | _ => []

/-- An entry of the public matrix. -/
def kemEntry (rho : List Byte) (i j : Nat) : Poly := (kemReject (shake 168 (rho ++ [byte j, byte i]) 1344)).take 256

/-- A sample of the centred binomial distribution. -/
def kemCbd (eta : Nat) (b : List Byte) : Poly :=
  let n := leNat b
  let ones := fun (x : Nat) => ((List.range eta).map fun i => x / 2 ^ i % 2).sum
  (List.range 256).map fun i => subMod kemQ (ones (fld n (2 * eta * i) eta)) (ones (fld n (2 * eta * i + eta) eta))

/-- The sample of a seed and counter. -/
def kemNoise (eta : Nat) (seed : List Byte) (n : Nat) : Poly := kemCbd eta (shake 136 (seed ++ [byte n]) (64 * eta))

/-- Compression to `d` bits. -/
def compress (d x : Nat) : Nat := (x * 2 ^ (d + 1) + kemQ) / (2 * kemQ) % 2 ^ d
/-- Decompression from `d` bits. -/
def decompress (d x : Nat) : Nat := (2 * x * kemQ + 2 ^ d) / 2 ^ (d + 1)

/-- Bytes in pieces of `n`. -/
def pieces (n : Nat) (b : List Byte) : List (List Byte) := chunks (b.length / max 1 n + 1) (max 1 n) b

/-- The polynomials of an encapsulation key and its seed. -/
def kemEkParts (p : KemP) (ek : List Byte) : List Poly × List Byte :=
  ((pieces 384 (ek.take (384 * p.k))).map (unpackBits 12), ek.drop (384 * p.k))

/-- Key generation from d and z: the encapsulation and decapsulation keys. -/
def kemGen (a : Nat) (d z : List Byte) : List Byte × List Byte :=
  let p := kemP a
  let g := sha3 64 (d ++ [byte p.k])
  let rho := g.take 32
  let sig := g.drop 32
  let s := (List.range p.k).map fun i => kemNtt (kemNoise p.eta1 sig i)
  let e := (List.range p.k).map fun i => kemNtt (kemNoise p.eta1 sig (p.k + i))
  let t := (List.range p.k).map fun i =>
    polyAdd kemQ (dotWith kemQ kemMul ((List.range p.k).map fun j => kemEntry rho i j) s) (e.getD i [])
  let ek := (t.map (packBits 12)).flatten ++ rho
  (ek, (s.map (packBits 12)).flatten ++ ek ++ sha3 32 ek ++ z)

/-- Encryption of a 32-byte message under coins. -/
def kemEncrypt (a : Nat) (ek m r : List Byte) : List Byte :=
  let p := kemP a
  let tp := kemEkParts p ek
  let y := (List.range p.k).map fun i => kemNtt (kemNoise p.eta1 r i)
  let e1 := (List.range p.k).map fun i => kemNoise 2 r (p.k + i)
  let e2 := kemNoise 2 r (2 * p.k)
  let u := (List.range p.k).map fun i =>
    polyAdd kemQ (kemInv (dotWith kemQ kemMul ((List.range p.k).map fun j => kemEntry tp.2 j i) y)) (e1.getD i [])
  let mu := (unpackBits 1 m).map (decompress 1)
  let v := polyAdd kemQ (polyAdd kemQ (kemInv (dotWith kemQ kemMul tp.1 y)) e2) mu
  (u.map fun x => packBits p.du (x.map (compress p.du))).flatten ++ packBits p.dv (v.map (compress p.dv))

/-- Encapsulation with a message: the shared secret and the ciphertext. -/
def kemEncaps (a : Nat) (ek m : List Byte) : List Byte × List Byte :=
  let g := sha3 64 (m ++ sha3 32 ek)
  (g.take 32, kemEncrypt a ek m (g.drop 32))

/-- Decapsulation with implicit rejection. -/
def kemDecaps (a : Nat) (dk c : List Byte) : List Byte :=
  let p := kemP a
  let s := (pieces 384 (dk.take (384 * p.k))).map (unpackBits 12)
  let ek := bytesAt dk (384 * p.k) (384 * p.k + 32)
  let h := bytesAt dk (768 * p.k + 32) 32
  let z := bytesAt dk (768 * p.k + 64) 32
  let u := (pieces (32 * p.du) (c.take (32 * p.du * p.k))).map fun b => (unpackBits p.du b).map (decompress p.du)
  let v := (unpackBits p.dv (c.drop (32 * p.du * p.k))).map (decompress p.dv)
  let w := polySub kemQ v (kemInv (dotWith kemQ kemMul s (u.map kemNtt)))
  let m := packBits 1 (w.map (compress 1))
  let g := sha3 64 (m ++ h)
  if kemEncrypt a ek m (g.drop 32) == c then g.take 32 else shake 136 (z ++ c) 32

/-- The modulus check of an encapsulation key. -/
def kemEkOk (a : Nat) (ek : List Byte) : Bool := (kemEkParts (kemP a) ek).1.all fun f => f.all fun x => x < kemQ

/-- The hash check of a decapsulation key. -/
def kemDkOk (a : Nat) (dk : List Byte) : Bool :=
  let p := kemP a
  sha3 32 (bytesAt dk (384 * p.k) (384 * p.k + 32)) == bytesAt dk (768 * p.k + 32) 32

/-! ### ML-DSA -/

/-- The modulus of ML-DSA. -/
def dsaQ : Nat := 8380417
/-- Twiddles of ML-DSA. -/
def dsaZ (k : Nat) : Nat := powMod dsaQ 1753 (bitRev 8 k)
/-- Inverse twiddles. -/
def dsaZi (k : Nat) : Nat := powMod dsaQ 1753 (512 - bitRev 8 k)
/-- The transform. -/
def dsaNtt (l : Poly) : Poly := nttGo 8 dsaQ dsaZ 1 l
/-- The inverse transform. -/
def dsaInv (l : Poly) : Poly := (invGo 8 dsaQ dsaZi 1 l).map fun x => x * 8347681 % dsaQ
/-- Product in the transform domain. -/
def dsaMul (a b : Poly) : Poly := List.zipWith (fun x y => x * y % dsaQ) a b

/-- The parameters of a parameter set; `g1` is the exponent of γ1, `g2` the divisor of γ2, `c` the bytes of the challenge. -/
structure DsaP where
  k : Nat
  l : Nat
  eta : Nat
  tau : Nat
  g1 : Nat
  g2 : Nat
  omega : Nat
  c : Nat
  deriving DecidableEq, Repr

/-- The parameter set of an ALG code. -/
def dsaP (a : Nat) : DsaP :=
  if a = 0x38 then { k := 4, l := 4, eta := 2, tau := 39, g1 := 17, g2 := 88, omega := 80, c := 32 }
  else if a = 0x39 then { k := 6, l := 5, eta := 4, tau := 49, g1 := 19, g2 := 32, omega := 55, c := 48 }
  else { k := 8, l := 7, eta := 2, tau := 60, g1 := 19, g2 := 32, omega := 75, c := 64 }

/-- γ2. -/
def DsaP.gamma2 (p : DsaP) : Nat := (dsaQ - 1) / p.g2
/-- β. -/
def DsaP.beta (p : DsaP) : Nat := p.tau * p.eta

/-- Coefficients below the modulus from 3-byte groups. -/
def dsaReject (l : List Byte) : Poly :=
  match l with
  | a :: b :: c :: r =>
    let d := a.toNat + 256 * b.toNat + 65536 * (c.toNat % 128)
    (if d < dsaQ then [d] else []) ++ dsaReject r
  | _ => []

/-- An entry of the public matrix. -/
def dsaEntry (rho : List Byte) (r s : Nat) : Poly := (dsaReject (shake 168 (rho ++ [byte s, byte r]) 1344)).take 256

/-- Small coefficients from half bytes. -/
def dsaSmall (eta : Nat) (l : List Byte) : Poly :=
  let one := fun (z : Nat) =>
    if eta = 2 then (if z < 15 then [subMod dsaQ 2 (z % 5)] else []) else (if z < 9 then [subMod dsaQ 4 z] else [])
  (l.map fun b => one (b.toNat % 16) ++ one (b.toNat / 16)).flatten

/-- A secret polynomial. -/
def dsaSecret (eta : Nat) (seed : List Byte) (n : Nat) : Poly := (dsaSmall eta (shake 136 (seed ++ natLe 2 n) 816)).take 256

/-- The signed distance from zero. -/
def normOf (x : Nat) : Nat := min x (dsaQ - x)

/-- Largest distance from zero of a vector's coefficients. -/
def normVec (v : List Poly) : Nat := v.foldl (fun m f => f.foldl (fun k x => max k (normOf x)) m) 0

/-- High and low part by 2^13. -/
def power2Round (x : Nat) : Nat × Nat :=
  let lo := x % 8192
  if lo ≤ 4096 then (x / 8192, lo) else (x / 8192 + 1, subMod dsaQ lo 8192)

/-- High part and low part by 2γ2. -/
def decompose (p : DsaP) (x : Nat) : Nat × Nat :=
  let m := 2 * p.gamma2
  let lo := x % m
  let neg := lo > p.gamma2
  let hi := if neg then x - lo + m else x - lo
  if hi = dsaQ - 1 then (0, subMod dsaQ (if neg then subMod dsaQ lo m else lo) 1)
  else (hi / m, if neg then subMod dsaQ lo m else lo)

/-- A coefficient `b − w` and back, as BitPack codes it. -/
def flip (b w : Nat) : Nat := subMod dsaQ b w

/-- Bits of a high part. -/
def DsaP.w1Bits (p : DsaP) : Nat := if p.g2 = 88 then 6 else 4

/-- The challenge polynomial: places from the stream for the indices from 256 − τ on. -/
def ballGo (fuel i tau signs : Nat) (l : List Byte) (c : Poly) : Poly :=
  match fuel with
  | 0 => c
  | f + 1 =>
    if i ≥ 256 then c
    else
      match l with
      | [] => c
      | b :: r =>
        if b.toNat > i then ballGo f i tau signs r c
        else
          let j := b.toNat
          let s := if signs.testBit (i + tau - 256) then dsaQ - 1 else 1
          ballGo f (i + 1) tau signs r ((c.set i (c.getD j 0)).set j s)

/-- SampleInBall. -/
def sampleInBall (p : DsaP) (seed : List Byte) : Poly :=
  let b := shake 136 seed 1088
  ballGo 1088 (256 - p.tau) p.tau (leNat (b.take 8)) (b.drop 8) polyZero

/-- The public matrix times a vector in the transform domain. -/
def dsaMatVec (p : DsaP) (rho : List Byte) (v : List Poly) : List Poly :=
  (List.range p.k).map fun r => dotWith dsaQ dsaMul ((List.range p.l).map fun s => dsaEntry rho r s) v

/-- Bits of a secret coefficient. -/
def DsaP.etaBits (p : DsaP) : Nat := if p.eta = 2 then 3 else 4

/-- Key generation from ξ: the public and the expanded private key. -/
def dsaGen (a : Nat) (xi : List Byte) : List Byte × List Byte :=
  let p := dsaP a
  let h := shake 136 (xi ++ [byte p.k, byte p.l]) 128
  let rho := h.take 32
  let s1 := (List.range p.l).map fun i => dsaSecret p.eta (bytesAt h 32 64) i
  let s2 := (List.range p.k).map fun i => dsaSecret p.eta (bytesAt h 32 64) (p.l + i)
  let t := List.zipWith (fun x y => polyAdd dsaQ (dsaInv x) y) (dsaMatVec p rho (s1.map dsaNtt)) s2
  let pk := rho ++ (t.map fun f => packBits 10 (f.map fun x => (power2Round x).1)).flatten
  let small := fun (v : List Poly) => (v.map fun f => packBits p.etaBits (f.map (flip p.eta))).flatten
  (pk, rho ++ bytesAt h 96 32 ++ shake 136 pk 64 ++ small s1 ++ small s2
    ++ (t.map fun f => packBits 13 (f.map fun x => flip 4096 (power2Round x).2)).flatten)

/-- The message representative of pure ML-DSA. -/
def dsaMsg (ctx msg : List Byte) : List Byte := [0, byte ctx.length] ++ ctx ++ msg

/-- Encodes the hints: the places of the ones, then the running counts. -/
def packHint (p : DsaP) (h : List (List Bool)) : List Byte :=
  let ix := h.map fun f => (List.range 256).filter fun i => f.getD i false
  let flat := ix.flatten
  let counts := (List.range p.k).map fun i => ((ix.take (i + 1)).map List.length).sum
  bytesAt (flat.map byte) 0 p.omega ++ counts.map byte

/-- One candidate of a signature at a counter. -/
def dsaTry (p : DsaP) (rho mu seed : List Byte) (s1 s2 t0 : List Poly) (kappa : Nat) : Option (List Byte) :=
  let bits := p.g1 + 1
  let y := (List.range p.l).map fun r =>
    (unpackBits bits (shake 136 (seed ++ natLe 2 (kappa + r)) (32 * bits))).map (flip (2 ^ p.g1))
  let w := (dsaMatVec p rho (y.map dsaNtt)).map dsaInv
  let w1 := (w.map fun f => packBits p.w1Bits (f.map fun x => (decompose p x).1)).flatten
  let ch := shake 136 (mu ++ w1) p.c
  let c := dsaNtt (sampleInBall p ch)
  let times := fun (v : List Poly) => v.map fun f => dsaInv (dsaMul c f)
  let z := List.zipWith (polyAdd dsaQ) y (times s1)
  let r := List.zipWith (polySub dsaQ) w (times s2)
  let r0 := r.map fun f => f.map fun x => (decompose p x).2
  let ct0 := times t0
  let hint := List.zipWith (fun f g => List.zipWith (fun x d => (decompose p x).1 != (decompose p ((x + d) % dsaQ)).1) f g) r ct0
  let ones := (hint.map fun f => (f.filter id).length).sum
  if normVec z ≥ 2 ^ p.g1 - p.beta || normVec r0 ≥ p.gamma2 - p.beta || normVec ct0 ≥ p.gamma2 || ones > p.omega then none
  else some (ch ++ (z.map fun f => packBits bits (f.map (flip (2 ^ p.g1)))).flatten ++ packHint p hint)

/-- Candidates until one passes, so many at most. -/
def dsaLoop (fuel : Nat) (p : DsaP) (rho mu seed : List Byte) (s1 s2 t0 : List Poly) (kappa : Nat) : Option (List Byte) :=
  match fuel with
  | 0 => none
  | f + 1 =>
    match dsaTry p rho mu seed s1 s2 t0 kappa with
    | some s => some s
    | none => dsaLoop f p rho mu seed s1 s2 t0 (kappa + p.l)

/-- A signature on a message representative: none where 1,000 candidates are rejected (R334). -/
def dsaSign (a : Nat) (sk m rnd : List Byte) : Option (List Byte) :=
  let p := dsaP a
  let n := 32 * p.etaBits
  let small := fun (b : List Byte) => (unpackBits p.etaBits b).map (flip p.eta)
  let s1 := (pieces n (bytesAt sk 128 (n * p.l))).map fun b => dsaNtt (small b)
  let s2 := (pieces n (bytesAt sk (128 + n * p.l) (n * p.k))).map fun b => dsaNtt (small b)
  let t0 := (pieces 416 (sk.drop (128 + n * (p.l + p.k)))).map fun b => dsaNtt ((unpackBits 13 b).map (flip 4096))
  let mu := shake 136 (bytesAt sk 64 64 ++ m) 64
  let seed := shake 136 (bytesAt sk 32 32 ++ rnd ++ mu) 64
  dsaLoop 1000 p (sk.take 32) mu seed s1 s2 t0 0

/-- The hints that bytes encode, none where the encoding is not canonical. -/
def hintRows (omega first : Nat) (ix counts : List Nat) : Option (List (List Nat)) :=
  match counts with
  | [] => if (ix.drop first).all (· == 0) then some [] else none
  | c :: r =>
    if c < first || c > omega then none
    else
      let row := (ix.drop first).take (c - first)
      if (List.zipWith (fun x y => decide (x < y)) row (row.drop 1)).all id then (hintRows omega c ix r).map fun l => row :: l else none

/-- Uses a hint on a coefficient. -/
def applyHint (p : DsaP) (h : Bool) (x : Nat) : Nat :=
  let m := (dsaQ - 1) / (2 * p.gamma2)
  let d := decompose p x
  if !h then d.1 else if 0 < d.2 && d.2 ≤ p.gamma2 then (d.1 + 1) % m else (d.1 + m - 1) % m

/-- Verification of a signature on a message representative. -/
def dsaVerify (a : Nat) (pk m sig : List Byte) : Bool :=
  let p := dsaP a
  let bits := p.g1 + 1
  let rho := pk.take 32
  let t1 := (pieces 320 (pk.drop 32)).map fun b => (unpackBits 10 b).map fun x => x * 8192 % dsaQ
  let ch := sig.take p.c
  let z := (pieces (32 * bits) (bytesAt sig p.c (32 * bits * p.l))).map fun b => (unpackBits bits b).map (flip (2 ^ p.g1))
  let hb := sig.drop (p.c + 32 * bits * p.l)
  match hintRows p.omega 0 ((hb.take p.omega).map BitVec.toNat) ((hb.drop p.omega).map BitVec.toNat) with
  | none => false
  | some rows =>
    let mu := shake 136 (shake 136 pk 64 ++ m) 64
    let c := dsaNtt (sampleInBall p ch)
    let az := dsaMatVec p rho (z.map dsaNtt)
    let w := List.zipWith (fun f t => dsaInv (polySub dsaQ f (dsaMul c (dsaNtt t)))) az t1
    let w1 := List.zipWith (fun f row => f.zipIdx.map fun x => applyHint p (row.contains x.2) x.1) w rows
    normVec z < 2 ^ p.g1 - p.beta && shake 136 (mu ++ (w1.map (packBits p.w1Bits)).flatten) p.c == ch

end Sys2Proof.Machine
end

