-- ==== Sys2Proof/Machine/AnvilJobs.lean ====
section
/-! DEFINITION. The opcodes of the Anvil units (R155, R156, R326 to R337) and the key jobs (R157, R270, R271). -/

namespace Sys2Proof.Machine

/-! ### Outcomes (R199, R328) -/

/-- AUTH_FAIL with PUBLIC_KEY. -/
def publicBad : Res := res 1 6
/-- AUTH_FAIL with SIGNATURE. -/
def signBad : Res := res 1 5

/-- At the end of a job its unit overwrites its operand memory with zeros (R325): operands, keys and what it kept between turns. -/
def wipeUnit (tag : Nat) (s : State) : State :=
  match s.job? tag with
  | none => s
  | some j => if j.phase == .reading then s
    else (dropReads j s).modJob tag fun x => { x with reads := [], ops := [], keyA := [], keyB := [] }

/-- Runs an opcode of the Anvil units, which leaves nothing of the job in its unit's operand memory (R324, R325). -/
def runAnvil (tag o : Nat) (f : Job → State → State) (s : State) : Out := runOp tag o (fun j t => wipeUnit tag (f j t)) s

/-- The unit that runs a job fails a check of its own result: it is retired with the bit of that check, and the job starts again on
another (R341, R342). -/
def checkFails (bit : Nat) (j : Job) (s : State) : State :=
  match j.place with
  | .unit u => unitFail u bit s
  | _ => s

/-- Ends an Anvil job without output. -/
def jobFails (r : Res) (j : Job) (s : State) : State := computeJob j.tag [] [] r s

/-- Ends an Anvil job with its output (R328). -/
def jobGives (out : List Byte) (j : Job) (s : State) : State := computeJob j.tag out [] (res 0 0 out.length) s

/-! ### Private keys (R326, R328, R366) -/

/-- A group order's scalar from DRBG output by rejection sampling: so many bits as the order has, and one more than their number where it
is at most n − 2 (R336; FIPS 186-5). -/
def scalarOf (c : Curve) (b : List Byte) : Option Nat :=
  let x := beNat b % 2 ^ (Nat.log2 c.n + 1)
  if x + 2 ≤ c.n then some (x + 1) else none

/-- The first of 64 scalars drawn from the DRBG that serves, with the bytes drawn (R330, R336; log entry 183). -/
def firstScalar (c : Curve) (f : Nat → Option (List Byte)) (s : State) : Option (List Byte × Nat) :=
  (List.range 64).findSome? fun i =>
    (scalarOf c ((List.range c.len).map fun x => Config.freeByte (s.freeCtr + i * c.len + x))).bind fun d =>
      (f d).map fun r => (r, (i + 1) * c.len)

/-- Bytes that the countermeasures of R341 draw for an operation on a private key (log entry 185). -/
def blindBytes (k : List Byte) : Nat := k.length + 16

/-- RSA private key parts: p, q, dP, dQ, qInv. -/
def rsaParts (pt : List Byte) : Nat × Nat × Nat × Nat × Nat :=
  let h := (pt.length - 32) / 5
  let f := fun (i : Nat) => beNat (bytesAt pt (i * h) h)
  (f 0, f 1, f 2, f 3, f 4)

/-- Whether an unwrapped private key is in range (R328). -/
def privOk (a : Nat) (pt : List Byte) : Bool :=
  if a = 1 then (rsaParts pt).1 > (rsaParts pt).2.1
  else if 0x10 ≤ a && a ≤ 0x16 then 0 < beNat pt && beNat pt < (curveOf a).n
  else if 0x30 ≤ a && a ≤ 0x32 then kemDkOk a pt
  else true

/-- The private key of a job, unwrapped under PARENT: none where R366 or R328 fails it. -/
def privOf (s : State) (j : Job) : Option (List Byte) :=
  (envOpen j.keyA 4 (avAlg j.body) (avPrivNeed j.opc j.flags j.body) (jobPart s j partKey)).filter (privOk (avAlg j.body))

/-- Runs an operation on its private key, blinded with fresh DRBG values (R341). -/
def withPriv (f : List Byte → Job → State → State) (j : Job) (s : State) : State :=
  match privOf s j with
  | none => jobFails wrappedFail j s
  | some k => f k j (drbgUse (blindBytes k) s)

/-- The input of an Anvil job. -/
def avInput (s : State) (j : Job) : List Byte := jobPart s j partData

/-! ### RSA (R328, R329) -/

/-- RSA_PRIV on an operation: its result is checked by the public exponent before release (R341). -/
def rsaPrivRun (k : List Byte) (j : Job) (s : State) : State :=
  let (p, q, dP, dQ, qInv) := rsaParts k
  let m := beNat (avInput s j)
  let out := rsaPrivate (avInLen j.body) p q dP dQ qInv m
  if m ≥ p * q then jobFails paramBad j s
  else if powMod (p * q) (beNat out) (beNat (k.drop (k.length - 32))) != m then checkFails 7 j s
  else jobGives out j s

/-- RSA_PUB on an operation. -/
def rsaPubRun (j : Job) (s : State) : State :=
  let key := jobPart s j partKey
  let k := key.length - 32
  let n := beNat (key.take k)
  let e := beNat (key.drop k)
  let m := beNat (avInput s j)
  if n % 2 = 0 || n < 2 ^ (8 * k - 1) || e % 2 = 0 || e < 3 || m ≥ n then jobFails paramBad j s
  else jobGives (rsaPublic k n e m) j s

/-- RSA_PRIV (R329). -/
def execRsaPriv (tag : Tag) (s : State) : Out := runAnvil tag.val 0x40 (withDrbg (withPriv rsaPrivRun)) s
/-- RSA_PUB (R329). -/
def execRsaPub (tag : Tag) (s : State) : Out := runAnvil tag.val 0x41 rsaPubRun s

/-! ### Signatures (R330, R333, R334) -/

/-- The digest that ECDSA signs: IN hashed, or IN itself. -/
def ecdsaDigest (j : Job) (m : List Byte) : List Byte :=
  if bit j.flags 2 then m else hashOf (ecdsaHash (avAlg j.body) j.flags) m

/-- An ECDSA signature with the state after it: deterministic, or from the first per-message secret drawn that gives one; none where no
candidate does (R330). -/
def ecdsaSig (c : Curve) (h : Nat) (det : Bool) (d : Nat) (digest : List Byte) (s : State) : Option (List Byte × State) :=
  if det then (ecdsaDet c h d digest).map fun g => (g, s)
  else (firstScalar c (ecdsaWith c d (bitsToInt c digest)) s).map fun x => (x.1, drbgUse x.2 s)

/-- Signs a digest with ECDSA, and verifies the signature against the public key before it releases it; where no candidate has given one
the job goes on at its next turn (R330). -/
def ecdsaRun (d : Nat) (j : Job) (s : State) : State :=
  let c := curveOf (avAlg j.body)
  let digest := ecdsaDigest j (avInput s j)
  match ecdsaSig c (ecdsaHash (avAlg j.body) j.flags) (bit j.flags 3) d digest s with
  | none => drbgUse (64 * c.len) s
  | some (sig, s1) => if ecdsaVerify c (ptMul c d c.g) digest sig then jobGives sig j s1 else checkFails 7 j s1

/-- The context string and the message of an ML-DSA job (R327): none where IN is too short for the string it names. -/
def dsaInput (flags : Nat) (m : List Byte) : Option (List Byte × List Byte) :=
  if !bit flags 4 then some ([], m)
  else
    let c := leAt m 0 1
    if m.length < 1 + c then none else some (bytesAt m 1 c, m.drop (1 + c))

/-- TIMEOUT with SIGN_LIMIT. -/
def signLimit : Res := res 0x23 3

/-- SIGN on an operation. -/
def signRun (k : List Byte) (j : Job) (s : State) : State :=
  let a := avAlg j.body
  let m := avInput s j
  let det := bit j.flags 3
  if 0x10 ≤ a && a ≤ 0x12 then ecdsaRun (beNat k) j s
  else if a = 0x18 then jobGives (edSign ed25519 k m) j s
  else if a = 0x19 then jobGives (edSign ed448 k m) j s
  else
    match dsaInput j.flags m with
    | none => jobFails paramBad j s
    | some (ctx, msg) =>
      let rnd := if det then zeros 32 else drawBytes s 32
      let s1 := if det then s else drbgUse 32 s
      (match dsaSign a k (dsaMsg ctx msg) rnd with
        | none => jobFails signLimit j s1
        | some sig => jobGives sig j s1)

/-- Whether the public key of a VERIFY is a valid point (R328); lattice keys are not checked. -/
def pubPointOk (a : Nat) (pk : List Byte) : Bool :=
  if 0x10 ≤ a && a ≤ 0x12 then (ptOfBytes (curveOf a) pk).isSome
  else if a = 0x18 then (edOfBytes ed25519 pk).isSome
  else if a = 0x19 then (edOfBytes ed448 pk).isSome
  else true

/-- Whether a signature verifies; none where the input does not match the scheme. -/
def sigVerifies (j : Job) (pk m sig : List Byte) : Option Bool :=
  let a := avAlg j.body
  if 0x10 ≤ a && a ≤ 0x12 then some (ecdsaVerify (curveOf a) (ptOfBytes (curveOf a) pk) (ecdsaDigest j m) sig)
  else if a = 0x18 then some (edVerify ed25519 pk m sig)
  else if a = 0x19 then some (edVerify ed448 pk m sig)
  else (dsaInput j.flags m).map fun x => dsaVerify a pk (dsaMsg x.1 x.2) sig

/-- Whether a NIST point is in a hybrid encoding, which counts as a length that does not match the scheme (R326). -/
def hybridPoint (a : Nat) (pk : List Byte) : Bool := 0x10 ≤ a && a ≤ 0x16 && (leAt pk 0 1 = 6 || leAt pk 0 1 = 7)

/-- VERIFY on an operation. -/
def verifyRun (j : Job) (s : State) : State :=
  let pk := jobPart s j partKey
  if hybridPoint (avAlg j.body) pk then jobFails paramBad j s
  else if !pubPointOk (avAlg j.body) pk then jobFails publicBad j s
  else
    match sigVerifies j pk (avInput s j) (jobPart s j partSecond) with
    | none => jobFails paramBad j s
    | some ok => jobFails (if ok then res 0 0 else signBad) j s

/-- SIGN (R330). -/
def execSign (tag : Tag) (s : State) : Out := runAnvil tag.val 0x42 (withDrbg (withPriv signRun)) s
/-- VERIFY (R330). -/
def execVerify (tag : Tag) (s : State) : Out := runAnvil tag.val 0x43 verifyRun s

/-! ### Installing a next key (R156, R157, R270, R271) -/

/-- Bytes of a key with its salt for a context (R271, R364). -/
def materialLen (c : Ctx) : Nat := keyBytes c.keySize + saltLen c.kind

/-- DEPTH of a key below the parent that a handle names. -/
def childDepth (s : State) (h : Nat) : Nat := (if h = 0 then 0 else (s.parent (hIndex h)).depth) + 1

/-- Installs key material in a job's target context, unless the job's instance is being reset (R156, R157, R428). -/
def installFor (j : Job) (e : Nat) (m : List Byte) (s : State) : State :=
  let kb := keyBytes (s.ctxAt e).keySize
  if voided s j.inst then s
  else installNext e (m.take kb) (m.drop kb) (j.flags % 4) j.parent j.keyGen (childDepth s j.parent) s

/-- Runs an operation that installs a key: it waits for the operations that use the key it replaces, and fails where the key
would have DEPTH 6 (R270, R354). -/
def withTarget (f : Nat → Job → State → State) (j : Job) (s : State) : State :=
  match j.ctxEnt with
  | none => s
  | some e => if nextInUse s e then s else if childDepth s j.parent ≥ 6 then jobFails (keyInvalid 8) j s else f e j s

/-- Installs the key derived from a shared secret, and then ends the job with its output (R156, R335, R364). -/
def installSecret (e : Nat) (secret out : List Byte) (j : Job) (s : State) : State :=
  jobGives out j (installFor j e (kdf secret 5 (avLabel j.body) [] (materialLen (s.ctxAt e))) s)

/-- NEXT_KEY_DERIVE on an operation. -/
def deriveRun (e : Nat) (j : Job) (s : State) : State :=
  jobGives [] j (installFor j e (kdf j.keyA 3 (kjLabel j.body) (jobPart s j partSecond) (materialLen (s.ctxAt e))) s)

/-- NEXT_KEY_UNWRAP on an operation. -/
def unwrapRun (e : Nat) (j : Job) (s : State) : State :=
  let c := s.ctxAt e
  match envOpen j.keyA 1 (c.keySize + 1) (materialLen c) (jobPart s j partSecond) with
  | none => jobFails wrappedFail j s
  | some m => jobGives [] j (installFor j e m s)

/-- NEXT_KEY_DERIVE (R157). -/
def execNextKeyDerive (tag : Tag) (s : State) : Out := runOp tag.val 0x50 (withTarget deriveRun) s
/-- NEXT_KEY_UNWRAP (R157). -/
def execNextKeyUnwrap (tag : Tag) (s : State) : Out := runOp tag.val 0x51 (withTarget unwrapRun) s

/-! ### Agreement and encapsulation (R331, R335) -/

/-- Bytes of a fresh private key of an agreement scheme from the DRBG, and how many were drawn (R336). -/
def agreeFresh (a : Nat) (s : State) : Option (List Byte × Nat) :=
  let c := curveOf a
  if 0x10 ≤ a && a ≤ 0x16 then firstScalar c (fun d => some (natBe c.len d)) s
  else if a = 0x20 then some (natLe 32 (clamp25519 (leNat (drawBytes s 32))), 32)
  else some (natLe 56 (clamp448 (leNat (drawBytes s 56))), 56)

/-- The base point's u coordinate of X25519 and X448. -/
def montBase (a : Nat) : List Byte := if a = 0x20 then natLe 32 9 else natLe 56 5

/-- The public key of an agreement scheme's private key. -/
def agreePublic (a : Nat) (k : List Byte) : List Byte :=
  if 0x10 ≤ a && a ≤ 0x16 then ptBytes (curveOf a) (ptMul (curveOf a) (beNat k) (curveOf a).g)
  else if a = 0x20 then x25519 k (montBase a) else x448 k (montBase a)

/-- The shared secret of a private key with a peer's public key: none for an invalid point or the identity (R331). -/
def agreeSecret (a : Nat) (k peer : List Byte) : Option (List Byte) :=
  if 0x14 ≤ a && a ≤ 0x16 then
    let c := curveOf a
    match ptOfBytes c peer with
    | none => none
    | q => (ptMul c (beNat k) q).map fun x => natBe c.len x.1
  else
    let z := if a = 0x20 then x25519 k peer else x448 k peer
    if allZero z then none else some z

/-- KEY_AGREE on an operation. -/
def agreeRun (e : Nat) (j : Job) (s : State) : State :=
  let a := avAlg j.body
  if hybridPoint a (avInput s j) then jobFails paramBad j s
  else if avKeyLen j.body = 0 then
    match agreeFresh a s with
    | none => drbgUse (64 * (curveOf a).len) s
    | some (k, n) =>
      let s1 := drbgUse (blindBytes k) (drbgUse n s)
      match agreeSecret a k (avInput s j) with
      | none => jobFails publicBad j s1
      | some z => installSecret e z (agreePublic a k) j s1
  else
    withPriv (fun k j t => match agreeSecret a k (avInput t j) with
      | none => jobFails publicBad j t
      | some z => installSecret e z [] j t) j s

/-- KEM_ENCAPS on an operation. -/
def encapsRun (e : Nat) (j : Job) (s : State) : State :=
  let a := avAlg j.body
  let ek := avInput s j
  if !kemEkOk a ek then jobFails publicBad j s
  else
    let x := kemEncaps a ek (drawBytes s 32)
    installSecret e x.1 x.2 j (drbgUse 32 s)

/-- KEM_DECAPS on an operation. -/
def decapsRun (e : Nat) (j : Job) (s : State) : State :=
  withPriv (fun k j t => installSecret e (kemDecaps (avAlg j.body) k (avInput t j)) [] j t) j s

/-- KEY_AGREE (R331). -/
def execKeyAgree (tag : Tag) (s : State) : Out := runAnvil tag.val 0x44 (withDrbg (withTarget agreeRun)) s
/-- KEM_ENCAPS (R335). -/
def execKemEncaps (tag : Tag) (s : State) : Out := runAnvil tag.val 0x45 (withDrbg (withTarget encapsRun)) s
/-- KEM_DECAPS (R335). -/
def execKemDecaps (tag : Tag) (s : State) : Out := runAnvil tag.val 0x46 (withDrbg (withTarget decapsRun)) s

/-! ### KEYGEN and RANDOM (R332, R336, R337) -/

/-- TIMEOUT with KEYGEN_LIMIT. -/
def keygenLimit : Res := res 0x23 2

/-- Whether a new pair passes its pairwise consistency test: a signature and its verification, an encapsulation and its decapsulation, a
private operation checked by the public one, and for an agreement key the public key computed again (R336; log entry 186). -/
def pairOk (a : Nat) (pub k : List Byte) : Bool :=
  if a = 1 then
    let (p, q, dP, dQ, qInv) := rsaParts k
    powMod (p * q) (beNat (rsaPrivate (pub.length - 32) p q dP dQ qInv 2)) rsaE == 2
  else if 0x10 ≤ a && a ≤ 0x12 then
    let c := curveOf a
    match ecdsaDet c (a - 0x10) (beNat k) (zeros 32) with
    | some g => ecdsaVerify c (ptOfBytes c pub) (zeros 32) g
    | none => true
  else if a = 0x18 then edVerify ed25519 pub [] (edSign ed25519 k [])
  else if a = 0x19 then edVerify ed448 pub [] (edSign ed448 k [])
  else if a ≤ 0x21 then agreePublic a k == pub
  else if a ≤ 0x32 then
    let x := kemEncaps a pub (zeros 32)
    kemDecaps a k x.2 == x.1
  else
    match dsaSign a k (dsaMsg [] []) (zeros 32) with
    | some g => dsaVerify a pub (dsaMsg [] []) g
    | none => true

/-- Writes a new pair once it has passed its test: the public key, and the private key wrapped under PARENT (R156, R336, R367). -/
def keygenGive (pub k : List Byte) (j : Job) (s : State) : State :=
  let b := j.body
  if !pairOk (avAlg b) pub k then checkFails 8 j s
  else
    match countWrap (hIndex j.parent) s with
    | none => jobFails wrapLimit j s
    | some s1 =>
      let env := envMake j.keyA 4 (avAlg b) k (drawBytes s1 12)
      computeJob j.tag pub [(avKey b, env)] (res 0 0 pub.length) (drbgUse 12 s1)

/-- Whether another job is queued for the unit of one that searches for RSA primes (R324). -/
def unitShared (s : State) (j : Job) : Bool := s.jobs.any fun k => k.tag != j.tag && k.place == j.place && k.phase == .reading

/-- Tests the base of a Miller-Rabin round that a draw gives; one out of range is taken modulo n − 3, plus 2 (log entry 184). -/
def rsaBase (n : Nat) (b : List Byte) : Nat :=
  let x := beNat b
  if 2 ≤ x && x + 2 ≤ n then x else x % (n - 3) + 2

/-- The search for the primes of an RSA key, in the operand memory the prime found and the candidates tested for the one sought: each
candidate drawn from the DRBG, sieved and tested. It ends with the pair, at the iteration limit, or, its candidate tested, in a yield of
the unit to another job (R324, R332); so many draws at most. -/
def rsaSearchGo (fuel k : Nat) (j : Job) (s : State) : State :=
  match fuel with
  | 0 => s
  | f + 1 =>
    let h := k / 2
    let bits := 4 * k
    let ops := ((s.job? j.tag).map fun x => x.ops).getD []
    let p := beNat (ops.take h)
    let tries := beNat (ops.drop h) + 1
    let draw := drawBytes s h
    let c := beNat draw / 2 * 2 + 1
    let s1 := drbgUse h s
    let keep := fun (p t : Nat) (u : State) => u.modJob j.tag fun x => { x with ops := natBe h p ++ natBe 4 t }
    let on := fun (u : State) => if unitShared u j then u else rsaSearchGo f k j u
    if !rsaCandidate bits p c then rsaSearchGo f k j s1
    else
      let sieved := rsaSieve c
      let rounds := if sieved then rsaRounds bits else 0
      let prime := sieved && (List.range rounds).all fun i =>
        millerRabin c (rsaBase c ((List.range h).map fun x => Config.freeByte (s1.freeCtr + i * h + x)))
      let s2 := if sieved then drbgUse (rounds * h) s1 else s1
      if prime then
        if p = 0 then on (keep c 0 s2)
        else if rsaExpOk bits p c then keygenGive (rsaPair k p c).1 (rsaPair k p c).2 j s2
        else on (keep 0 0 s2)
      else if tries ≥ 5 * bits then jobFails keygenLimit j s2
      else on (keep p tries s2)

/-- A key pair of a scheme other than RSA from the DRBG: public key, private key plaintext, bytes drawn (R336). -/
def genPair (a : Nat) (s : State) : Option (List Byte × List Byte × Nat) :=
  if a = 0x18 then some (edPublic ed25519 (drawBytes s 32), drawBytes s 32, 32)
  else if a = 0x19 then some (edPublic ed448 (drawBytes s 57), drawBytes s 57, 57)
  else if a ≤ 0x21 then (agreeFresh a s).map fun f => (agreePublic a f.1, f.1, f.2)
  else if a ≤ 0x32 then
    let p := kemGen a (drawBytes s 32) (bytesAt (drawBytes s 64) 32 32)
    some (p.1, p.2, 64)
  else
    let p := dsaGen a (drawBytes s 32)
    some (p.1, p.2, 32)

/-- Makes a key pair (R332, R336). A search that has no candidate left to look at goes on at the job's next turn (log entry 183). -/
def keygenMake (j : Job) (s : State) : State :=
  let a := avAlg j.body
  if a = 1 then rsaSearchGo (80 * rsaK j.opc j.flags j.body) (rsaK j.opc j.flags j.body) j s
  else
    match genPair a s with
    | none => drbgUse (64 * (curveOf a).len) s
    | some (pub, k, n) => keygenGive pub k j (drbgUse (blindBytes k) (drbgUse n s))

/-- KEYGEN on an operation: with PR the DRBG reseeds first, and the job waits for that (R344). -/
def keygenRun (j : Job) (s : State) : State :=
  if !bit j.flags 4 then keygenMake j s
  else
    let s1 := if j.asked then s else reseed (s.modJob j.tag fun x => { x with asked := true })
    if s1.anv.wantReseed then s1 else keygenMake j s1

/-- KEYGEN (R336). -/
def execKeygen (tag : Tag) (s : State) : Out := runAnvil tag.val 0x47 (withDrbg keygenRun) s

/-- RANDOM (R337). -/
def execRandom (tag : Tag) (s : State) : Out :=
  runAnvil tag.val 0x48 (withDrbg fun j t =>
    jobGives (drawBytes t (avOutLen j.body)) j (drbgUse (avOutLen j.body) t)) s

end Sys2Proof.Machine
end

