-- ==== Sys2Proof/Machine/Vault.lean ====
section
/-! DEFINITION. The Vault's events: fetches (R253 to R255), evictions and seals (R251, R256, R257, R407), its control register
(R265) and the reseal sweep (R476). -/

namespace Sys2Proof.Machine

/-! ### Who asks (R159, R254, R276) -/

/-- The asking number of a command that only probes for a record (CTX_LOAD with CREATE, CTX_IMPORT). -/
def askProbe : Nat := 129
/-- The asking number of a command that takes the context of any owner. -/
def askAny : Nat := 130

/-- Completes the command packets that wait for handle `h` with an asking number; a command that only probes goes on where no
record stands under the handle, and a command learns of any failed fetch as ABSENT (R276, R523). -/
def askDone (h i : Nat) (r : Res) (s : State) : State :=
  s.modOry fun o => { o with packets := o.packets.map fun p =>
    if p.waits && p.res.isNone && p.ctx = h && p.aux = i then
      if i = askProbe && r.status = 6 && r.detail = 1 then { p with probed := true, waits := false }
      else { p with res := some (if r.status = 6 then ctxMiss 1 else r), waits := false }
    else p }

/-- Ends a miss: the operations held for the handle and the commands that wait complete with an outcome. -/
def endMiss (h i : Nat) (r : Res) (s : State) : State :=
  let s1 := s.modVault fun v => { v with misses := v.misses.filter fun m => m != (h, i) }
  let held := (s.jobs.filter fun j => j.phase == .held && j.handle = h && j.inst = i).map fun j => j.tag
  askDone h i r (held.foldl (fun t g => refuseJob g r t) s1)

/-! ### Room in the cache (R251, R406, R407) -/

/-- The first index that a rising list of keys leaves out. -/
def firstGap (ks : List Nat) (n : Nat) : Nat :=
  match ks with
  | [] => n
  | k :: r => if k = n then firstGap r (n + 1) else n

/-- Entries of the context cache (R240). -/
def ctxEntries : Nat := 262144

/-- The entry that an eviction takes among those that pass a test: the least recently used, then the lowest (R251). -/
def lruEntry (s : State) (own : Ctx → Bool) : Option Nat :=
  argMin (fun e => (s.ctxAt e).lastUse) ((s.ctx.filter fun p => !p.2.pin && p.2.st != .evicting && own p.2).map Prod.fst)

/-- Whether an owner may load a context now, must wait for an eviction, or is refused (R251). -/
inductive Room | here | wait | quota
  deriving DecidableEq, Repr

/-- The room for a context of an owner. -/
def roomFor (s : State) (o : Nat) : Room :=
  let going := fun (own : Ctx → Bool) => (s.ctx.any fun p => own p.2 && p.2.st == .evicting) || (lruEntry s own).isSome
  if ctxUsed s o ≥ (s.inst o).ctxQuota then (if s.vault.en && going (fun c => c.owner = o) then .wait else .quota)
  else if s.ctx.length ≥ ctxEntries then (if s.vault.en && going (fun _ => true) then .wait else .quota)
  else .here

/-- QUOTA with CONTEXTS. -/
def ctxQuotaRes : Res := res 0x22 1

/-! ### VAULT_FETCH (R253, R254) -/

/-- The handles that wait for a fetch that may start, in order of arrival. -/
def waitingFetch (s : State) : List Nat :=
  ((s.vault.misses.map Prod.fst).filter fun h =>
    !(s.vault.fetches.any fun f => f.h = h) && ((s.ctxOf h).map fun e => (s.ctxAt e).st != .evicting).getD true).eraseDups

/-- Whether a fetch of handle `h` may start now: the Vault is in use and one of the 64 fetches is free for it. -/
def fetchStarts (s : State) (h : Nat) : Bool :=
  powered s && s.vault.en && !s.vault.offAsked && ((waitingFetch s).take (64 - s.vault.fetches.length)).contains h

/-- Whether an asking number stands for a command packet; commands need no AUTO_FETCH (R276). -/
def askByCommand (s : State) (h i : Nat) : Bool :=
  s.ory.packets.any fun p => p.waits && p.res.isNone && p.ctx = h && p.aux = i

/-- Starts the fetch of handle `h`. -/
def startFetch (h : Nat) (s : State) : State :=
  let p := vaultRead h true s
  p.1.modVault fun v => { v with fetches := v.fetches ++ [{ h := h, rids := p.2 }] }

/-- VAULT_FETCH (R254): where R253 no longer permits a fetch for operations, those complete as NO_FETCH. -/
def execVaultFetch (h : Handle) (s : State) : Out :=
  let n := h.toNat
  .next (if !fetchStarts s n then s
    else
      let lost := s.vault.misses.filter fun m => m.1 = n && !askByCommand s n m.2 && !fetchAllowed s
      let s1 := lost.foldl (fun t m => endMiss m.1 m.2 (ctxMiss 2) t) s
      conclude (if s1.vault.misses.any fun m => m.1 = n then startFetch n s1 else s1))

/-! ### VAULT_FETCH_COMPLETE (R254, R255) -/

/-- A record that a fetch has opened: header and plaintext. -/
structure Opened where
  hd : List Byte
  pt : List Byte
  deriving DecidableEq, Repr

/-- What the checks of step 3 and VALID say of the bytes read, with the bit and event code of a failed check. -/
def openFetched (s : State) (h : Nat) (bufs : List (List Byte)) : Except (Option (Nat × Nat)) Opened :=
  let b := fun (i : Nat) => bufs.getD i []
  if !nodesGood s h (b 1) (b 2) (b 3) then .error (some (1, 2))
  else
    let leaf := (nodeCtrs (b 1)).getD (nodePos h 1) 0
    if leaf = 0 then .error none
    else
      match recOpen s h leaf (b 0) with
      | none => .error (some (0, 1))
      | some pt => if recValid (b 0) then .ok { hd := (b 0).take 64, pt := pt } else .error none

/-- A REC_TAG or TREE_MAC fault with its handle (R255). -/
def recFault (h : Nat) (f : Option (Nat × Nat)) (s : State) : State :=
  match f with
  | none => s
  | some (b, code) => (vaultFault b h code s).modVault fun v => { v with faultHandle := h }

/-- The parent and PGEN that a record header names for a slot. -/
def recParent (hd : List Byte) (slot : Nat) : Nat × Nat := (leAt hd (8 + 8 * slot) 4, leAt hd (12 + 8 * slot) 4)

/-- Whether a record holds a key for a slot. -/
def recHasKey (c : Ctx) (hd pt : List Byte) (slot : Nat) : Bool :=
  !((recParent hd slot).1 = 0 && allZero (bytesAt pt (64 + 32 * slot) 32))
    && (slot = c.role || c.other != 0 || c.kind = 5)

/-- Loads a key of a record into its slot, with the parent that the record names (step 6 of R254). -/
def loadRecKey (e : Nat) (c : Ctx) (hd pt : List Byte) (slot : Nat) (s : State) : State :=
  let p := recParent hd slot
  if recHasKey c hd pt slot then
    putCtxKey e slot (bytesAt pt (64 + 32 * slot) 32) c.keySize p.1 p.2 (if p.1 = 0 then 1 else (s.parent (hIndex p.1)).depth + 1)
      c.owner s
  else s

/-- The context of an opened record (steps 4 and 7 of R254): STALE with cause PARENT where a parent's generation has moved on. -/
def ctxOfRecord (s : State) (h : Nat) (r : Opened) : Ctx :=
  let c := ctxOfImage (r.pt.take 64)
  let hn := leAt r.hd 0 8
  let cause := fld hn 28 2
  let bad := [0, 1].any fun k => recHasKey c r.hd r.pt k && !pgenOk s (recParent r.hd k).1 (recParent r.hd k).2
  let cause1 := if cause = 2 then 2 else if bad then 1 else cause
  { c with handle := h, owner := fld hn 32 8, st := if cause1 = 0 then .active else .stale, cause := cause1, failCnt := 0,
           failTotal := leAt r.hd 40 8, lastUse := now s / 1000 }

/-- Writes a context into a free cache entry, whose generation goes on from the one it last held, not from the record
image's (R26, R266; DEDUCED, log entry 182). -/
def fillEntry (e : Nat) (c : Ctx) (s : State) : State := s.setCtx e { c with gen := (tget s.vault.gens 0 e + 1) % 2 ^ 16 }

/-- Loads an opened record into a free entry. -/
def loadRecord (h : Nat) (r : Opened) (s : State) : State :=
  let e := firstGap (tkeys s.ctx) 0
  let c := ctxOfRecord s h r
  loadRecKey e c r.hd r.pt 1 (loadRecKey e c r.hd r.pt 0 (fillEntry e c s))

/-- Ends a fetch. -/
def dropFetch (f : Fetch) (s : State) : State :=
  dropBufs f.rids (s.modVault fun v => { v with fetches := v.fetches.filter fun g => g.h != f.h })

/-- The asking numbers that wait for a handle. -/
def askers (s : State) (h : Nat) : List Nat := (s.vault.misses.filter fun m => m.1 = h).map Prod.snd

/-- Ends every miss of a handle with an outcome. -/
def endAll (h : Nat) (r : Res) (s : State) : State := (askers s h).foldl (fun t i => endMiss h i r t) s

/-- UNSUPPORTED with CTX_KIND: a valid record stands under a handle that is to be created (R276). -/
def recordExists : Res := res 5 2

/-- Releases what waited for a handle whose context is resident: the operations are checked again, the commands go on. -/
def releaseHandle (h : Nat) (s : State) : State :=
  resumeHandle h (s.modVault fun v => { v with misses := v.misses.filter fun m => m.1 != h })

/-- A fetch whose record has opened: askers that are not its owner learn ABSENT, and the context is loaded for those that are. -/
def deliverRecord (f : Fetch) (r : Opened) (s : State) : State :=
  let o := recOwner r.hd
  let mine := fun (i : Nat) => i = o || i = askAny
  let s1 := (askers s f.h).foldl (fun t i =>
    if mine i then t else endMiss f.h i (if i = askProbe then recordExists else ctxMiss 1) t) s
  if !((askers s1 f.h).any mine) then dropFetch f s1
  else if (s1.ctxOf f.h).isSome then releaseHandle f.h (dropFetch f s1)
  else
    match roomFor s1 o with
    | .wait => s1.modVault fun v => { v with fetches := v.fetches.map fun g => if g.h = f.h then { g with wants := some o } else g }
    | .quota => dropFetch f (endAll f.h ctxQuotaRes s1)
    | .here => releaseHandle f.h (loadRecord f.h r (dropFetch f s1))

/-- Turns the Vault off once it has been asked to and nothing runs (R265). -/
def vaultSettle (s : State) : State :=
  if s.vault.offAsked && s.vault.fetches.isEmpty && s.vault.evicts.isEmpty then
    let s1 := s.modVault fun v => { v with en := false, offAsked := false }
    s1.vault.misses.foldl (fun t m => endMiss m.1 m.2 (ctxMiss 2) t) s1
  else s

/-- The end of a fetch whose reads have ended. -/
def fetchEnd (f : Fetch) (s : State) : State :=
  match readsFault s f.rids with
  | 0 =>
    if !topGood s f.h f.rids then endAll f.h (ctxMiss 1) (dropFetch f (recFault f.h (some (1, 2)) s))
    else
      let t := takeTop f.h f.rids s
      match openFetched t f.h (readsData t f.rids) with
      | .error x => endAll f.h (ctxMiss 1) (dropFetch f (recFault f.h x t))
      | .ok r => deliverRecord f r t
  | b => endAll f.h (ctxMiss 2) (dropFetch f (vaultFault b f.h (b + 1) s))

/-- VAULT_FETCH_COMPLETE (R254, R255). -/
def execVaultFetchComplete (h : Handle) (s : State) : Out :=
  .next (match s.vault.fetches.find? fun f => f.h = h.toNat with
    | none => s
    | some f => if powered s && readsEnded s f.rids then conclude (vaultSettle (fetchEnd f s)) else s)

/-! ### CONTEXT_EVICTION and EVICTION_SEAL (R251, R256, R257, R407) -/

/-- Starts an eviction, or a snapshot that leaves the entry as it is (steps 1 and 2 of R256). -/
def startEvict (h e : Nat) (del flush : Bool) (s : State) : State :=
  let s1 := if flush then s else s.modCtx e fun c => ({ c with st := .evicting, pin := false }).bump
  let p := vaultRead h false s1
  p.1.modVault fun v => { v with evicts := v.evicts ++ [{ h := h, delete := del, flush := flush, rids := p.2 }] }

/-- The contexts of an owner that wait for an entry: records that have been opened, and contexts that commands create or import. -/
def roomWanted (s : State) (o : Nat) : Nat :=
  (s.vault.fetches.filter fun f => f.wants = some o).length
    + (s.ory.packets.filter fun p => p.waits && p.res.isNone && p.wants = some o).length

/-- Entries of an owner whose eviction is in progress. -/
def leaving (s : State) (o : Nat) : Nat := (s.ctx.filter fun p => p.2.owner = o && p.2.st == .evicting).length

/-- Whether the block would evict entry `e` now: to keep FREE_MIN entries free, to bring its owner under its quota, or to make
room in the quota for a context that waits, one entry for each (R251, R407). -/
def evictDue (s : State) (e : Nat) : Bool :=
  let o := (s.ctxAt e).owner
  let all := lruEntry s fun _ => true
  let own := lruEntry s fun c => c.owner = o
  let few := ctxEntries - s.ctx.length < max 1 s.vault.freeMin * 64
  (few && all == some e)
    || (overQuota s o && own == some e && (s.vault.evicts.filter fun v => !v.flush).length < 64)
    || (ctxUsed s o ≥ (s.inst o).ctxQuota && own == some e && leaving s o < roomWanted s o)

/-- CONTEXT_EVICTION (R251, R256, R407). -/
def execContextEviction (h : Handle) (s : State) : Out :=
  .next (match s.ctxOf h.toNat with
    | none => s
    | some e =>
      if powered s && s.vault.en && evictDue s e && !(s.vault.evicts.any fun v => v.h = h.toNat) then
        conclude (startEvict h.toNat e false false s)
      else s)

/-- The reply of CTX_EVICT with FLUSH: OK_CNT, the next transmit number, or the receive number of the current slot (R462). -/
def flushReply (c : Ctx) : Nat := if isMem c.kind || isTx c.kind then c.nA else c.rxNum c.role

/-- Completes the commands that wait for the seal of handle `h`. -/
def sealDone (h : Nat) (r : Res) (x : Nat) (s : State) : State :=
  s.modOry fun o => { o with packets := o.packets.map fun p =>
    if p.waits && p.res.isNone && p.ctx = h && (p.opc = 0x11 || p.opc = 0x14) then
      { p with res := some (if p.opc = 0x14 && r.status = 0 then res 0 0 else r), replyX := if p.opc = 0x14 then 0 else x,
               committed := true, waits := false } else p }

/-- Frees a cache entry with its keys; its generation advances (step 5 of R256, R26). -/
def freeEntry (e : Nat) (s : State) : State := (zeroCtxKeys e (keepGen e s)).setCtx e {}

/-- A seal that cannot be made is given up: the entry is as it was, and commands that wait complete as NO_FETCH. -/
def giveUpSeal (v : Evict) (e : Nat) (s : State) : State :=
  let s1 := dropBufs v.rids (s.modVault fun x => { x with evicts := x.evicts.filter fun y => y.h != v.h })
  let s2 := if v.flush then s1 else s1.modCtx e fun c => { c with st := if c.cause = 0 then .active else .stale }
  resumeHandle v.h (sealDone v.h (ctxMiss 2) 0 (s2.modVault fun x => { x with misses := x.misses.filter fun m => m.1 != v.h }))

/-- The seal of an entry (steps 3 to 5 of R256). -/
def sealEntry (v : Evict) (e : Nat) (n1 n2 n3 : List Byte) (s : State) : State :=
  let c := s.ctxAt e
  let gen := s.ldg.vkeyGen
  let key := ((vaultKey s gen).getD [])
  let mk := fun (leaf : Nat) => recSeal key v.h leaf (recHeader s e (!v.delete) leaf gen) (recPlain s e (!v.delete))
  let s1 := dropBufs v.rids (s.modVault fun x => { x with evicts := x.evicts.filter fun y => y.h != v.h })
  let s2 := sealPath v.h (nodeCtrs n1) (nodeCtrs n2) (nodeCtrs n3) mk s1
  let s3 := if v.flush then s2 else freeEntry e s2
  let s4 := if v.flush then sealDone v.h (res 0 0 c.failCnt) (flushReply c) s3 else sealDone v.h (res 0 0) 0 s3
  if v.flush then s4 else resumeHeld (resumeHandle v.h s4)

/-- Whether a seal waits on: for its reads, or for the operations that refer to its entry. -/
def sealWaits (s : State) (v : Evict) (e : Nat) : Bool := !readsEnded s v.rids || (!v.flush && entryInUse s e)

/-- EVICTION_SEAL (R256, R257). -/
def execEvictionSeal (h : Handle) (s : State) : Out :=
  .next (match s.vault.evicts.find? (fun v => v.h = h.toNat), s.ctxOf h.toNat with
    | some v, some e =>
      if !powered s || sealWaits s v e then s
      else
        match readsFault s v.rids with
        | 0 =>
          let b := readsData s v.rids
          let n := fun (i : Nat) => b.getD i []
          let t := takeTop v.h v.rids s
          if !topGood s v.h v.rids || !nodesGood t v.h (n 0) (n 1) (n 2) || (vaultKey s s.ldg.vkeyGen).isNone then
            conclude (vaultSettle (giveUpSeal v e (recFault v.h (some (1, 2)) s)))
          else conclude (vaultSettle (sealEntry v e (n 0) (n 1) (n 2) t))
        | x => conclude (vaultSettle (giveUpSeal v e (vaultFault x v.h (x + 1) s)))
    | _, _ => s)

/-! ### VLT_CTL (R265) -/

/-- INIT: new tree keys, zero counters, and the write of every node (R265, R475). -/
def vaultInitStart (s : State) : State :=
  let s1 := s.modLdg fun l => { l with treeEpoch := (l.treeEpoch + 1) % 2 ^ 32 }
  let s2 := s1.modVigil fun v => { v with treeRoot := zeroCtrs }
  (deriveVault s2).modVault fun v => { v with nodes := [], lost := false, initBusy := true, initNext := 0 }

/-- A write of VLT_CTL. INIT acts before EN. -/
def vltCtl (v : Word) (s : State) : State :=
  let n := v.toNat
  let s1 := s.modVault fun x => { x with autoFetch := bit n 1, freeMin := fld n 8 8, lock := x.lock || bit n 31 }
  let s2 := if bit n 2 && !s.vault.en && !s.vault.initBusy && (treeKey s).isSome then vaultInitStart s1 else s1
  if bit n 0 then
    (if s2.vault.en then s2.modVault fun x => { x with offAsked := false }
     else if s2.vault.recBase != 0 && s2.vault.treeBase != 0 && !s2.vault.initBusy then s2.modVault fun x => { x with en := true }
     else s2)
  else if s2.vault.en then vaultSettle (s2.modVault fun x => { x with offAsked := true })
  else s2

/-- VAULT_ENABLE (R265). -/
def execVaultEnable (v : RapWord) (s : State) : Out := .next (rapDo 0x3008 v (fun t => conclude (vltCtl v.data t)) s)
/-- VAULT_DISABLE (R265). -/
def execVaultDisable (v : RapWord) (s : State) : Out := .next (rapDo 0x3008 v (fun t => conclude (vltCtl v.data t)) s)
/-- VAULT_INIT (R265). -/
def execVaultInit (v : RapWord) (s : State) : Out := .next (rapDo 0x3008 v (fun t => conclude (vltCtl v.data t)) s)

/-- VAULT_INIT_COMPLETE (R265). -/
def execVaultInitComplete (s : State) : Out :=
  .next (if powered s && s.vault.initBusy && s.vault.initNext ≥ initTotal && !initWrites s then
      s.modVault fun v => { v with initBusy := false }
    else s)

/-! ### RESEAL_SWEEP (R476) -/

/-- The next handle that a sweep examines: blocks of 512 handles whose counter is zero hold no record, and resident contexts need
no reseal. -/
def sweepNext (fuel : Nat) (s : State) (h : Nat) : Nat :=
  match fuel with
  | 0 => h
  | f + 1 =>
    if h ≥ 2 ^ 24 then h
    else if h % 512 = 0 && nodeHeld s 4 (nodeOf h 4) && (heldCtrs s 4 (nodeOf h 4)).getD (nodePos h 4) 0 = 0 then sweepNext f s (h + 512)
    else if (s.ctxOf h).isSome then sweepNext f s (h + 1)
    else h

/-- Moves the sweep past a handle; the cursor is recorded every 65,536 handles. -/
def sweepPast (h : Nat) (s : State) : State :=
  let s1 := s.modVault fun v => { v with sweep := h + 1, resealRids := none }
  if (h + 1) / 65536 = s.ldg.cursor / 65536 then s1 else s1.modLdg fun l => { l with cursor := (h + 1) / 65536 * 65536 }

/-- The sweep is complete: slot 2 is cleared, and RESEAL_DONE is posted (step 5). -/
def sweepDone (s : State) : State :=
  let s1 := dropSystem 2 (s.modLdg fun l => { l with reseal := false, cursor := 0 })
  logEvent 6 7 (s.ldg.vkeyGen * 2 ^ 32) (postMail 2 (s.ldg.vkeyGen % 2 ^ 16) (s1.modVault fun v => { v with sweep := 0 }))

/-- The record resealed under the present Vault key. -/
def resealRecord (s : State) (h leaf : Nat) (hd pt : List Byte) : List Byte :=
  let hd1 := putBytes (putBytes hd 24 (natLe 7 leaf)) 32 (natLe 4 s.ldg.vkeyGen)
  recSeal ((vaultKey s s.ldg.vkeyGen).getD []) h leaf (putBytes hd1 48 (natLe 6 (now s / 1000000000 % 2 ^ 48))) pt

/-- Examines the record of handle `h`: one that bears the previous generation is resealed, one that fails a check is counted and
skipped. -/
def sweepRecord (h : Nat) (rids : List Nat) (s : State) : State :=
  let past := fun (t : State) => sweepPast h (dropBufs rids t)
  match readsFault s rids with
  | 0 =>
    let b := readsData s rids
    let n := fun (i : Nat) => b.getD i []
    let leaf := (nodeCtrs (n 1)).getD (nodePos h 1) 0
    let t := takeTop h rids s
    if !topGood s h rids || !nodesGood t h (n 1) (n 2) (n 3) then past (recFault h (some (1, 2)) s)
    else if leaf = 0 then past t
    else
      match recOpen t h leaf (n 0) with
      | none => past (recFault h (some (0, 1)) t)
      | some pt =>
        if recGen (n 0) = s.ldg.vkeyGen || (s.ctxOf h).isSome then past t
        else past (sealPath h (nodeCtrs (n 1)) (nodeCtrs (n 2)) (nodeCtrs (n 3)) (fun l => resealRecord s h l ((n 0).take 64) pt)
          (t.modVault fun v => { v with resealRids := none }))
  | x => past (vaultFault x h (x + 1) s)

/-- Whether the sweep goes on: a reseal runs, the Vault is in use and Orrery runs. -/
def sweepRuns (s : State) : Bool := powered s && s.ldg.reseal && s.vault.en && orreryUp s

/-- RESEAL_SWEEP (R476): the sweep starts the reads of its next record, or reseals the record it has read. -/
def execResealSweep (s : State) : Out :=
  .next (if !sweepRuns s then s
    else
      match s.vault.resealRids with
      | some (h, rids) =>
        if !readsEnded s rids || (s.vault.fetches.any fun f => f.h = h) then s else conclude (sweepRecord h rids s)
      | none =>
        let h := sweepNext 1048576 s s.vault.sweep
        if h ≥ 2 ^ 24 then conclude (sweepDone s)
        else if s.vault.fetches.any fun f => f.h = h then s
        else
          let p := vaultRead h true s
          conclude (p.1.modVault fun v => { v with sweep := h, resealRids := some (h, p.2) }))

end Sys2Proof.Machine
end

