-- ==== Sys2Proof/Machine/Packets.lean ====
section
/-! DEFINITION. Command packets on the control ring: their layout and checks (R459, R460, R462), the modes they are served in
(R463), which may start (R461), how one runs through its reads and writes, and how it completes (R38, R464, R479). -/

namespace Sys2Proof.Machine

/-! ### The packet's fields (R459, R462) -/

/-- Parameter words P0 to P4 of an entry. -/
def cmdParams (e : Entry) : List Nat := (List.range 5).map fun k => leAt e.body (8 * k) 8

/-- Parameter word `k` of a packet. -/
def Packet.p (x : Packet) (k : Nat) : Nat := x.ps.getD k 0

/-- The bits of an address word (R142). -/
def addrMask : Nat := 2 ^ 48 - 1
/-- The low 32 bits. -/
def low32 : Nat := 2 ^ 32 - 1
/-- A whole parameter word. -/
def fullWord : Nat := 2 ^ 64 - 1

/-- The options that each command defines. -/
def cmdOpts (opc : Nat) : Nat :=
  match opc with
  | 0x03 => 1 | 0x05 => 1 | 0x10 => 3 | 0x11 => 3 | 0x12 => 1 | 0x14 => 1 | 0x15 => 0x1FF | 0x20 => 1 | 0x21 => 0xF
  | 0x22 => 1 | 0x28 => 3 | 0x30 => 1 | 0x31 => 7 | 0x39 => 3 | 0x3A => 1 | 0x48 => 1 | 0x50 => 3 | 0x60 => 3
  | _ => 0

/-- Whether a command's CTX names a context. -/
def cmdNamesCtx (opc : Nat) : Bool := 0x10 ≤ opc && opc ≤ 0x15

/-- The parameter bits that each command names. -/
def cmdMasks (opc f : Nat) : List Nat :=
  match opc with
  | 0x01 => [0x7F, addrMask]
  | 0x02 => [0xFF, addrMask]
  | 0x03 => [0x7F]
  | 0x04 => [0x7F]
  | 0x05 => [0x7F]
  | 0x10 => [0xFF, if bit f 0 then addrMask else 0]
  | 0x13 => [low32, addrMask]
  | 0x14 => [low32, addrMask, 0xFF, low32]
  | 0x15 => [low32, if bit f 4 then addrMask else fullWord, 2 ^ 44 - 1, fullWord, fullWord]
  | 0x20 => [2 ^ 40 - 1, fullWord, addrMask, 0x301FF, if bit f 0 then addrMask else 0]
  | 0x21 => [if bit f 2 then 2 ^ 43 - 1 else 2 ^ 40 - 1, addrMask, if bit f 3 then low32 else 0, if bit f 3 then 0 else 0x30000,
             if bit f 0 then addrMask else 0]
  | 0x22 => [low32]
  | 0x28 =>
    [0xFF0FFF, low32, if bit f 1 then addrMask else 2 ^ 63 - 1, 0x1FF03FF, addrMask]
  | 0x30 => [addrMask]
  | 0x31 => [7, if fld f 0 3 = 4 then low32 else addrMask, addrMask, if fld f 0 3 = 2 || fld f 0 3 = 4 then addrMask else 0, 0xFFFF]
  | 0x38 => [addrMask, 0x7FFFF]
  | 0x40 => [0xF]
  | 0x41 => [0xF]
  | 0x48 => [addrMask, 0xFFF]
  | 0x50 => if fld f 0 2 = 0 then [addrMask, 0x1FFFF] else []
  | 0x58 => [0x7F]
  | 0x60 => [addrMask, 2 ^ 30 - 1]
  | 0x68 => [0xFF]
  | 0x70 => [low32, addrMask, 0x1FFF]
  | _ => []

/-- Whether the reserved fields of a packet's header are zero: the options and the CTX that its command does not name (R124, R459). -/
def cmdHeaderOk (opc f ctx : Nat) : Bool := f &&& (0xFFF ^^^ cmdOpts opc) = 0 && (cmdNamesCtx opc || ctx = 0)

/-- Whether every parameter bit that a command does not name is zero (R18, R459). -/
def cmdReservedOk (opc f : Nat) (ps : List Nat) : Bool :=
  let namesMi := (opc = 0x01 || (0x03 ≤ opc && opc ≤ 0x05)) && ps.headD 0 = mi
  (List.range 5).all fun k =>
        (k = 0 && namesMi) || (ps.getD k 0) &&& (fullWord ^^^ (cmdMasks opc f).getD k 0) = 0

/-- An owner parameter names MI or a tenant. -/
def ownerOk (o : Nat) : Bool := o ≤ mi

/-- The parameter ranges of a command that its packet alone decides (R406, R462, R465 to R467). -/
def cmdParamOk (opc f : Nat) (ps : List Nat) : Bool :=
  let p := fun (k : Nat) => ps.getD k 0
  let keyBits := 1 ≤ fld (p 3) 16 2
  match opc with
  | 0x01 => p 1 % 64 = 0
  | 0x02 => ownerOk (p 0) && p 1 % 64 = 0
  | 0x10 => ownerOk (p 0) && p 1 % 64 = 0
  | 0x11 => !(bit f 0 && bit f 1)
  | 0x13 => p 1 % 64 = 0
  | 0x14 => p 1 % 64 = 0 && ownerOk (p 2)
  | 0x15 => !(bit f 8 && (bit f 2 || bit f 3 || bit f 4))
  | 0x20 => ownerOk (fld (p 0) 32 8) && fld (p 3) 0 9 ≤ 256 && keyBits
  | 0x21 => ownerOk (fld (p 0) 32 8) && !(bit f 1 && fld (p 0) 0 32 != 0) && !(bit f 2 && !bit f 1)
      && !(bit f 3 && (bit f 1 || bit f 2)) && !(bit f 0 && bit f 2) && (bit f 3 || keyBits)
  | 0x28 => bit f 0 || (ownerOk (fld (p 0) 16 8) && 16 ≤ fld (p 3) 0 8 && fld (p 3) 0 8 ≤ 128 && fld (p 3) 16 9 ≤ 256 && fld (p 3) 8 2 ≤ 2)
  | 0x31 => fld f 0 3 ≤ 4
  | 0x40 => p 0 ≤ 8
  | 0x41 => p 0 ≤ 8
  | 0x48 => p 1 % 8 = 0 && p 1 ≤ 2048
  | 0x50 => fld f 0 2 ≤ 2
  | 0x60 => p 1 < 1000000000
  | 0x68 => ownerOk (p 0) || p 0 = 0xFF
  | 0x70 => 1 ≤ p 2 && p 2 ≤ 4096
  | _ => true

/-! ### Modes (R427, R463) -/

/-- The commands served in Recovery. -/
def recoveryCmds : List Nat := [0x00, 0x30, 0x31, 0x38, 0x39, 0x3A, 0x48, 0x50, 0x60, 0x68, 0x70]

/-- Whether Test serves a command. -/
def testServes (opc f : Nat) : Bool :=
  !([0x38, 0x39, 0x3A, 0x50].contains opc) && !((opc = 0x30 || opc = 0x48) && bit f 0)

/-- Whether Orrery serves a command in the present mode (R463); the Recovery firmware in ROM serves the Recovery list (R474). -/
def cmdServed (s : State) (opc f : Nat) : Bool :=
  match s.modes.mode with
  | .service => s.ory.st != .rom || recoveryCmds.contains opc
  | .degraded => s.ory.st != .rom || recoveryCmds.contains opc
  | .eclipse => if inTest s then testServes opc f else s.ory.st != .rom || recoveryCmds.contains opc
  | .recovery => recoveryCmds.contains opc
  | .boot => recoveryCmds.contains opc
  | .zeroised => recoveryCmds.contains opc || (opc = 0x21 && bit f 1)
  | .test => testServes opc f
  | .vigil => false

/-- Whether a command installs, derives, wraps, unwraps, seals or attests, and so needs a root (R362). INST_CREATE and CTX_LOAD with
CREATE decide it after the ranges of the block they read. -/
def cmdNeedsRoot (opc f : Nat) : Bool :=
  match opc with
  | 0x11 => true | 0x13 => true | 0x14 => true | 0x15 => !bit f 8 | 0x20 => true | 0x21 => true
  | 0x28 => !bit f 0 | 0x31 => true | 0x50 => fld f 0 2 = 1
  | _ => false

/-- LEN_OPCODE. -/
def lenOpcode : Res := malformed 7
/-- RESERVED_SET. -/
def reservedRes : Res := malformed 6

/-- Whether an entry's length is not its command's (R458, R460). -/
def cmdLenBad (e : Entry) : Bool :=
  if hOpc e.hdr = 0 then false else if e.chain.isEmpty then hLen e.hdr != 2 else e.chain.length != 1

/-- The checks of R460 in order, and NO_ROOT after them (R362). -/
def cmdCheck (s : State) (e : Entry) : Option Res :=
  let o := hOpc e.hdr
  let f := hFlags e.hdr
  let ps := if o = 0 then [0, 0, 0, 0, 0] else cmdParams e
  if !cmdHeaderOk o f (hCtx e.hdr) then some reservedRes
  else if cmdLenBad e then some lenOpcode
  else if !cmdReservedOk o f ps then some reservedRes
  else if !cmdParamOk o f ps then some paramBad
  else if !cmdServed s o f || ((o = 0x01 || (0x03 ≤ o && o ≤ 0x05)) && ps.headD 0 = mi) then some modeBad
  else if cmdNeedsRoot o f && !hasRoot s then some noRoot
  else none

/-! ### Which packets may start (R24, R461) -/

/-- What a command names, as a kind and a number: 0 instances, 1 context handles, 2 key slots, 3 HMAC slots, 4 Forges. -/
def cmdNames (o f ctx : Nat) (ps : List Nat) : List (Nat × Nat) :=
  let p := fun (k : Nat) => ps.getD k 0
  let key := fun (h : Nat) => if h % 2 ^ 32 = 0 then [] else [(2, hIndex h + 2 ^ 19 * hClass h)]
  match o with
  | 0x01 => [(0, p 0)] | 0x02 => [(0, p 0)] | 0x03 => [(0, p 0)] | 0x04 => [(0, p 0)] | 0x05 => [(0, p 0)] | 0x58 => [(0, p 0)]
  | 0x68 => [(0, p 0)]
  | 0x10 => [(1, ctx), (0, p 0)]
  | 0x11 => [(1, ctx)] | 0x12 => [(1, ctx)]
  | 0x13 => (1, ctx) :: key (p 0)
  | 0x14 => [(1, ctx), (0, p 2)] ++ key (p 0) ++ key (p 3)
  | 0x15 => (1, ctx) :: (if bit f 8 then [] else key (p 0))
  | 0x20 => (0, fld (p 0) 32 8) :: key (fld (p 0) 0 32)
  | 0x21 => (0, fld (p 0) 32 8) :: (key (fld (p 0) 0 32) ++ (if bit f 3 then key (p 2) else []))
  | 0x22 => key (p 0)
  | 0x28 => (3, fld (p 0) 0 12) :: (if bit f 0 then [] else (0, fld (p 0) 16 8) :: key (p 1))
  | 0x31 => if fld f 0 3 = 4 then key (p 1) else []
  | 0x40 => [(4, p 0)] | 0x41 => [(4, p 0)]
  | _ => []

/-- What an entry of the control ring names. -/
def entryNames (e : Entry) : List (Nat × Nat) := cmdNames (hOpc e.hdr) (hFlags e.hdr) (hCtx e.hdr) (cmdParams e)

/-- Whether two names stand for the same thing; a FENCE of all instances names each. -/
def nameClash (a b : Nat × Nat) : Bool := a == b || (a.1 = 0 && b.1 = 0 && (a.2 = 0xFF || b.2 = 0xFF))

/-- The image, Ledger, tamper and calibration group. -/
def groupCmd (o : Nat) : Bool := [0x38, 0x39, 0x3A, 0x50, 0x30, 0x48].contains o

/-- Packets that Orrery runs. -/
def livePackets (s : State) : List Packet := s.ory.packets.filter fun p => p.res.isNone

/-- TIMEOUT. -/
def timeoutRes (d : Nat := 0) : Res := res 0x23 d

/-- Commands that complete as usual while the data plane is stopped (R38). -/
def servedStopped : List Nat := [0x31, 0x70, 0x30, 0x50]

/-- Whether a packet is held incomplete (R38). -/
def cmdHeld (s : State) (o : Nat) : Bool := s.modes.dpStopped && !servedStopped.contains o

/-- Whether the entry at the head of the control ring's cache may start (R120, R461). -/
def cmdMayStart (s : State) (e : Entry) : Bool :=
  let rob := (s.ring s.ory.ctrlRing).rob
  (livePackets s).length < 8
    && rob.all (fun it => it.ent.verdict.isSome
        || (!groupCmd (hOpc it.ent.hdr) && (entryNames it.ent).all fun a => (entryNames e).all fun b => !nameClash a b))
    && !(hBarrier e.hdr && !rob.isEmpty)

/-- Whether Orrery takes packets from the control ring. -/
def cmdOn (s : State) : Bool := powered s && orreryUp s && !s.modes.halted && isControl s s.ory.ctrlRing

/-! ### Running a packet -/

/-- The packet at a slot that runs an opcode. -/
def livePacket (s : State) (slot opc : Nat) : Option Packet :=
  s.ory.packets.find? fun p => p.slot = slot && p.opc = opc && p.res.isNone

/-- Changes the packet that runs at a slot. -/
def modPacket (slot : Nat) (f : Packet → Packet) (s : State) : State :=
  s.modOry fun o => { o with packets := o.packets.map fun p => if p.slot = slot && p.res.isNone then f p else p }

/-- Completes a packet with an outcome and an extended reply. -/
def endCmd (slot : Nat) (r : Res) (x : Nat) (s : State) : State :=
  modPacket slot (fun p => { p with res := some r, replyX := x, waits := false }) s

/-- Completes a packet with a failure. -/
def failCmd (slot : Nat) (r : Res) (s : State) : State := endCmd slot r 0 s

/-- Completes a packet with a failure in place of any outcome that stands. -/
def stopCmd (slot : Nat) (r : Res) (s : State) : State :=
  s.modOry fun o => { o with packets := o.packets.map fun p =>
    if p.slot = slot then { p with res := some r, replyX := 0, waits := false } else p }

/-- OK with a RESULT. -/
def okRes (result : Nat := 0) : Res := res 0 0 result

/-- Starts the read of a parameter's memory, as part `k` of the packet at a slot. -/
def cmdRead (slot k addr len : Nat) (s : State) : State :=
  let id := s.mem.nextId
  modPacket slot (fun p => { p with reads := p.reads ++ [(k, id)] }) (startRead mi addr len false (.cmd slot k) s)

/-- How the reads of a packet stand: still waiting, failed with an outcome, or all there. -/
inductive CmdReads | wait | failed (r : Res) | ready
  deriving DecidableEq, Repr

/-- What the reads of a packet have come to. -/
def cmdReads (s : State) (p : Packet) : CmdReads :=
  let rs := p.reads.filterMap fun x => (s.buf? x.2).map fun b => b.res
  if rs.any fun r => r == .pending then .wait
  else match rs.find? fun r => r != .ok with
    | some (RdRes.xlate c _ _) => .failed (xlateRes c)
    | some RdRes.ic => .failed icError
    | _ => .ready

/-- The bytes of part `k` of a packet's reads. -/
def cmdData (s : State) (p : Packet) (k : Nat) : List Byte :=
  ((p.reads.find? fun x => x.1 = k).bind fun x => (s.buf? x.2).map fun b => b.data).getD []

/-- Queues a write of a packet. -/
def cmdWrite (slot addr : Nat) (b : List Byte) (s : State) : State :=
  startWrite mi addr b false (.cmdWr slot) false (modPacket slot (fun p => { p with written := p.written ++ [(addr, b.length)] }) s)

/-- Whether a write of the packet at a slot waits or is outstanding. -/
def cmdWriting (s : State) (slot : Nat) : Bool :=
  (s.mem.waiting.any fun a => a.own == .cmdWr slot) || (s.mem.hmp0.out.any fun r => r.own == .cmdWr slot)
    || (s.mem.hmp1.out.any fun r => r.own == .cmdWr slot)

/-- Moves the packet at a slot on, once its reads are complete. -/
def advanceCmd (slot opc : Nat) (f : Packet → State → State) (s : State) : State :=
  match livePacket s slot opc with
  | none => s
  | some p =>
    match cmdReads s p with
    | .wait => s
    | .failed r => failCmd slot r s
    | .ready => f p s

/-- Takes the entry at the head of the control ring's cache into the reorder buffer. -/
def takeCmd (e : Entry) (s : State) : State :=
  s.modRing s.ory.ctrlRing fun r => { r with cache := r.cache.drop 1, rob := r.rob ++ [{ ent := e }] }

/-- The packet of an entry. -/
def packetOf (e : Entry) : Packet :=
  { slot := e.slot, opc := hOpc e.hdr, flags := hFlags e.hdr, ctx := hCtx e.hdr, ps := cmdParams e }

/-- Starts the packet of an entry: its checks, then the reads of its memory (R460). -/
def startCmd (e : Entry) (reads : Packet → List (Nat × Nat)) (s : State) : State :=
  let p := packetOf e
  let s1 := (takeCmd e s).modOry fun o => { o with packets := o.packets ++ [{ p with res := cmdCheck s e }] }
  if (cmdCheck s e).isSome then s1
  else (reads p).zipIdx.foldl (fun t x => cmdRead e.slot x.2 x.1.1 x.1.2 t) s1

/-- Starts the packet of an entry that is held: nothing of it is examined, since only a block reset ends the hold (R38, R501). -/
def holdCmd (e : Entry) (s : State) : State :=
  (takeCmd e s).modOry fun o => { o with packets := o.packets ++ [packetOf e] }

/-- The entry at the head of the control ring's cache, where it stands at a slot with an opcode. -/
def cmdHead (s : State) (slot opc : Nat) : Option Entry :=
  ((s.ring s.ory.ctrlRing).cache.head?).bind fun e =>
    if e.slot = slot && hOpc e.hdr = opc && e.verdict.isNone then some e else none

/-- A command's event: the packet at a slot starts, or goes on from the stage it has reached. `sel` says which options the
command's row stands for, `reads` the memory it reads first, and `f` what it does once that memory is there. -/
def runCmd (slot opc : Nat) (sel : Nat → Bool) (reads : Packet → List (Nat × Nat)) (f : Packet → State → State)
    (s : State) : State :=
  if !cmdOn s then s
  else
    match livePacket s slot opc with
    | some p => if sel p.flags && !cmdHeld s opc then conclude (advanceCmd slot opc f s) else s
    | none =>
      match cmdHead s slot opc with
      | some e =>
        if sel (hFlags e.hdr) && cmdMayStart s e && s.port.att == .attached then
          conclude (if cmdHeld s opc then holdCmd e s else advanceCmd slot opc f (startCmd e reads s))
        else s
      | none => s

/-- No options decide the row. -/
def anyFlags (_ : Nat) : Bool := true
/-- A command that reads no memory first. -/
def noReads (_ : Packet) : List (Nat × Nat) := []

/-! ### Completion (R121, R464, R479) -/

/-- Commands with an event log entry of class 0x05. -/
def loggedCmds : List Nat := [0x03, 0x22, 0x38, 0x39, 0x3A, 0x30, 0x48, 0x50, 0x60]

/-- Discards what a packet left: its read buffers, the misses that only it asked for, and its hold on an HMAC slot and Forge. -/
def dropPacket (p : Packet) (s : State) : State :=
  let s1 := s.modOry fun o => { o with packets := o.packets.filter fun x => !(x.slot = p.slot) }
  let s2 := s1.modMem fun m => { m with bufs := m.bufs.filter fun b => match b.own with
    | .cmd k _ => k != p.slot
    | _ => true }
  let asked := fun (h i : Nat) => (s2.jobs.any fun j => j.phase == .held && j.handle = h && j.inst = i)
    || s2.ory.packets.any fun x => x.waits && x.res.isNone && x.ctx = h && x.aux = i
  let s3 := s2.modVault fun v => { v with misses := v.misses.filter fun m => m.1 != p.ctx || asked m.1 m.2 }
  let s4 := s3.modFab fun b => { b with forges := tmap b.forges {} fun _ f => if f.cmd = some p.slot then { f with cmd := none } else f }
  if p.opc = 0x28 then
    resumeHeld (s4.modDig fun d => { d with slots := tmod d.slots {} (fld (p.p 0) 0 12) fun h => { h with pending := false } })
  else s4

/-- Completes a packet: its log entry, and its outcome into the reorder buffer. -/
def closePacket (p : Packet) (r : Res) (s : State) : State :=
  let s1 := dropPacket p s
  let s2 := if loggedCmds.contains p.opc then logEvent 5 p.opc (p.p 0 + r.status * 2 ^ 64) s1 else s1
  finishItem s2.ory.ctrlRing p.slot r p.replyX [] s2

/-- The outcome of a packet whose structure failed (R124). -/
def badVerdict (e : Entry) (v : Res) : Res :=
  chainVerdict (!cmdHeaderOk (hOpc e.hdr) (hFlags e.hdr) (hCtx e.hdr)) v

/-- The entry at the head of the control ring's cache, where its structure has failed. -/
def badHead (s : State) (slot : Nat) : Option Entry :=
  ((s.ring s.ory.ctrlRing).cache.head?).bind fun e => if e.slot = slot && e.verdict.isSome then some e else none

/-- Whether a packet whose outcome stands is held incomplete while the data plane is stopped: all but the commands that R38 serves, until
they complete as TIMEOUT. -/
def closeHeld (s : State) (p : Packet) : Bool := cmdHeld s p.opc && p.res != some timeoutRes

/-- COMMAND_PACKET_COMPLETE (R38, R88, R121, R460, R464): a packet whose outcome stands completes once its writes are answered; an entry
whose structure failed takes its place in the reorder buffer with its verdict. -/
def execCommandPacketComplete (slot : SlotId) (s : State) : Out :=
  let k := slot.val
  .next (if !powered s then s
    else
      match s.ory.packets.find? (fun p => p.slot = k && p.res.isSome) with
      | some p => if orreryUp s && !cmdWriting s k && !closeHeld s p then conclude (closePacket p (p.res.getD (okRes)) s) else s
      | none =>
        match badHead s k with
        | some e =>
          if cmdOn s && s.port.att == .attached && !cmdHeld s (hOpc e.hdr) then
            conclude (s.modRing s.ory.ctrlRing fun r => { r with cache := r.cache.drop 1, rob := r.rob ++ [{ ent := e, fin := e.verdict.map (badVerdict e) }] })
          else s
        | none => s)

/-- Commands with a bound after which they complete as TIMEOUT. -/
def timedCmds : List Nat := [0x04, 0x05, 0x15, 0x28, 0x41]

/-- COMMAND_TIMEOUT (R38, R226, R270, R311, R427): the packet at a slot completes as TIMEOUT; so does every other packet while the
data plane is stopped. -/
def execCommandTimeout (slot : SlotId) (s : State) : Out :=
  let k := slot.val
  .next (if !cmdOn s then s
    else
      match s.ory.packets.find? fun p => p.slot = k && (p.res.isNone || closeHeld s p) with
      | some p =>
        if cmdHeld s p.opc then conclude (stopCmd k timeoutRes s)
        else if timedCmds.contains p.opc then conclude (failCmd k timeoutRes s)
        else s
      | none =>
        match ((s.ring s.ory.ctrlRing).cache.head?).filter fun e => e.slot = k with
        | some e =>
          if cmdHeld s (hOpc e.hdr) then
            conclude (s.modRing s.ory.ctrlRing fun r =>
              { r with cache := r.cache.drop 1, rob := r.rob ++ [{ ent := e, fin := some ((e.verdict.map (badVerdict e)).getD timeoutRes) }] })
          else s
        | none => s)

/-- CONTROL_PAD (R103, R462). -/
def execControlPad (slot : SlotId) (s : State) : Out :=
  .next (runCmd slot.val 0x00 anyFlags noReads (fun p t => endCmd p.slot okRes 0 t) s)

end Sys2Proof.Machine
end

