-- ==== Sys2Proof/Machine/CtxCmds.lean ====
section
/-! DEFINITION. The context commands (R276 to R279, R466, R467, R521 to R523). -/

namespace Sys2Proof.Machine

/-! ### What they share -/

/-- CTX_MISS with ABSENT. -/
def ctxAbsent : Res := ctxMiss 1
/-- UNSUPPORTED with CTX_KIND. -/
def ctxKindBad : Res := res 5 2
/-- CTX_STALE with EXPORTED. -/
def ctxExported : Res := res 7 1

/-- Asks the Vault for a packet's context with an asking number, and waits for it. -/
def askCtx (slot h i : Nat) (s : State) : State :=
  addMiss h i (modPacket slot (fun p => { p with waits := true, aux := i }) s)

/-- Goes on with the entry of a packet's context; one that is not resident is fetched first, and is ABSENT while the Vault is not in
use (R254, R276, R523). -/
def withCtx (p : Packet) (asker : Nat) (k : Nat → State → State) (s : State) : State :=
  match (s.ctxOf p.ctx).filter fun e => (s.ctxAt e).st != .evicting with
  | some e => k e (modPacket p.slot (fun x => { x with waits := false }) s)
  | none => if s.vault.en then askCtx p.slot p.ctx asker s else failCmd p.slot ctxAbsent s

/-- Pins a context. -/
def pinCtx (e : Nat) (b : Bool) (s : State) : State := s.modCtx e fun c => { c with pin := b }

/-- Checks 1 to 5 of R354 on a parent that a context's key is installed under, with the context's owner (R523). -/
def keyParentCheck (s : State) (h owner : Nat) : Option Res := parentCheck s h owner [.inst, .parent]

/-- Bytes of the key material of a context: both halves for XTS, else the key with its salt (R271, R365, R466). -/
def sourceLen (c : Ctx) : Nat := if c.kind = 5 then 2 * keyBytes c.keySize else materialLen c

/-- The key material that a source gives under a parent: derived with a label and empty context data, or unwrapped (R364, R365). -/
def sourceKey (s : State) (c : Ctx) (parent src : Nat) (env : Option (List Byte)) : Option (List Byte) :=
  match env with
  | none => some (kdf (parentKey s parent) 3 (natLe 8 src) [] (sourceLen c))
  | some b => envOpen (parentKey s parent) 1 (c.keySize + 1) (sourceLen c) b

/-- Whether two halves of an XTS key are equal (R176). -/
def halvesEqual (c : Ctx) (m : List Byte) : Bool :=
  c.kind = 5 && m.take (keyBytes c.keySize) == (m.drop (keyBytes c.keySize)).take (keyBytes c.keySize)

/-- XTS_EQUAL. -/
def xtsEqual : Res := keyInvalid 6
/-- KEY_SIZE. -/
def keySizeBad : Res := keyInvalid 7
/-- DEPTH. -/
def depthBad : Res := keyInvalid 8

/-- Writes key material into a slot of a context with its salt; an XTS key fills both slots. -/
def putMaterial (e slot : Nat) (m : List Byte) (parent : Nat) (s : State) : State :=
  let c := s.ctxAt e
  let kb := keyBytes c.keySize
  let g := handleGen s parent
  let d := childDepth s parent
  if c.kind = 5 then
    putCtxKey e 1 ((m.drop kb).take kb) c.keySize parent g d c.owner (putCtxKey e 0 (m.take kb) c.keySize parent g d c.owner s)
  else
    let s1 := putCtxKey e slot (m.take kb) c.keySize parent g d c.owner s
    if saltLen c.kind = 0 then s1 else s1.modCtx e fun x => x.setSalt slot (m.drop kb)

/-! ### CTX_LOAD (R276, R466, R522, R523) -/

/-- The create block of a packet as a number. -/
def createBlock (s : State) (p : Packet) : Nat := leNat (cmdData s p 0)

/-- Whether a reserved field of a create block is set: the entry's for its kind (R243 to R246), then the block's own (R466). -/
def createReserved (d : Nat) : Bool :=
  let k := fld d 40 5
  let f := fun (lo w : Nat) => fld d lo w != 0
  f 45 3 || f 79 1 || f 544 32 || f 707 317 || (bit d 704 && f 624 16) || (bit d 706 && f 688 16)
    || (isMem k && (f 256 256 || (k != 1 && k != 2 && f 96 32)))
    || (isMacsec k && !isXpn k && (f 320 192 || (isTx k && f 96 32)))
    || (isXpn k && isRx k && f 160 32)
    || (isEsp k && (f 123 5 || (!isEspMac k && f 96 24) || (isTx k && f 384 128) || ((k = 0x14 || k = 0x15) && f 320 64)))

/-- Whether a field of a create block is not valid for its kind (R243 to R245, R271, R466, R522). -/
def createParamBad (d : Nat) : Bool :=
  let k := fld d 40 5
  let f := fun (lo w : Nat) => fld d lo w != 0
  let b := bit d 705
  !kindOk k || fld d 30 2 = 3 || bit d 64
    || (!isMacsec k && (f 67 4 || f 75 2))
    || (!isRx k && bit d 71)
    || (!(isMacsec k && isTx k) && f 72 3)
    || (!isEsp k && bit d 77) || (!isTx k && bit d 78)
    || (isMacsec k && isRx k && fld d 75 2 = 3)
    || (isXpn k && isRx k && fld d 96 32 > 2 ^ 30)
    || (isMacsec k && b && fld d 67 2 = fld d 69 2)
    || (isMem k && b) || (!b && (f 640 64 || bit d 706))
    || (isXpn k && f 320 192) || (isEsp k && f 320 64)
    || (isMacsec k && isTx k && !f 192 64 && !bit d 78) || (isMacsec k && isRx k && !f 192 64)
    || (isMacsec k && isRx k && b != f 256 64)
    || (isEsp k && isTx k && !f 192 64 && !bit d 78)
    || (isEsp k && (fld d 120 2 = 3 || (k != 0x10 && k != 0x11 && f 120 2) || (isTx k && bit d 122)))

/-- The context that a create block describes. -/
def createCtx (p : Packet) (s : State) : Ctx :=
  let d := createBlock s p
  let c := ctxOfImage ((cmdData s p 0).take 64)
  { c with handle := p.ctx, owner := p.p 0, pin := bit p.flags 1, st := .active, cause := 0, failCnt := 0, failTotal := 0, role := 0,
           other := b2n (bit d 705), lastUse := now s / 1000 }

/-- The checks of a creation on its handle, parent and key size, in order. -/
def createChecks (p : Packet) (c : Ctx) (s : State) : Option Res :=
  let par := fld (createBlock s p) 512 32
  match keyParentCheck s par c.owner with
  | some r => some r
  | none =>
    if !keySizeOk c.kind c.keySize then some keySizeBad
    else if childDepth s par ≥ 6 then some depthBad
    else none

/-- Creates a context whose keys are known. -/
def makeCtx (p : Packet) (c : Ctx) (ma : List Byte) (mb : Option (List Byte)) (s : State) : State :=
  let par := fld (createBlock s p) 512 32
  if halvesEqual c ma then failCmd p.slot xtsEqual s
  else
    match roomFor s c.owner with
    | .quota => failCmd p.slot ctxQuotaRes s
    | .wait => modPacket p.slot (fun x => { x with waits := true, wants := some c.owner }) s
    | .here =>
      let e := firstGap (tkeys s.ctx) 0
      let s1 := putMaterial e 0 ma par (fillEntry e c s)
      let s2 := match mb with
        | some m => putMaterial e 1 m par s1
        | none => s1
      resumeHandle p.ctx (endCmd p.slot okRes 0 s2)

/-- The key material of a creation, once its envelopes are there. -/
def createKeys (p : Packet) (c : Ctx) (s : State) : State :=
  let d := createBlock s p
  let par := fld d 512 32
  let ma := sourceKey s c par (fld d 576 64) (if bit d 704 then some (cmdData s p 1) else none)
  let mb := sourceKey s c par (fld d 640 64) (if bit d 706 then some (cmdData s p 2) else none)
  match ma with
  | none => failCmd p.slot wrappedFail s
  | some a =>
    if !bit d 705 then makeCtx p c a none s
    else
      match mb with
      | none => failCmd p.slot wrappedFail s
      | some b => makeCtx p c a (some b) s

/-- Reads the envelopes that a create block names. -/
def createRead (p : Packet) (c : Ctx) (s : State) : State :=
  let d := createBlock s p
  let n := 44 + sourceLen c
  let s1 := modPacket p.slot (fun x => { x with stage := 1 }) s
  let s2 := if bit d 704 then cmdRead p.slot 1 (fld d 576 64) n s1 else s1
  if bit d 706 then cmdRead p.slot 2 (fld d 640 64) n s2 else s2

/-- What CTX_LOAD with CREATE does once its block is there. -/
def createCmd (p : Packet) (s : State) : State :=
  let d := createBlock s p
  let c := createCtx p s
  if createReserved d then failCmd p.slot reservedRes s
  else if createParamBad d then failCmd p.slot paramBad s
  else if !hasRoot s then failCmd p.slot noRoot s
  else if (s.ctxOf p.ctx).isSome then
    (if ((s.ctxOf p.ctx).map fun e => (s.ctxAt e).st == .evicting).getD false then s else failCmd p.slot ctxKindBad s)
  else if s.vault.en && !p.probed then askCtx p.slot p.ctx askProbe s
  else
    match createChecks p c s with
    | some r => failCmd p.slot r s
    | none =>
      if p.stage = 0 && (bit d 704 || bit d 706) then createRead p c s
      else createKeys p c s

/-- What CTX_LOAD without CREATE does. -/
def loadCmd (p : Packet) (s : State) : State :=
  withCtx p (p.p 0) (fun e t =>
    if (t.ctxAt e).owner != p.p 0 then failCmd p.slot ctxAbsent t
    else endCmd p.slot okRes 0 (if bit p.flags 1 then pinCtx e true t else t)) s

/-- CTX_LOAD (R276, R522, R523). -/
def execCtxLoad (slot : SlotId) (s : State) : Out :=
  .next (runCmd slot.val 0x10 anyFlags (fun p => if bit p.flags 0 then [(p.p 1, 128)] else [])
    (fun p t => if bit p.flags 0 then createCmd p t else loadCmd p t) s)

/-! ### CTX_EVICT and CTX_PIN (R252, R256, R257, R276) -/

/-- Starts the seal that an eviction command waits for. -/
def sealCmd (p : Packet) (e : Nat) (del flush : Bool) (s : State) : State :=
  if !s.vault.en then failCmd p.slot (ctxMiss 2) s
  else startEvict p.ctx e del flush
    (modPacket p.slot (fun x => { x with stage := 1, committed := true, waits := true }) s)

/-- What CTX_EVICT without options does: an eviction already in progress is its own. -/
def evictCmd (p : Packet) (s : State) : State :=
  if p.stage != 0 then s
  else
    match s.ctxOf p.ctx with
    | none => failCmd p.slot ctxAbsent s
    | some e =>
      if (s.ctxAt e).st == .evicting then modPacket p.slot (fun x => { x with stage := 1, committed := true, waits := true }) s
      else sealCmd p e false false s

/-- CTX_EVICT (R252, R256, R276). -/
def execCtxEvict (slot : SlotId) (s : State) : Out :=
  .next (runCmd slot.val 0x11 (fun f => fld f 0 2 = 0) noReads evictCmd s)

/-- CTX_EVICT with DELETE (R257, R276). -/
def execCtxEvictDelete (slot : SlotId) (s : State) : Out :=
  .next (runCmd slot.val 0x11 (fun f => bit f 0) noReads
    (fun p t => if p.stage != 0 then t else withCtx p askAny (fun e u => sealCmd p e true false u) t) s)

/-- What CTX_EVICT with FLUSH does; a context in eviction is first gone. -/
def flushCmd (p : Packet) (s : State) : State :=
  if p.stage != 0 then s
  else
    match s.ctxOf p.ctx with
    | none => failCmd p.slot ctxAbsent s
    | some e => if (s.ctxAt e).st == .evicting then s else sealCmd p e false true s

/-- CTX_EVICT with FLUSH (R257, R276). -/
def execCtxEvictFlush (slot : SlotId) (s : State) : Out :=
  .next (runCmd slot.val 0x11 (fun f => bit f 1 && !bit f 0) noReads flushCmd s)

/-- CTX_PIN (R252, R276). -/
def execCtxPin (slot : SlotId) (s : State) : Out :=
  .next (runCmd slot.val 0x12 anyFlags noReads
    (fun p t => withCtx p askAny (fun e u => endCmd p.slot okRes 0 (pinCtx e (!bit p.flags 0) u)) t) s)

/-! ### CTX_EXPORT and CTX_IMPORT (R277, R278) -/

/-- IV of a blob: four zero bytes and the export sequence, high byte first. -/
def blobIv (seq : Nat) : List Byte := zeros 4 ++ natBe 8 seq

/-- An export blob of the context in an entry. -/
def exportBlob (s : State) (e seq : Nat) (key : List Byte) : List Byte :=
  let hd := recHeader s e true seq (2 ^ 32 - 1)
  let c := gcmEnc key (blobIv seq) hd (recPlain s e true)
  hd ++ c.1 ++ c.2

/-- Exports the context in an entry that no admitted operation refers to. -/
def exportCtx (p : Packet) (e : Nat) (s : State) : State :=
  let i := hIndex (p.p 0)
  let seq := (s.parent i).expSeq + 1
  let blob := exportBlob s e seq (parentKey s (p.p 0))
  let s1 := markStale e 2 (s.modParent i fun k => { k with expSeq := seq })
  cmdWrite p.slot (p.p 1) blob (endCmd p.slot okRes seq (modPacket p.slot (fun x => { x with committed := true }) s1))

/-- What CTX_EXPORT does. -/
def exportCmd (p : Packet) (s : State) : State :=
  match parentCheck s (p.p 0) mi [.transport] with
  | some r => failCmd p.slot r s
  | none =>
    withCtx p askAny (fun e t =>
      if (t.ctxAt e).st == .stale && (t.ctxAt e).cause = 2 then failCmd p.slot ctxExported t
      else if entryInUse t e then t
      else exportCtx p e t) s

/-- CTX_EXPORT (R276, R277). -/
def execCtxExport (slot : SlotId) (s : State) : Out := .next (runCmd slot.val 0x13 anyFlags noReads exportCmd s)

/-- Opens an export blob under a transport key. -/
def openBlob (key b : List Byte) : Option Opened :=
  let d := gcmDec key (blobIv (leAt b 24 8)) (b.take 64) (bytesAt b 64 176)
  if recFormat b = 1 && recGen b = 2 ^ 32 - 1 && d.2 == bytesAt b 240 16 then some { hd := b.take 64, pt := d.1 } else none

/-- The context of a blob under the handle and owner that the command gives. -/
def importedCtx (p : Packet) (r : Opened) (s : State) : Ctx :=
  let c := ctxOfImage (r.pt.take 64)
  let cause := fld (leAt r.hd 0 8) 28 2
  { c with handle := p.ctx, owner := p.p 2, pin := bit p.flags 0, st := if cause = 0 then .active else .stale, cause := cause,
           failCnt := 0, failTotal := leAt r.hd 40 8, lastUse := now s / 1000 }

/-- The two keys of a blob, one after the other. -/
def importedKeys (p : Packet) (r : Opened) (s : State) : List Byte :=
  let n := keyBytes (importedCtx p r s).keySize
  bytesAt r.pt 64 n ++ bytesAt r.pt 96 n

/-- Loads an imported context and starts its seal into this block's Vault. -/
def importCtx (p : Packet) (r : Opened) (s : State) : State :=
  let e := firstGap (tkeys s.ctx) 0
  let c := importedCtx p r s
  let put := fun (k : Nat) (t : State) =>
    if recHasKey c r.hd r.pt k then
      putCtxKey e k (bytesAt r.pt (64 + 32 * k) 32) c.keySize (p.p 3) (handleGen t (p.p 3)) (childDepth t (p.p 3)) c.owner t
    else t
  let s1 := put 1 (put 0 (fillEntry e c s))
  let s2 := s1.modParent (hIndex (p.p 0)) fun k => { k with impSeq := leAt r.hd 24 8 }
  startEvict p.ctx e false true
    (modPacket p.slot (fun x => { x with stage := 1, committed := true, waits := true, wants := none }) s2)

/-- What CTX_IMPORT does once its blob is there. -/
def importCmd (p : Packet) (s : State) : State :=
  if p.stage != 0 then s
  else
    match parentCheck s (p.p 0) mi [.transport], keyParentCheck s (p.p 3) (p.p 2) with
    | some r, _ => failCmd p.slot r s
    | none, some r => failCmd p.slot r s
    | none, none =>
      match openBlob (parentKey s (p.p 0)) (cmdData s p 0) with
      | none => failCmd p.slot wrappedFail s
      | some b =>
        if leAt b.hd 24 8 ≤ (s.parent (hIndex (p.p 0))).impSeq then failCmd p.slot (replayRes 1) s
        else if !s.vault.en then failCmd p.slot (ctxMiss 2) s
        else if ((s.ctxOf p.ctx).map fun e => (s.ctxAt e).st != .evicting).getD false then failCmd p.slot ctxKindBad s
        else if !p.probed then askCtx p.slot p.ctx askProbe s
        else if childDepth s (p.p 3) ≥ 6 then failCmd p.slot depthBad s
        else if halvesEqual (importedCtx p b s) (importedKeys p b s) then failCmd p.slot xtsEqual s
        else
          match roomFor s (p.p 2) with
          | .quota => failCmd p.slot ctxQuotaRes s
          | .wait => modPacket p.slot (fun x => { x with waits := true, wants := some (p.p 2) }) s
          | .here => importCtx p b s

/-- CTX_IMPORT (R276, R278). -/
def execCtxImport (slot : SlotId) (s : State) : Out :=
  .next (runCmd slot.val 0x14 anyFlags (fun p => [(p.p 1, 256)]) importCmd s)

/-! ### CTX_REKEY (R268, R270 to R272, R467, R521) -/

/-- Whether a breach of R521, or of R271 on the AN, stands. -/
def rekeyParamBad (p : Packet) (c : Ctx) : Bool :=
  let f := p.flags
  let an := fld f 0 2
  let tx := isTx c.kind
  let top := c.largest
  let isT := isEsp c.kind && isRx c.kind
  (an != 0 && !isMacsec c.kind)
    || ((bit f 2 || bit f 6) && !tx)
    || (bit f 5 && (!isEsp c.kind || (!isEspMac c.kind && fld (p.p 2) 32 12 != 0)))
    || (bit f 7 && (isMem c.kind || (tx && !bit f 3) || p.p 4 > top || (!isT && p.p 4 = 0)))
    || (bit f 7 && bit f 8 && (!isRx c.kind || c.other = 0))
    || (isMacsec c.kind && !bit f 8 && !bit f 3 && an = c.an c.role)

/-- Sets the number of a slot of a receive kind: NextPN, or T with an empty bitmap. -/
def Ctx.putRx (c : Ctx) (slot n : Nat) : Ctx :=
  if isEsp c.kind then (c.setRx slot n).setBitmap slot 0 else c.setRx slot n

/-- ATTR: the SPI and HMAC slot of the slot that is not current; a PREVIOUS key there ends (R276). -/
def Ctx.setAttr (c : Ctx) (p : Packet) : Ctx :=
  let k := 1 - c.role
  { c with sci := setFld c.sci (32 * k) 32 (fld (p.p 2) 0 32), w := setFld c.w (12 * k) 12 (fld (p.p 2) 32 12),
           other := if c.other = 2 then 0 else c.other }

/-- ATTR on an entry, with the PREVIOUS key it ends, by which the entry's generation advances (R26). -/
def applyAttr (p : Packet) (e : Nat) (s : State) : State :=
  if !bit p.flags 5 then s
  else
    let c := s.ctxAt e
    let s1 := s.modCtx e fun x => x.setAttr p
    if c.other = 2 then
      (s1.modCtx e Ctx.bump).modCruc fun x => { x with ctxKeys := tdel x.ctxKeys (ctxKeyIx e (1 - c.role)) }
    else s1

/-- The options that follow an installation: THRESHOLD, and the number of the installed slot. -/
def applyNumbers (p : Packet) (e slot : Nat) (s : State) : State :=
  s.modCtx e fun c =>
    let c1 := if bit p.flags 6 then { c with nB := p.p 3 } else c
    let c2 := if bit p.flags 2 then { c1 with nB := 0 } else c1
    if !bit p.flags 7 then c2 else if isTx c2.kind then c2.setTx (p.p 4) else c2.putRx slot (p.p 4)

/-- BOTH: the key goes into the current slot, the other is emptied, and the context is fresh (R268, R467). -/
def installBoth (p : Packet) (e : Nat) (m : List Byte) (s : State) : State :=
  let c := s.ctxAt e
  let s1 := putMaterial e c.role m (p.p 0) (if c.kind = 5 then s else
    s.modCruc fun x => { x with ctxKeys := tdel x.ctxKeys (ctxKeyIx e (1 - c.role)) })
  s1.modCtx e fun x =>
    let y := ({ x with st := .active, cause := 0, other := 0, zeroAt := false }).bump
    let an := fld p.flags 0 2
    let z := if isMacsec y.kind then (if y.role = 0 then { y with anA := an } else { y with anB := an }) else y
    if isMem z.kind then { z with sci := 0 }
    else if isTx z.kind then z.setTx 1
    else z.putRx z.role (if isMacsec z.kind then 1 else 0)

/-- Installs a key that CTX_REKEY has, once the operations that use the replaced key have completed. -/
def rekeyInstall (p : Packet) (e : Nat) (m : List Byte) (s : State) : State :=
  let c := s.ctxAt e
  let kb := keyBytes c.keySize
  let both := bit p.flags 3
  if halvesEqual c m then failCmd p.slot xtsEqual s
  else if (if both then entryInUse s e else slotInUse s e (1 - c.role)) then s
  else
    let s0 := applyAttr p e s
    let s1 := if both then installBoth p e m s0
      else installNext e (m.take kb) (m.drop kb) (fld p.flags 0 2) (p.p 0) (handleGen s (p.p 0)) (childDepth s (p.p 0)) s0
    let slot := if both then c.role else 1 - c.role
    resumeHandle p.ctx (endCmd p.slot okRes 0 (applyNumbers p e slot s1))

/-- CTX_REKEY without a key: attributes and numbers. -/
def rekeyPlain (p : Packet) (e : Nat) (s : State) : State :=
  let c := s.ctxAt e
  if bit p.flags 5 && c.other = 2 && slotInUse s e (1 - c.role) then s
  else endCmd p.slot okRes 0 (applyNumbers p e (1 - c.role) (applyAttr p e s))

/-- CTX_REKEY on a resident entry. -/
def rekeyEntry (p : Packet) (e : Nat) (s : State) : State :=
  let c := s.ctxAt e
  if c.st == .stale && c.cause = 2 then failCmd p.slot ctxExported s
  else if rekeyParamBad p c then failCmd p.slot paramBad s
  else if bit p.flags 8 then rekeyPlain p e s
  else if c.kind = 5 && !bit p.flags 3 then failCmd p.slot ctxKindBad s
  else
    match keyParentCheck s (p.p 0) c.owner with
    | some r => failCmd p.slot r s
    | none =>
      if childDepth s (p.p 0) ≥ 6 then failCmd p.slot depthBad s
      else if bit p.flags 4 && p.stage = 0 then
        cmdRead p.slot 0 (p.p 1) (44 + sourceLen c) (modPacket p.slot (fun x => { x with stage := 1 }) s)
      else
        match sourceKey s c (p.p 0) (p.p 1) (if bit p.flags 4 then some (cmdData s p 0) else none) with
        | none => failCmd p.slot wrappedFail s
        | some m => rekeyInstall p e m s

/-- CTX_REKEY (R276, R467, R521, R523). -/
def execCtxRekey (slot : SlotId) (s : State) : Out :=
  .next (runCmd slot.val 0x15 anyFlags noReads (fun p t => withCtx p askAny (rekeyEntry p) t) s)

end Sys2Proof.Machine
end

