-- ==== Sys2Proof/Machine/KeyCmds.lean ====
section
/-! DEFINITION. The key commands: KEY_DERIVE and KEY_UNWRAP with its forms (R352, R368, R369), KEY_INVALIDATE (R375) and
HMAC_SLOT_LOAD (R309, R311). -/

namespace Sys2Proof.Machine

/-! ### Parameters -/

/-- The source handle of a KEY_DERIVE or KEY_UNWRAP. -/
def Packet.srcKey (p : Packet) : Nat := fld (p.p 0) 0 32
/-- The owner that it names. -/
def Packet.owner (p : Packet) : Nat := fld (p.p 0) 32 8
/-- KEY_BITS as a slot records it: 0, 1 or 2. -/
def Packet.bits (p : Packet) : Nat := fld (p.p 3) 16 2 - 1
/-- The SAVE option. -/
def Packet.save (p : Packet) : Bool := bit p.flags 0

/-- Whether the DRBG is STOPPED. -/
def drbgStopped (s : State) : Bool := s.anv.drbg == .stopped

/-! ### Saving and installing (R351, R365, R367, R369) -/

/-- The envelope of a key that SAVE writes, under the key that installs it: counted as a wrap where that key holds a slot. -/
def saveKey (p : Packet) (under key : List Byte) (bits : Nat) (s : State) : State :=
  if drbgStopped s then failCmd p.slot noEntropy s
  else
    let counted := if p.srcKey = 0 then some s else countWrap (hIndex p.srcKey) s
    match counted with
    | none => failCmd p.slot wrapLimit s
    | some s1 =>
      let env := envMake under 2 (bits + 1) key (drawBytes s1 12)
      cmdWrite p.slot (p.p 4) env (modPacket p.slot (fun x => { x with stage := 1 }) (drawn 12 s1))

/-- Runs the envelope's write first, where SAVE asks for one, then an installation. -/
def savedThen (p : Packet) (under key : List Byte) (bits : Nat) (k : State → State) (s : State) : State :=
  if p.save && p.stage = 0 then saveKey p under key bits s
  else if cmdWriting s p.slot then s
  else k s

/-- Installs a parent key into a slot and completes with its handle. -/
def installKey (p : Packet) (i parent depth : Nat) (key : List Byte) (s : State) : State :=
  let k : KeySlot := { kind := .parent, owner := p.owner, depth := depth, bits := p.bits, parent := parent,
                       pgen := if parent = 0 then 0 else handleGen s parent, wraps := resumeWraps s key, key := key }
  let s1 := recordSlot i (installParent i k s)
  endCmd p.slot (okRes (parentHandle s1 i)) 0 s1

/-- Installs a new parent key below a source. -/
def installBelow (p : Packet) (under key : List Byte) (depth : Nat) (s : State) : State :=
  match takeParent s p.owner with
  | none => failCmd p.slot slotQuota s
  | some i => savedThen p under key p.bits (installKey p i p.srcKey depth key) s

/-! ### KEY_DERIVE (R364, R369) -/

/-- The read of KEY_DERIVE's context data. -/
def deriveRead (p : Packet) : List (Nat × Nat) := if fld (p.p 3) 0 9 = 0 then [] else [(p.p 2, fld (p.p 3) 0 9)]

/-- What KEY_DERIVE does. -/
def deriveCmd (p : Packet) (s : State) : State :=
  match parentCheck s p.srcKey p.owner [.inst, .parent] with
  | some r => failCmd p.slot r s
  | none =>
    let d := childDepth s p.srcKey
    if d ≥ 6 then failCmd p.slot depthBad s
    else
      let under := parentKey s p.srcKey
      installBelow p under (kdf under 2 (natLe 8 (p.p 1)) (cmdData s p 0) (keyBytes p.bits)) d s

/-- KEY_DERIVE (R369). -/
def execKeyDerive (slot : SlotId) (s : State) : Out := .next (runCmd slot.val 0x20 anyFlags deriveRead deriveCmd s)

/-! ### KEY_UNWRAP (R352, R366, R368, R369) -/

/-- Checks 1 to 5 of R354 on an unwrap's source: a transport key of MI, or an instance or parent key of the owner. -/
def unwrapSource (s : State) (h owner : Nat) : Option Res :=
  if (s.parent (hIndex h)).kind == .transport then parentCheck s h mi [.transport] else parentCheck s h owner [.inst, .parent]

/-- The read of an envelope of `n` key bytes after `off` bytes. -/
def envRead (off : Nat) (p : Packet) : List (Nat × Nat) := [(p.p 1, off + 44 + keyBytes p.bits)]

/-- What KEY_UNWRAP does. -/
def unwrapCmd (p : Packet) (s : State) : State :=
  match unwrapSource s p.srcKey p.owner with
  | some r => failCmd p.slot r s
  | none =>
    let d := childDepth s p.srcKey
    let under := parentKey s p.srcKey
    if d ≥ 6 then failCmd p.slot depthBad s
    else if (takeParent s p.owner).isNone then failCmd p.slot slotQuota s
    else
      match envOpen under 2 (p.bits + 1) (keyBytes p.bits) (cmdData s p 0) with
      | none => failCmd p.slot wrappedFail s
      | some key => installBelow p under key d s

/-- KEY_UNWRAP (R369). -/
def execKeyUnwrap (slot : SlotId) (s : State) : Out :=
  .next (runCmd slot.val 0x21 (fun f => !bit f 1 && !bit f 3) (envRead 0) unwrapCmd s)

/-- The ML-KEM parameter set of the provisioning and agreement keys. -/
def kem768 : Nat := 0x31

/-- The provisioning key pair: the encapsulation key and the decapsulation key (R368). -/
def provPair (s : State) : List Byte × List Byte :=
  let seed := kdf (s.sysKey 5).key 9 (ascii "PROVPAIR") [] 64
  kemGen kem768 (seed.take 32) (seed.drop 32)

/-- Puts an attestation secret into slot `v` and its envelope into the Ledger; in Test nothing reaches the Ledger (R369, R463). -/
def putSecret (v bits : Nat) (key : List Byte) (s : State) : State :=
  let s1 := putSystemBits (8 + v) bits key s
  if inTest s then s1
  else
    let env := envMake (s.sysKey 4).key 5 (bits + 1) key (drawBytes s1 12)
    (drawn 12 s1).modLdg fun l => { l with envs := tset l.envs [] v env }

/-- What KEY_UNWRAP with KEM does. -/
def kemCmd (p : Packet) (s : State) : State :=
  let b := cmdData s p 0
  let secret := kemDecaps kem768 (provPair s).2 (b.take 1088)
  let att := bit p.flags 2
  if !att && (takeParent s p.owner).isNone then failCmd p.slot slotQuota s
  else
    match envOpen secret (if att then 5 else 2) (p.bits + 1) (keyBytes p.bits) (b.drop 1088) with
    | none => failCmd p.slot wrappedFail s
    | some key =>
      if !att then installBelow p secret key 2 s
      else if drbgStopped s then failCmd p.slot noEntropy s
      else endCmd p.slot okRes 0 (putSecret (fld (p.p 0) 40 3) p.bits key s)

/-- KEY_UNWRAP with KEM (R368, R369). -/
def execKeyUnwrapKem (slot : SlotId) (s : State) : Out :=
  .next (runCmd slot.val 0x21 (fun f => bit f 1 && !bit f 3) (envRead 1088) kemCmd s)

/-- The check of the handle that RESTORE names (R352). -/
def restoreTarget (s : State) (h : Nat) : Option Res :=
  let k := s.parent (hIndex h)
  if hClass h != 1 || h ≥ 2 ^ 31 || hIndex h ≥ 4096 || k.st != .valid || !k.absent then some (keyInvalid 1)
  else if hUse h != k.use % 1024 then some (keyInvalid 2)
  else none

/-- The check of RESTORE's source (R352). -/
def restoreSource (s : State) (src target : Nat) : Option Res :=
  let k := s.parent (hIndex target)
  let q := s.parent (hIndex src)
  match handleCheck s src k.owner with
  | some r => some r
  | none => if q.depth + 1 != k.depth || !(q.kind == .inst || q.kind == .parent) then some (keyInvalid 3) else none

/-- Puts a restored key back into its slot, which keeps its allocation count and GEN (R352). -/
def restoreKey (p : Packet) (key : List Byte) (s : State) : State :=
  let i := hIndex (p.p 2)
  let s1 := drawn 16 (s.modParent i fun k =>
    { k with absent := false, key := slotBytes key, seed := drawBytes s 16, parent := p.srcKey, pgen := handleGen s p.srcKey,
             wraps := resumeWraps s key })
  endCmd p.slot (okRes (p.p 2)) 0 (recordSlot i s1)

/-- What KEY_UNWRAP with RESTORE does once its source and target are checked: it reads the envelope, then opens it. -/
def restoreOpen (p : Packet) (s : State) : State :=
  let k := s.parent (hIndex (p.p 2))
  let under := parentKey s p.srcKey
  if p.reads.isEmpty then cmdRead p.slot 0 (p.p 1) (44 + keyBytes k.bits) s
  else
    match envOpen under 2 (k.bits + 1) (keyBytes k.bits) (cmdData s p 0) with
    | none => failCmd p.slot wrappedFail s
    | some key =>
      if keyPrint key != (tget s.ldg.slotTab {} (hIndex (p.p 2))).fpr then failCmd p.slot wrappedFail s
      else savedThen p under key k.bits (restoreKey p key) s

/-- What KEY_UNWRAP with RESTORE does. -/
def restoreCmd (p : Packet) (s : State) : State :=
  match restoreTarget s (p.p 2), restoreSource s p.srcKey (p.p 2) with
  | some r, _ => failCmd p.slot r s
  | none, some r => failCmd p.slot r s
  | none, none => restoreOpen p s

/-- KEY_UNWRAP with RESTORE (R352). -/
def execKeyUnwrapRestore (slot : SlotId) (s : State) : Out :=
  .next (runCmd slot.val 0x21 (fun f => bit f 3) noReads restoreCmd s)

/-! ### KEY_INVALIDATE (R375) -/

/-- The checks of KEY_INVALIDATE on the handle it names. -/
def invalidateCheck (s : State) (h : Nat) (destroy : Bool) : Option Res :=
  let k := s.parent (hIndex h)
  if hClass h = 2 && h < 2 ^ 31 then some (keyInvalid 3)
  else if h ≥ 2 ^ 31 || hClass h != 1 || hIndex h ≥ 4096 || k.st == .empty then some (keyInvalid 1)
  else if hUse h != k.use % 1024 then some (keyInvalid 2)
  else if k.st == .invalid && !destroy then some (parentInvalid 2)
  else if destroy && k.kind == .inst && (hIndex h = mi || (s.inst (hIndex h)).st == .enabled) then some modeBad
  else none

/-- DESTROY of parent-class slot `i`: its key is zeroised and its slot EMPTY, and its count of wraps is forgotten (R375, R478). -/
def destroyKey (i : Nat) (s : State) : State :=
  let fp := if (s.parent i).absent then (tget s.ldg.slotTab {} i).fpr else keyPrint (s.parent i).key
  let s1 := recordSlot i (freeSlot i s)
  s1.modLdg fun l => { l with wraps := tset l.wraps 0 fp 0 }

/-- What KEY_INVALIDATE does. -/
def invalidateCmd (p : Packet) (s : State) : State :=
  let h := p.p 0
  let destroy := bit p.flags 0
  match invalidateCheck s h destroy with
  | some r => failCmd p.slot r s
  | none =>
    let i := hIndex h
    let s1 := invalidateUnder [i] s
    endCmd p.slot okRes 0 (if destroy then destroyKey i s1 else s1)

/-- KEY_INVALIDATE (R375). -/
def execKeyInvalidate (slot : SlotId) (s : State) : Out := .next (runCmd slot.val 0x22 anyFlags noReads invalidateCmd s)

/-! ### HMAC_SLOT_LOAD (R309, R311) -/

/-- Changes HMAC slot `n`. -/
def State.modHslot (s : State) (n : Nat) (f : HSlot → HSlot) : State :=
  s.modDig fun d => { d with slots := tmod d.slots {} n f }

/-- The first read of an HMAC_SLOT_LOAD: an envelope, or the derivation's context data. -/
def hmacReads (p : Packet) : List (Nat × Nat) :=
  if bit p.flags 0 then []
  else if bit p.flags 1 then [(p.p 2, 44 + fld (p.p 3) 0 8)]
  else if fld (p.p 3) 16 9 = 0 then []
  else [(p.p 4, fld (p.p 3) 16 9)]

/-- The key that an HMAC_SLOT_LOAD derives or unwraps (R309, R364, R365). -/
def hmacKey (p : Packet) (s : State) : Option (List Byte) :=
  let under := parentKey s (p.p 1)
  let n := fld (p.p 3) 0 8
  if bit p.flags 1 then envOpen under 3 (fld (p.p 3) 8 2) n (cmdData s p 0)
  else some (kdf under 4 (natLe 8 (p.p 2)) (cmdData s p 0) n)

/-- Empties and unassigns an HMAC slot. -/
def hmacClear (p : Packet) (s : State) : State :=
  let n := fld (p.p 0) 0 12
  if hslotInUse s n then s
  else endCmd p.slot okRes 0 (s.modHslot n fun h => { gen := (h.gen + 1) % 256 })

/-- Writes both states of an HMAC key into its slot, under a mask of 128 bytes from the DRBG (R308). -/
def hmacFill (p : Packet) (key : List Byte) (s : State) : State :=
  let n := fld (p.p 0) 0 12
  let hash := fld (p.p 3) 8 2
  endCmd p.slot okRes 0 (drawn 128 (s.modHslot n fun h =>
    ({ valid := true, hash := hash, owner := fld (p.p 0) 16 8, gen := (h.gen + 1) % 256, parent := p.p 1,
       pgen := handleGen s (p.p 1) } : HSlot).store (hmacStates hash key) (hmacMask hash (drawBytes s 128))))

/-- What HMAC_SLOT_LOAD does once its memory is there. -/
def hmacGo (p : Packet) (s : State) : State :=
  if bit p.flags 0 then hmacClear p s
  else
    match parentCheck s (p.p 1) (fld (p.p 0) 16 8) [.inst, .parent] with
    | some r => failCmd p.slot r s
    | none =>
      if childDepth s (p.p 1) ≥ 6 then failCmd p.slot depthBad s
      else
        match hmacKey p s with
        | none => failCmd p.slot wrappedFail s
        | some key =>
          if drbgStopped s then failCmd p.slot noEntropy s
          else if hslotInUse s (fld (p.p 0) 0 12) then s
          else hmacFill p key s

/-- What HMAC_SLOT_LOAD does: admission on the slot stops from the moment the block takes the command (R311). -/
def hmacCmd (p : Packet) (s : State) : State :=
  if p.stage != 0 then hmacGo p s
  else
    let s1 := modPacket p.slot (fun x => { x with stage := 1 }) (s.modHslot (fld (p.p 0) 0 12) fun h => { h with pending := true })
    (hmacReads p).zipIdx.foldl (fun t x => cmdRead p.slot x.2 x.1.1 x.1.2 t) s1

/-- HMAC_SLOT_LOAD (R309, R311). -/
def execHmacSlotLoad (slot : SlotId) (s : State) : Out :=
  .next (runCmd slot.val 0x28 anyFlags noReads (fun p t => match livePacket (hmacCmd p t) p.slot p.opc with
    | some q => if p.stage = 0 && q.reads.isEmpty then hmacGo q (hmacCmd p t) else hmacCmd p t
    | none => hmacCmd p t) s)

end Sys2Proof.Machine
end

