-- ==== Sys2Proof/Machine/Attest.lean ====
section
/-! DEFINITION. Attestation: reports (R374), the agreement of transport keys (R371, R373), ATTEST in its five modes, and the
attestation that a register write starts without a ring (R482). -/

namespace Sys2Proof.Machine

/-! ### Reports (R374) -/

/-- The attestation secret of verifier `v`: none where its slot is EMPTY. -/
def attestSecret (s : State) (v : Nat) : Option (List Byte) :=
  let k := s.sysKey (8 + v)
  if k.st == .valid then some (k.key.take (keyBytes k.bits)) else none

/-- A measurement as the DGC_MEAS words show it. -/
def measShown (s : State) (m : Nat) : List Byte :=
  if s.dig.measDone.toNat.testBit m then bytesAt (tget s.dig.meas [] m) 0 48 else zeros 48

/-- The MAC of a report under a secret. -/
def reportMac (secret b : List Byte) : List Byte := kmac 136 secret b 32 (ascii "KALEK-ATTEST")

/-- A report of verifier `v` in a mode with a nonce and its public values; without a secret the MAC is zero. -/
def report (s : State) (v mode : Nat) (nonce pub : List Byte) : List Byte :=
  let b := natLe 4 0x00030001 ++ [byte (lifeCode s), byte (b2n s.cruc.debug), byte v, byte mode] ++ zeros 8 ++ nonce
    ++ measShown s 0 ++ measShown s 1 ++ measShown s 2 ++ natLe 4 pub.length ++ zeros 60 ++ pub
  b ++ (match attestSecret s v with
    | some k => reportMac k b
    | none => zeros 32)

/-- NO_SLOT. -/
def noSlot : Res := keyInvalid 1

/-- Writes a report of a packet, or finds its buffer too small. -/
def putReport (p : Packet) (r : List Byte) (k : State → State) (s : State) : State :=
  if fld (p.p 4) 0 16 < r.length then failCmd p.slot (malformed 0x11) s
  else k (cmdWrite p.slot (p.p 2) r s)

/-- The verifier of an ATTEST. -/
def Packet.verifier (p : Packet) : Nat := fld (p.p 0) 0 3

/-- Whether OPFLAGS give an ATTEST mode. -/
def attestMode (k : Nat) (f : Nat) : Bool := fld f 0 3 = k

/-- The read of an ATTEST's nonce. -/
def nonceRead (p : Packet) : List (Nat × Nat) := [(p.p 1, 32)]

/-! ### PLAIN and PROV_KEY -/

/-- What ATTEST in mode PLAIN does. -/
def plainCmd (p : Packet) (s : State) : State :=
  if (attestSecret s p.verifier).isNone then failCmd p.slot noSlot s
  else
    let r := report s p.verifier 0 (cmdData s p 0) []
    putReport p r (endCmd p.slot (okRes r.length) 0) s

/-- ATTEST in mode PLAIN (R374). -/
def execAttestPlain (slot : SlotId) (s : State) : Out := .next (runCmd slot.val 0x31 (attestMode 0) nonceRead plainCmd s)

/-- What ATTEST in mode PROV_KEY does: the report carries the provisioning encapsulation key (R368). -/
def provCmd (p : Packet) (s : State) : State :=
  let r := report s p.verifier 3 (cmdData s p 0) (provPair s).1
  putReport p r (endCmd p.slot (okRes r.length) 0) s

/-- ATTEST in mode PROV_KEY (R368, R374). -/
def execAttestProvKey (slot : SlotId) (s : State) : Out := .next (runCmd slot.val 0x31 (attestMode 3) nonceRead provCmd s)

/-! ### OFFER (R371) -/

/-- The base point of Curve25519. -/
def x25519Base : List Byte := natLe 32 9

/-- What an ephemeral seed expands to: the X25519 private key and the two inputs of ML-KEM key generation (R364, R371). -/
def offerKeys (seed : List Byte) : List Byte × List Byte × List Byte :=
  let k := kdf seed 0x0A (ascii "EPHEMERL") [] 96
  (k.take 32, (k.drop 32).take 32, k.drop 64)

/-- The public values of an ephemeral seed. -/
def offerPublic (seed : List Byte) : List Byte :=
  let k := offerKeys seed
  x25519 k.1 x25519Base ++ (kemGen kem768 k.2.1 k.2.2).1

/-- Puts an ephemeral seed into a free slot as OFFERED, with the digest of its report. -/
def putOffer (i : Nat) (seed digest : List Byte) (s : State) : State :=
  drawn 16 (s.modParent i fun k =>
    { st := .offered, kind := .transport, owner := mi, depth := 1, bits := 2, gen := k.gen, use := k.use, key := seed,
      seed := drawBytes s 16, offer := digest })

/-- What ATTEST in mode OFFER does: the report is written, then the seed takes its slot. -/
def offerCmd (p : Packet) (s : State) : State :=
  if p.stage != 0 then
    if cmdWriting s p.slot then s
    else match takeParent s mi with
      | none => failCmd p.slot slotQuota s
      | some i => endCmd p.slot (okRes p.aux) 0 (recordSlot i (putOffer i (p.keep.take 32) (p.keep.drop 32) s))
  else if (attestSecret s p.verifier).isNone then failCmd p.slot noSlot s
  else if drbgStopped s then failCmd p.slot noEntropy s
  else if (takeParent s mi).isNone then failCmd p.slot slotQuota s
  else
    let seed := drawBytes s 32
    let r := report s p.verifier 1 (cmdData s p 0) (offerPublic seed)
    putReport p r (modPacket p.slot fun x => { x with stage := 1, aux := r.length, keep := seed ++ sha384 r }) (drawn 32 s)

/-- ATTEST in mode OFFER (R371). -/
def execAttestOffer (slot : SlotId) (s : State) : Out := .next (runCmd slot.val 0x31 (attestMode 1) nonceRead offerCmd s)

/-! ### The checks of a peer's report (R373) -/

/-- AUTH_FAIL with MAC. -/
def reportMacBad : Res := res 1 2

/-- Checks 1 to 3 of R373 on a report with `n` public bytes, in a mode, with a nonce. -/
def peerCheck (secret r : List Byte) (mode n : Nat) (nonce : List Byte) : Option Res :=
  if reportMac secret (r.take (256 + n)) != r.drop (256 + n) then some reportMacBad
  else if leAt r 7 1 != mode || bytesAt r 16 32 != nonce then some reportMacBad
  else if leAt r 2 2 != 3 || leAt r 4 1 != 1 || leAt r 5 1 != 0 then some modeBad
  else none

/-- The transport key of two secrets and the digests of both reports (R371). -/
def transportKey (s1 s2 da db : List Byte) : List Byte := kdf (s1 ++ s2) 8 [] (da ++ db) 32

/-- A transport key of MI (R371). -/
def transportSlot (t : List Byte) : KeySlot := { kind := .transport, owner := mi, depth := 1, bits := 2, key := t }

/-! ### RESPOND (R371) -/

/-- The reads of RESPOND: its nonce and the peer's OFFER report. -/
def respondReads (p : Packet) : List (Nat × Nat) := [(p.p 1, 32), (p.p 3, 1504)]

/-- RESPOND once the peer's report has passed checks 1 to 3: check 4, the key and the report. -/
def respondKeys (p : Packet) (ra : List Byte) (s : State) : State :=
  let b := drawBytes s 64
  let peer := bytesAt ra 256 32
  let ek := bytesAt ra 288 1184
  let s1 := x25519 (b.take 32) peer
  let c := kemEncaps kem768 ek (b.drop 32)
  let da := sha384 ra
  if allZero s1 || !kemEkOk kem768 ek then failCmd p.slot publicBad s
  else
    let r := report s p.verifier 2 (da.take 32) (x25519 (b.take 32) x25519Base ++ c.2)
    putReport p r (modPacket p.slot fun x =>
      { x with stage := 1, aux := r.length, keep := transportKey s1 c.1 da (sha384 r) }) (drawn 64 s)

/-- What ATTEST in mode RESPOND does: the report is written, then the transport key takes its slot. -/
def respondCmd (p : Packet) (s : State) : State :=
  if p.stage != 0 then
    if cmdWriting s p.slot then s
    else match takeParent s mi with
      | none => failCmd p.slot slotQuota s
      | some i =>
        let t := recordSlot i (installParent i (transportSlot p.keep) s)
        endCmd p.slot (okRes p.aux) (parentHandle t i) t
  else match attestSecret s p.verifier with
    | none => failCmd p.slot noSlot s
    | some k => match peerCheck k (cmdData s p 1) 1 1216 (cmdData s p 0) with
      | some r => failCmd p.slot r s
      | none =>
        if drbgStopped s then failCmd p.slot noEntropy s
        else if (takeParent s mi).isNone then failCmd p.slot slotQuota s
        else respondKeys p (cmdData s p 1) s

/-- ATTEST in mode RESPOND (R371, R373). -/
def execAttestRespond (slot : SlotId) (s : State) : Out := .next (runCmd slot.val 0x31 (attestMode 2) respondReads respondCmd s)

/-! ### FINISH (R371) -/

/-- The check of the handle that FINISH names: an OFFERED slot of MI. -/
def offerCheck (s : State) (h : Nat) : Option Res :=
  let k := s.parent (hIndex h)
  if h ≥ 2 ^ 31 || hClass h != 1 || hIndex h ≥ 4096 || k.st == .empty || k.owner != mi then some noSlot
  else if hUse h != k.use % 1024 then some (keyInvalid 2)
  else if k.st != .offered then some (keyInvalid 3)
  else none

/-- FINISH fails: the ephemeral seed is zeroised, and with it the OFFERED slot ends (R373, log entry 187). -/
def finishFails (p : Packet) (i : Nat) (r : Res) (s : State) : State := failCmd p.slot r (recordSlot i (freeSlot i s))

/-- FINISH once the peer's report has passed checks 1 to 3: check 4 and the installation in place of the seed. -/
def finishKeys (p : Packet) (i : Nat) (rb : List Byte) (s : State) : State :=
  let k := s.parent i
  let e := offerKeys k.key
  let s1 := x25519 e.1 (bytesAt rb 256 32)
  let s2 := kemDecaps kem768 (kemGen kem768 e.2.1 e.2.2).2 (bytesAt rb 288 1088)
  if allZero s1 then finishFails p i publicBad s
  else
    let t := recordSlot i (installParent i (transportSlot (transportKey s1 s2 k.offer (sha384 rb))) s)
    endCmd p.slot okRes (parentHandle t i) t

/-- What ATTEST in mode FINISH does. -/
def finishCmd (p : Packet) (s : State) : State :=
  let i := hIndex (p.p 1)
  match offerCheck s (p.p 1), attestSecret s p.verifier with
  | some r, _ => failCmd p.slot r s
  | none, none => failCmd p.slot noSlot s
  | none, some k => match peerCheck k (cmdData s p 0) 2 1120 ((s.parent i).offer.take 32) with
    | some r => finishFails p i r s
    | none => finishKeys p i (cmdData s p 0) s

/-- ATTEST in mode FINISH (R371, R373). -/
def execAttestFinish (slot : SlotId) (s : State) : Out :=
  .next (runCmd slot.val 0x31 (attestMode 4) (fun p => [(p.p 3, 1408)]) finishCmd s)

/-! ### Attestation without a ring (R482) -/

/-- The nonce registers as 32 bytes. -/
def nonceBytes (s : State) : List Byte := (List.range 8).flatMap fun k => natLe 4 (tget s.ory.nonce 0 k).toNat

/-- The report's words as the reply FIFO holds them: two bytes and the word's index each. -/
def replyWords (r : List Byte) : List Nat := (List.range (r.length / 2)).map fun i => leAt r (2 * i) 2 + i * 2 ^ 16 + 2 ^ 31

/-- An attestation started by GO: the words of an earlier one go; the outcome stands in STATUS (R362, R374, R482). -/
def attestGo (s : State) : State :=
  let v := s.ory.verifier
  let s0 := s.modOry fun o => { o with reply := [] }
  let bad := s0.modOry fun o => { o with attStatus := 8 }
  if !orreryUp s then s0
  else if !hasRoot s then bad
  else if s.ory.attProv then
    s0.modOry fun o => { o with attStatus := 0, reply := replyWords (report s v 3 (nonceBytes s) (provPair s).1) }
  else if (attestSecret s v).isNone then bad
  else s0.modOry fun o => { o with attStatus := 0, reply := replyWords (report s v 0 (nonceBytes s) []) }

/-- A write of ORY_ATTEST_CTL. -/
def attestCtl (v : Nat) (s : State) : State :=
  let s1 := s.modOry fun o => { o with verifier := fld v 0 3, attProv := bit v 3 }
  if bit v 4 then attestGo s1 else s1

/-- A register write through the I3C target, which a halted block refuses (R444); it carries no Integrity Code (R70). -/
def i3cTake (f : State → State) (s : State) : State :=
  if !powered s then s else if s.modes.halted then portFault (2 ^ 25) s else f s

/-- A register write at an address through a path. -/
def pathDo (path : Path) (addr : Nat) (v : RapWord) (f : State → State) (s : State) : State :=
  match path with
  | .rap => rapDo addr v f s
  | .i3c => i3cTake f s

/-- ORY_ATTEST_GO (R482): a write of ORY_ATTEST_CTL with GO. -/
def execOryAttestGo (path : Path) (v : RapWord) (s : State) : Out :=
  .next (pathDo path 0x50C v (fun s => if bit v.toNat 4 then attestCtl v.toNat s else s) s)

end Sys2Proof.Machine
end

