-- ==== Sys2Proof/Machine/Delivery.lean ====
section
/-! DEFINITION. What follows an operation's computation: segment boundaries (R200 to R204), the combiner of a Comet job (R207 to R209),
the completion with its receive-state update, scrub and statistics (R121, R148, R186, R193, R196), and the commitment of
frames (R31, R388 to R390). -/

namespace Sys2Proof.Machine

/-! ### What frees an operation -/

/-- Zeroises the key slots of a context that waited for its last operation (R267, R375). -/
def lastUser (e : Nat) (s : State) : State :=
  if (s.ctxAt e).zeroAt && !entryInUse s e then zeroCtxKeys e (s.modCtx e fun c => { c with zeroAt := false }) else s

/-- Abandons an operation of an instance in reset: its reads, frames and tag go, and its saved state, combiner and reservation with them
(R428). -/
def abandonJob (t : State) (j : Job) : State :=
  let t1 := dropEgress j.tag (dropReads j (t.dropJob j.tag))
  let t2 := match j.src with
    | .stream p id => dropIngress p id t1
    | .ring _ _ => t1
  clearWaiting (match j.ctxEnt with
    | some e => lastUser e t2
    | none => t2)

/-! ### Turns (R202, R305) -/

/-- Whether two operations come from one ring, or from one instance's frames on one port. -/
def sameSource (j k : Job) : Bool :=
  match j.src, k.src with
  | .ring a _, .ring b _ => a == b
  | .stream p _, .stream q _ => p == q && j.inst == k.inst
  | _, _ => false

/-- Whether the dispatcher places its next lane work on logical Forge `l`. -/
def nextOn (s : State) (l : Nat) : Bool := (pickLane s).forge? == some l

/-- Whether ring `n`'s next entry is work of a scheduler and may be admitted. -/
def ringTurn (s : State) (c : Sched) (n : Nat) : Bool :=
  match (s.ring n).cache.head?, ringOwner s n with
  | some e, some i => schedOf (hOpc e.hdr) == c && ringReady s n e i
  | _, _ => false

/-- Whether the dispatcher has a token for a lane from another ring whose turn has come: an operation queued on it, one saved in its Forge,
or one that would be placed there next (R202). -/
def otherTurn (s : State) (j : Job) (p : Place) : Bool :=
  (s.jobs.any fun k => k.tag != j.tag && !sameSource j k
      && ((k.place == p && k.comet.isNone && k.phase == .reading && k.res.isNone && readsDone s k)
        || (turnReady s k && k.runs.any fun r => r.saved && r.place.forge? == p.forge?)))
    || ((p.forge?.map (nextOn s)).getD false
      && ((tkeys s.rings).any fun n => !j.ofRing n && ringTurn s .lane n)
        || [0, 1].any fun q => (tkeys s.insts).any fun i =>
          !j.ofPort q i && admitOn s i && creditOk s i .lane && (nextFrame s q i).isSome)

/-- Whether another ring's digest work has its turn for a pipe (R305). -/
def otherDigest (s : State) (j : Job) (p : Nat) : Bool :=
  (s.jobs.any fun k => k.tag != j.tag && !sameSource j k && isDigestOp k.opc
      && ((k.place == .pipe p && k.phase == .reading && k.res.isNone && readsDone s k) || (k.saved && turnReady s k)))
    || ((tkeys s.rings).any fun n => !j.ofRing n && ringTurn s .digest n)

/-! ### SEGMENT_BOUNDARY (R200 to R204, R211, R223, R305) -/

/-- Output bytes that are released when the input stream is passed up to byte `p`: XTS keeps its last block back, which a short one after
it may change (R175). -/
def Job.releaseAt (j : Job) (p : Nat) : Nat := j.sc.outAt p - (if j.kind = 5 then 16 else 0)

/-- A lane passes a segment of a text or frame that is not its last (R201). -/
def passText (j : Job) (s : State) : State :=
  let p := 4096 * (j.segDone + 1)
  let e := j.sc.pass (j.sc.alg.mult j.textKey j.sc.nonce) (j.sc.textAt p) j.eng
  let dst := j.releaseAt p
  jobEmit j.tag j.eng.dst (dst - j.eng.dst) (s.modJob j.tag fun x =>
    { x with eng := { e with src := p, dst := dst, chain := if j.kind = 4 || j.kind / 2 = 0xA then j.sc.lastBlock p else [] },
             segDone := j.segDone + 1, handed := true })

/-- A pipe passes a segment of a digest job: of its message, or of the output of SHAKE (R305). -/
def passDigest (j : Job) (s : State) : State :=
  let a := dgAlg j.body
  let r := dgBlock a
  let n := dgLen j.body
  let squeezes := if algIsShake a then ceilDiv n (roundUp 4096 r) else 0
  if j.segDone + 1 + squeezes < j.segs then
    let stop := digestStop r (j.segDone + 1)
    s.modJob j.tag fun x => { x with eng := { j.sc.pass 0 stop j.eng with src := stop }, segDone := j.segDone + 1, handed := true }
  else if j.segDone + 1 + squeezes = j.segs && squeezes != 0 then
    s.modJob j.tag fun x =>
      { x with eng := { j.eng with words := j.sc.spongeEnd r 0x1F j.eng, pos := j.sc.text.length, src := j.sc.text.length },
               segDone := j.segDone + 1, handed := true }
  else if squeezes = 0 then endDigest j s
  else
    let k := min (roundUp 4096 r) (n - j.eng.dst)
    let q := squeezeOn r k j.eng.words
    let out := j.out.take j.eng.dst ++ q.1
    if j.segDone + 1 ≥ j.segs then closeJob j out n [] (res 0 0 n) s
    else jobEmit j.tag j.eng.dst k (s.modJob j.tag fun x =>
      { x with out := out, eng := { j.eng with words := q.2, dst := j.eng.dst + k }, segDone := j.segDone + 1, handed := true })

/-- The output extent of segment `g` of a Comet job's chunk `k`, the AAD's copy going ahead of the first: where it starts, and its length. -/
def cometSlice (j : Job) (k g : Nat) : Nat × Nat :=
  let n := (j.sc.chunkSeg k g).length
  if k = 0 && g = 0 then (0, j.sc.lead + n) else (j.sc.lead + 16384 * k + 4096 * g, n)

/-- The lane of stripe `i` passes a segment of its chunk (R207, R209). -/
def passStripe (i : Nat) (j : Job) (c : Comet) (s : State) : State :=
  match c.stripes[i]? with
  | none => s
  | some x =>
    let y := j.sc.stripeStep (j.sc.alg.mult j.keyA j.sc.nonce) c.hL c.lanes x.pos
    let z := cometSlice j x.pos.chunk x.pos.seg
    let done := y.1.chunk ≥ cometChunks (symText j.body)
    jobEmit j.tag z.1 z.2 (s.modJob j.tag fun v =>
      { v with comet := some { c with
          stripes := c.stripes.modify i fun w => { w with pos := y.1, handed := !done, fin := done },
          tail := if y.2.isSome then y.2 else c.tail } })

/-- Whether stripe `i` stands at a boundary: its lane runs, and is free for it where it has not begun; one that is saved does where the
job is to stop. -/
def stripeReady (s : State) (j : Job) (c : Comet) (i : Nat) : Bool :=
  match c.stripes[i]? with
  | none => false
  | some x => !x.fin && (j.stop.isSome || voided s j.inst
      || (!x.saved && (x.place.forge?.map (logicalRuns s)).getD false && (x.pos != { chunk := i } || laneFree s j.tag false x.place)))

/-- Whether an operation that has begun goes on where it stands: its lane runs, or its pipe is in service. -/
def engineUp (s : State) (j : Job) : Bool :=
  match j.place with
  | .lane l _ => logicalRuns s l && (!j.etm || j.pipe.isSome)
  | .pipe p => s.dig.pipeUp.toNat.testBit p
  | _ => false

/-- Whether an operation, or its stripe `i`, stands at a segment boundary; one that is saved does where it is to stop. -/
def atBoundary (s : State) (i : Nat) (j : Job) : Bool :=
  working s && j.phase == .computed && j.res.isNone
    && (match j.comet with
      | some c => stripeReady s j c i
      | none => j.mid && (if j.saved then j.stop.isSome else engineUp s j))

/-- The Forge that a state restored for a segment belongs to. -/
def Job.boundaryForge (j : Job) (i : Nat) : Option Nat :=
  match j.comet with
  | some c => (c.stripes[i]?).bind fun x => x.place.forge?
  | none => j.onForge

/-- Whether a segment at whose end an operation stands has writes that the HMP has not accepted yet (R223). -/
def unaccepted (s : State) (j : Job) : Bool :=
  !j.outQ.isEmpty || dstPageRead s j || s.mem.waiting.any fun a => a.own == .jobWr j.tag

/-- Whether the next segment waits for the last one's writes. -/
def Job.waitsWrites (j : Job) (i : Nat) : Bool :=
  match j.comet with
  | some c => ((c.stripes[i]?).map Stripe.handed).getD false
  | none => j.handed

/-- A segment passes, or the job stops at its boundary as its ring, the detach or the reset asks (R204, R428). -/
def boundary (i : Nat) (j : Job) (s : State) : State :=
  if voided s j.inst then abandonJob s j
  else match j.stop with
  | some r => if j.comet.isSome || j.saved || j.segDone + 1 < j.segs then endJob j.tag r s else boundaryPass s
  | none => boundaryPass s
where
  /-- The segment passes. -/
  boundaryPass (s : State) : State :=
    if j.waitsWrites i then s
    else match j.comet with
    | some c => passStripe i j c s
    | none =>
      if isDigestOp j.opc then passDigest j s
      else if j.segDone + 1 ≥ j.segs then endText j s
      else passText j s

/-- Saves stripe `i` of a Comet job, where another ring's turn has come and a slot is free (R202, R211). -/
def yieldStripe (i : Nat) (j : Job) (c : Comet) (s : State) : State :=
  match (c.stripes[i]?).bind fun x => (x.place.forge?.bind (freeSave s)).map fun k => (x.place, k) with
  | some (p, k) =>
    if otherTurn s j p then
      s.modJob j.tag fun v => { v with comet := some { c with stripes := c.stripes.modify i fun x => { x with saved := true, slotIx := k } } }
    else s
  | none => s

/-- An operation saved in slot `k`, without its keys (R201, R306). -/
def Job.save (j : Job) (k : Nat) : Job := { j with saved := true, slotIx := k, keyA := [], keyB := [] }

/-- Saves an operation's state in a slot, where another ring's turn has come and a slot is free: of its Forge (R201, R202), of the digest
complex (R305), where a pipe yields to a reservation too (R313); an encrypt-then-MAC frame takes both and leaves its pipe (R315). -/
def yieldJob (j : Job) (s : State) : State :=
  match j.place with
  | .pipe p =>
    (match freeDigestSave s with
      | some k => if otherDigest s j p || reservationWaits s p then s.modJob j.tag fun x => { x.save k with back := (x.segDone, x.eng) } else s
      | none => s)
  | .lane l k =>
    if !otherTurn s j (.lane l k) then s
    else match freeSave s l, freeDigestSave s with
      | some a, some d => s.modJob j.tag fun x => if j.etm then { x.save a with dslot := some d, pipe := none } else x.save a
      | some a, none => if j.etm then s else s.modJob j.tag fun x => x.save a
      | none, _ => s
  | _ => s

/-- Commits what an engine has saved, once the HMP has accepted every write of its segment, and yields it where it must (R223). -/
def commitSegment (tag i : Nat) (s : State) : State :=
  match s.job? tag with
  | none => s
  | some j =>
    if unaccepted s j || !j.waitsWrites i then s
    else match j.comet with
    | some c =>
      let c1 := { c with stripes := c.stripes.modify i fun x => { x with back := x.pos, handed := false } }
      yieldStripe i { j with comet := some c1 } c1 (s.modJob tag fun x => { x with comet := some c1 })
    | none =>
      yieldJob j (s.modJob tag fun x => { x with handed := false, back := if isDigestOp j.opc then x.back else (x.segDone, x.eng) })

/-- SEGMENT_BOUNDARY (R202): the lane of an operation, or of its stripe, or its pipe, reaches the end of a segment; a state restored for
the segment that failed its check is a fault of the Forge. -/
def execSegmentBoundary (tag : Tag) (e : SegEnd) (s : State) : Out :=
  .next (match (s.job? tag.val).filter (atBoundary s e.stripe.val) with
    | none => s
    | some j =>
      if !e.stateOk then
        match j.boundaryForge e.stripe.val with
        | some l => conclude (forgeFault (s.phys l) 4 none s)
        | none => s
      else placeWork (commitSegment tag.val e.stripe.val (conclude (boundary e.stripe.val j s))))

/-! ### COMET_COMBINE (R208, R209) -/

/-- Whether every stripe of a Comet job has finished and its combiner's Forge runs. -/
def stripesReady (s : State) (j : Job) : Bool :=
  working s && j.phase == .computed && j.res.isNone
    && (j.comet.map fun c => !c.combined && c.stripes.all Stripe.fin && logicalRuns s c.holder).getD false

/-- The combiner's tag (R209). -/
def cometTag (j : Job) (c : Comet) : List Byte :=
  let acc := fun (l : Nat) => ((c.stripes[l]?).map fun x => x.pos.acc).getD 0
  (gcmEnd j.keyA j.sc.nonce (j.sc.combined (j.sc.alg.mult j.keyA j.sc.nonce) c.h1024 c.lanes (c.tail.getD 0) acc)).take j.sc.want

/-- The combiner's result: the tag is compared (R195), or written, and the operation has its outcome. -/
def combine (j : Job) (c : Comet) (s : State) : State :=
  let tag := cometTag j c
  let n := j.out.length
  let k := { j with comet := some { c with combined := true }, eng := { j.eng with dst := n } }
  let s1 := s.modJob j.tag fun _ => k
  if decrypts j.opc then closeJob k j.out n [] (if tag == j.sc.given then res 0 0 n else tagFail) s1
  else if fTagSep j.flags then closeJob k j.out n (if tag.isEmpty then [] else [(symTagAddr j.body, tag)]) (res 0 0 n) s1
  else closeJob k (j.out ++ tag) (n + tag.length) [] (res 0 0 (n + tag.length)) s1

/-- COMET_COMBINE (R209): `checkOk` is false where the combiner fails its check, a fault of the Forge that holds it. -/
def execCometCombine (tag : Tag) (checkOk : Bool) (s : State) : Out :=
  .next (match (s.job? tag.val).filter (stripesReady s) with
    | none => s
    | some j =>
      match j.comet with
      | none => s
      | some c => conclude (if checkOk then combine j c s else forgeFault (s.phys c.holder) 3 none s))

/-! ### JOB_COMPLETE (R121, R148, R186, R193, R196) -/

/-- Whether all of an operation's output has been handed on. -/
def outputDone (s : State) (j : Job) : Bool :=
  j.segDone ≥ j.segs && j.outQ.isEmpty && !dstPageRead s j && (j.comet.map fun c => c.combined).getD true

/-- Whether a computed operation may complete: its output is written and every write answered. -/
def completes (s : State) (j : Job) : Bool :=
  working s && j.phase == .computed && !j.saved && j.res.isSome && outputDone s j && !jobWritesOut s j.tag

/-- The outcome of a received frame at step 7 of R183 and R193, and whether the receive state is updated: an OK frame, and an ESP
frame whose padding fails after its ICV was verified. -/
def rxFinal (s : State) (j : Job) (r : Res) : Res × Bool :=
  let c := jobCtx s j
  if !j.verified || !(r.status = 0 || r == espRes) then (r, false)
  else
    match c.replayCheck j.keySlot j.pn with
    | some x => (x, false)
    | none =>
      match j.egress with
      | some e => if r.status = 0 && oversize s e.1 e.2.1 j.out.length then (windowOversize, false) else (r, true)
      | none => (r, true)

/-- Hands a ring operation's outcome to the reorder buffer and frees its tag. -/
def handBack (j : Job) (r : Res) (s : State) : State :=
  let s1 := s.dropJob j.tag
  match j.src with
  | .ring n slot => (finishItem n slot r 0 j.iv s1).modRing n fun g =>
      { g with rob := g.rob.map fun it => if it.ent.slot = slot then { it with ext := j.zeroExt } else it }
  | .stream _ _ => s1

/-- Completes an operation. -/
def completeJob (j : Job) (r0 : Res) (s : State) : State :=
  let p := rxFinal s j r0
  let r := if p.1.status = 0 then p.1 else { p.1 with result := 0 }
  let s1 := match j.ctxEnt with
    | some e => if p.2 then s.modCtx e fun c => c.rxUpdate j.keySlot j.pn else s
    | none => s
  let s2 := countOutcome j (r.status = 0) s1
  let s3 := if scrubs j.opc r then scrubExt j.inst j.written s2 else s2
  let s4 := dropReads j s3
  let s5 := match j.src with
    | .stream p id => relatch p (dropIngress p id s4)
    | .ring _ _ => s4
  let s6 := s5.modJob j.tag fun x =>
    { x with phase := .finished, res := some r, ctxEnt := none, reads := [], place := .none, comet := none, pipe := none, dslot := none }
  let s7 := match j.ctxEnt with
    | some e => lastUser e s6
    | none => s6
  let s8 := if j.egress.isSome then s7 else handBack j r s7
  placeWork (resumeHeld (clearWaiting s8))

/-- JOB_COMPLETE (R121). -/
def execJobComplete (tag : Tag) (s : State) : Out :=
  .next (match (s.job? tag.val).filter (completes s) with
    | none => s
    | some j => conclude (if voided s j.inst then placeWork (resumeHeld (abandonJob s j)) else completeJob j (j.res.getD {}) s))

/-! ### FRAME_COMMIT (R31, R388 to R390) -/

/-- Commits an operation's frame: its length word is filled and its unused cells are returned (R379, R388, R389). -/
def commitFrame (j : Job) (p cls : Nat) (s : State) : State :=
  let bytes := lengthWord j.out.length j.colour false false (res 0 0) j.handle ++ j.out
  let held := !s.port.clkOk.toNat.testBit (2 + p)
  let s1 := s.modSp p fun x =>
    { x with eg := x.eg.map fun f =>
        if f.tag == some j.tag then
          { f with tag := none, bytes := bytes, cells := cellsOf bytes.length, committed := true, held := held,
                   prio := if cls = 7 && f.desc then ctrlPrio x j.out else f.prio }
        else f }
  relatch p (if held then classCount p 9 cls s1 else s1)

/-- Ends an operation whose frame is committed or removed. -/
def frameEnd (j : Job) (p cls : Nat) (r : Res) (s : State) : State :=
  match j.src with
  | .stream _ _ => frameOutcome p cls j.inst j.handle j.colour r (s.dropJob j.tag)
  | .ring _ _ => handBack j r (if r.status = 0x14 then classCount p 8 cls s else s)

/-- FRAME_COMMIT (R389): the frame of a finished operation is committed; one that failed, or that a new gate list has made oversize
(R403), is removed. -/
def execFrameCommit (tag : Tag) (s : State) : Out :=
  .next (match (s.job? tag.val).filter fun j => working s && j.phase == .finished with
    | none => s
    | some j =>
      match j.egress with
      | none => s
      | some (p, cls, _) =>
        let r0 := j.res.getD {}
        let r := if r0.status = 0 && oversize s p cls j.out.length then windowOversize else r0
        conclude (if r.status = 0 then frameEnd j p cls r (commitFrame j p cls s)
          else frameEnd j p cls r (relatch p (dropEgress j.tag s))))

end Sys2Proof.Machine
end

