-- ==== Sys2Proof/Machine/InstOps.lean ====
section
/-! DEFINITION. What the instance commands share: the instance descriptor (R465) with its ranges (R406), the resources it sets, and
the reset, re-enable and stop of an instance (R427 to R430). -/

namespace Sys2Proof.Machine

/-! ### The instance descriptor (R465) -/

/-- Reserved fields of the descriptor: first bit and width. -/
def descReserved : List (Nat × Nat) :=
  [(43, 21), (87, 1), (105, 23), (147, 13), (172, 20), (227, 5), (237, 19), (271, 17), (301, 19), (338, 46), (424, 24), (488, 24),
   (554, 22), (1600, 448)]
    ++ ((List.range 8).map fun v => [(576 + 128 * v, 2), (576 + 128 * v + 52, 12), (576 + 128 * v + 96, 32)]).flatten

/-- Whether a reserved field is not zero; XL_ROOT is reserved with IDENTITY. -/
def descReservedSet (d : Nat) : Bool :=
  (descReserved.any fun x => fld d x.1 x.2 != 0) || (!bit d 270 && fld d 384 40 != 0)

/-- The groups that a descriptor applies: all of them for INST_CREATE. -/
def descGroups (create : Bool) (d : Nat) : Nat → Bool := fun g => create || bit d (32 + g)

/-- Whether a range of submission rings meets another instance's. -/
def sqOverlap (s : State) (n first count : Nat) : Bool :=
  s.insts.any fun p => p.1 != n && p.2.st != .unused && first < p.2.sqFirst + p.2.sqCount && p.2.sqFirst < first + count

/-- Whether a range of notification rings meets another instance's. -/
def nqOverlap (s : State) (n first count : Nat) : Bool :=
  s.insts.any fun p => p.1 != n && p.2.st != .unused && first < p.2.nqFirst + p.2.nqCount && p.2.nqFirst < first + count

/-- The ranges of R406 on the groups that apply. -/
def descRangeOk (s : State) (n d : Nat) (g : Nat → Bool) : Bool :=
  let f := fun (lo w : Nat) => fld d lo w
  (!g 0 || (1 ≤ f 76 11 && f 76 11 ≤ 1024 && f 64 12 + f 76 11 ≤ 4096 && !sqOverlap s n (f 64 12) (f 76 11)))
    && (!g 1 || (f 96 9 ≤ 256 && f 88 8 + f 96 9 ≤ 256 && !nqOverlap s n (f 88 8) (f 96 9)))
    && (!g 2 || f 128 19 ≤ 262144)
    && (!g 3 || f 160 12 ≤ 3967)
    && (!g 4 || (64 ≤ f 192 16 && f 192 16 ≤ 32768))
    && (!g 5 || (1 ≤ f 208 8 && f 208 8 ≤ f 216 11 && f 216 11 ≤ 1024))
    && (!g 6 || f 232 5 = 0 || (2 ≤ f 232 5 && f 232 5 ≤ 16))
    && (!g 7 || (f 256 14 ≤ 8192 && f 256 14 % 64 = 0))
    && (!g 8 || (1 ≤ f 288 13 && f 288 13 ≤ 4096))
    && (!g 10 || !(n = mi && bit d 552))

/-- Whether the IOTLB shares would exceed the IOTLB. -/
def iotlbOver (s : State) (n share : Nat) : Bool :=
  ((s.insts.filter fun p => p.1 != n && p.2.st != .unused).map fun p => p.2.iotlb).sum + share > 8192

/-- QUOTA of the IOTLB. -/
def iotlbQuota : Res := res 0x22 4

/-- Vectors of a descriptor. -/
def descVecs (d : Nat) : Tbl (Nat × Word) :=
  (List.range 8).foldl (fun t v => tset t (0, 0) v (fld d (576 + 128 * v) 52, word (fld d (576 + 128 * v + 64) 32))) []

/-- The resources of the groups that apply, on an instance. -/
def applyDesc (d : Nat) (g : Nat → Bool) (v : Inst) : Inst :=
  let f := fun (lo w : Nat) => fld d lo w
  let v0 := if g 0 then { v with sqFirst := f 64 12, sqCount := f 76 11 } else v
  let v1 := if g 1 then { v0 with nqFirst := f 88 8, nqCount := f 96 9 } else v0
  let v2 := if g 2 then { v1 with ctxQuota := f 128 19 } else v1
  let v3 := if g 3 then { v2 with slotQuota := f 160 12 } else v2
  let v4 := if g 4 then { v3 with tagQuota := f 192 16 } else v3
  let v5 := if g 5 then { v4 with newWeight := f 208 8, newBurst := f 216 11 } else v4
  let v6 := if g 6 then { v5 with comet := f 232 5 } else v5
  let v7 := if g 7 then { v6 with iotlb := f 256 14 } else v6
  let v8 := if g 8 then
    { v7 with translate := bit d 270, winGib := f 288 13, winBase := f 320 18 * 2 ^ 30, xlRoot := f 384 40 * 4096 } else v7
  let v9 := if g 9 then { v8 with vecs := descVecs d } else v8
  if !g 10 then v9
  else if bit d 552 then
    { v9 with dlA := f 448 40 * 4096, dlB := f 512 40 * 4096, dlEn := true, dlActive := bit d 553, dlSet := [], dlFault := false }
  else { v9 with dlA := f 448 40 * 4096, dlB := f 512 40 * 4096, dlEn := false }

/-- Advances the address-space generation of an instance; when it wraps, its translations go (R416). -/
def bumpAsgen (n : Nat) (s : State) : State :=
  let g := ((s.inst n).asgen + 1) % 2 ^ 16
  let s1 := s.modInst n fun v => { v with asgen := g }
  if g = 0 then s1.modMem fun m => { m with tlb := m.tlb.filter fun e => e.inst != n } else s1

/-- Removes the translations of an instance beyond its share, the least recently used first. -/
def trimTlb (n : Nat) (s : State) : State :=
  s.modMem fun m =>
    let mine := m.tlb.filter fun x => x.inst == n
    { m with tlb := (m.tlb.filter fun x => x.inst != n) ++ mine.drop (mine.length - (s.inst n).iotlb) }

/-- Sets the resources of an instance, with what follows from a new root or mode and a new IOTLB share (R406). -/
def setResources (n d : Nat) (g : Nat → Bool) (s : State) : State :=
  let old := s.inst n
  let s1 := trimTlb n (s.modInst n (applyDesc d g))
  let new := s1.inst n
  if g 8 && (new.xlRoot != old.xlRoot || new.translate != old.translate) then bumpAsgen n s1 else s1

/-! ### Rings of an instance -/

/-- Submission rings of an instance that the block holds any state of. -/
def instRings (s : State) (n : Nat) : List Nat :=
  let v := s.inst n
  (tkeys s.rings).filter fun r => v.sqFirst ≤ r && r < v.sqFirst + v.sqCount

/-- Notification rings of an instance that the block holds any state of. -/
def instNrs (s : State) (n : Nat) : List Nat :=
  let v := s.inst n
  (tkeys s.notifs).filter fun k => v.nqFirst ≤ k && k < v.nqFirst + v.nqCount

/-- Whether a new ring range removes a ring that is not DISABLED. -/
def rangeHeld (s : State) (n d : Nat) (g : Nat → Bool) : Bool :=
  let out := fun (first count r : Nat) => !(first ≤ r && r < first + count)
  (g 0 && (instRings s n).any fun r => out (fld d 64 12) (fld d 76 11) r && (s.ring r).st != .disabled)
    || (g 1 && (instNrs s n).any fun k => out (fld d 88 8) (fld d 96 9) k && (s.nr k).enabled)
    || (g 0 && n = mi && out (fld d 64 12) (fld d 76 11) s.ory.ctrlRing)

/-! ### Reset (R428) -/

/-- Output extents of decrypting entries that were admitted and have not retired, by header slot (R429). -/
def ringExtents (s : State) (n : Nat) : List (Nat × List (Nat × Nat)) :=
  ((s.ring n).rob.map fun it =>
    let o := hOpc it.ent.hdr
    let job := s.jobs.find? fun j => j.src == .ring n it.ent.slot
    let direct := namedExt o (hFlags it.ent.hdr) it.ent.body (srcBufOf o it.ent.body) (dstBufOf o it.ent.body)
    (it.ent.slot, match job with
      | some j => j.zeroExt
      | none => if it.ext.isEmpty then direct else it.ext)).filter fun x => !x.2.isEmpty

/-- A ring at the reset point: scanning stops, and what it had taken goes; its configuration, position and state stay. -/
def resetRing (n : Nat) (s : State) : State :=
  let s1 := abandonScan n s
  s1.modRing n fun r =>
    { r with cache := [], chain := [], rob := [], drain := false, bell := false, invBell := false, noScan := false, invDone := true,
             zero := if r.st == .enabled then ringExtents s n ++ r.zero else [] }

/-- A notification ring at the reset point: the records not written go back to their rings. -/
def resetNr (k : Nat) (s : State) : State :=
  let s1 := match (s.nr k).rdId with
    | some id => dropBuf id s
    | none => s
  (unwriteRecs k s1).modNr k fun x => { x with rdId := none, retry := false }

/-- Whether an operation goes on to its end or its next segment boundary when its instance is reset: what lanes and pipes work on. The
jobs of Anvil units, held and saved operations, and those whose engine has finished are abandoned at once (steps 3 and 4 of R428). -/
def runsOut (j : Job) : Bool :=
  !isAnvil j.opc && !j.saved && j.res.isNone && (j.phase == .reading || j.phase == .computed)

/-- Discards the instance's stored ingress frames and its committed egress frames that have not started, on a port. -/
def resetPort (n : Nat) (s : State) (p : Nat) : State :=
  let ids := ((s.sp p).ing.filter fun f => f.f.inst.val = n).map fun f => f.id
  let s1 := s.modSp p fun x =>
    { x with ing := x.ing.filter fun f => f.f.inst.val != n, eg := x.eg.filter fun f => f.inst != n || f.started || !f.committed }
  let lk := s1.sit.lookups.filter fun l => l.port = p && ids.contains l.frame
  let s2 := s1.modMem fun m => { m with bufs := m.bufs.filter fun b => !(lk.any fun l => b.own == .sit l.id) }
  relatch p (s2.modSit fun x => { x with lookups := x.lookups.filter fun l => !(l.port = p && ids.contains l.frame) })

/-- Whether a read buffer serves an operation. -/
def jobBuf (s : State) (id : Nat) : Bool :=
  match (s.buf? id).map RdBuf.own with
  | some (.job _ _) => true
  | _ => false

/-- Whether an access of an instance that has not been issued goes with a reset: not one that was issued on an HMP that failed, nor
an atomic OR that records a write made, nor a read for work that lanes and pipes go on with. -/
def resetDrops (s : State) (n : Nat) (a : Access) : Bool :=
  a.inst = n && a.pa.isNone && (match a.own with
    | .dirty _ => false
    | .vaultWr _ => false
    | .cmdWr _ => false
    | .rd id _ => !jobBuf s id
    | _ => a.op != .read)

/-- The reset point and what the block does with the instance's work (steps 1 to 5 of R428). -/
def startReset (n : Nat) (s : State) : State :=
  let s1 := bumpAsgen n (s.modInst n fun v =>
    if v.st == .pendingEnable then { v with pendBase := .resetting, gen := (v.gen + 1) % 2 ^ 16 }
    else { v with st := .resetting, gen := (v.gen + 1) % 2 ^ 16 })
  let s2 := (instRings s1 n).foldl (fun t r => resetRing r t) s1
  let s3 := (instNrs s2 n).foldl (fun t k => resetNr k t) s2
  let s4 := (s3.jobs.filter fun j => j.inst = n && !runsOut j).foldl abandonJob s3
  let s5 := resetPort n (resetPort n s4 0) 1
  let s6 := s5.modMem fun m =>
    { m with waiting := m.waiting.filter fun a => !resetDrops s5 n a,
             bufs := m.bufs.filter fun b => b.own != .flt n && b.own != .sitEvt n }
  let s7 := s6.modInst n fun v =>
    { v with fltRecs := [], fltRd := none, fltWr := none, sit := { v.sit with events := [], rdId := none, wr := none } }
  s7.modVault fun v => { v with misses := v.misses.filter fun m =>
    m.2 != n || s7.ory.packets.any fun p => p.waits && p.res.isNone && p.ctx = m.1 && p.aux = n }

/-- Whether an instance has no work left and nothing of it is outstanding or waits to be issued (steps 4 to 7 of R428). -/
def instQuiet (s : State) (n : Nat) : Bool :=
  !(s.jobs.any fun j => j.inst = n) && !(s.mem.hmp0.out.any (ofInst n)) && !(s.mem.hmp1.out.any (ofInst n)) && !(s.mem.waiting.any fun a => a.inst = n)

/-! ### Enable and stop (R427, R429, R430) -/

/-- The re-enable of a ring that was ENABLED at the reset point: from its done-head on, every owned entry completes as
ABORTED_RESET (R429). -/
def reenableRing (n : Nat) (s : State) : State :=
  drainRing n 0x20 (s.modRing n fun r => { r with scan := r.doneHead, lap := r.dhLap, scanSt := .idle, chain := [], reading := none })

/-- Enables an instance that is DISABLED (R427, R429). -/
def enableInst (n : Nat) (s : State) : State :=
  let held := (s.inst n).resetHeld
  let s1 := s.modInst n fun v => { v with st := .enabled, resetHeld := false, pendBase := .unused }
  if held then (instRings s1 n).foldl (fun t r => if (t.ring r).st == .enabled then reenableRing r t else t) s1 else s1

/-- A shut-down of an instance is complete: DISABLED, or the pending enable is applied; a sequence command that stopped or reset
it completes. -/
def shutDone (n : Nat) (reset : Bool) (s : State) : State :=
  let pend := (s.inst n).st == .pendingEnable
  let k := (s.inst n).cmd
  let s1 := s.modInst n fun v => { v with st := .disabled, pendBase := .unused, cmd := none, resetHeld := v.resetHeld || reset }
  if pend then enableInst n s1
  else match k with
    | some slot => packetDone slot okRes s1
    | none => s1

/-- Records which command runs the instance's sequence; from here on hardware carries it to its end (R464). -/
def ownSequence (n slot : Nat) (s : State) : State :=
  modPacket slot (fun p => { p with stage := 1, committed := true, waits := true }) (s.modInst n fun v => { v with cmd := some slot })

/-- The stop of an instance starts: its ENABLED rings, its SA Index Table and its policers (R427). -/
def startStop (n : Nat) (s : State) : State :=
  let s1 := s.modInst n fun v => { v with st := .stopping }
  let s2 := (instRings s1 n).foldl (fun t r => stopRing r t) s1
  let off : Policer → Policer := polEn (now s) false
  if n < 128 then ((sitEn n false s2).modPol n 0 off).modPol n 1 off else s2

/-- The quiescence of an instance starts (R430). -/
def startQuiet (n : Nat) (s : State) : State :=
  let s1 := s.modInst n fun v => { v with st := .eclipse }
  let s2 := (instRings s1 n).foldl (fun t r => if (t.ring r).st == .enabled then uncacheFrom r (fun _ => true) (abandonScan r t) else t) s1
  { s2 with jobs := s2.jobs.map fun j => if j.inst = n && j.stop.isNone then { j with stop := some (res 0x24 0) } else j }

/-- The instance whose sequence a slot's command runs, in a state that a test accepts. -/
def sequenceInst (s : State) (slot : Nat) (ok : Inst → Bool) : Option Nat :=
  (s.insts.find? fun p => p.2.cmd = some slot && ok p.2).map Prod.fst

end Sys2Proof.Machine
end

