-- ==== Sys2Proof/Machine/InstCmds.lean ====
section
/-! DEFINITION. The instance commands (R406 to R410, R427 to R430), DIRTY_SWAP (R426) and FENCE (R480). -/

namespace Sys2Proof.Machine

/-- The instance descriptor of a packet as a number, byte 0 least significant. -/
def cmdDesc (s : State) (p : Packet) : Nat := leNat (cmdData s p 0)

/-- The read of an instance descriptor. -/
def descRead (p : Packet) : List (Nat × Nat) := [(p.p 1, 256)]

/-! ### INST_CREATE and INST_RESIZE (R406, R408, R409) -/

/-- The recorded key epoch of an instance and whether it is released (R408). -/
def epochOf (s : State) (n : Nat) : Nat × Bool := tget s.ldg.epochs (0, false) n

/-- Whether INST_CREATE refuses an epoch (R408). -/
def epochBad (s : State) (n e : Nat) : Bool := e < (epochOf s n).1 || (e = (epochOf s n).1 && (epochOf s n).2)

/-- What INST_CREATE does once its descriptor is there. -/
def createInst (p : Packet) (s : State) : State :=
  let n := p.p 0
  let d := cmdDesc s p
  let e := fld d 0 32
  let g := descGroups true d
  if descReservedSet d then failCmd p.slot reservedRes s
  else if !descRangeOk s n d g || epochBad s n e then failCmd p.slot paramBad s
  else if !hasRoot s then failCmd p.slot noRoot s
  else if (s.inst n).st != .unused then endCmd p.slot okRes 0 s
  else if iotlbOver s n (fld d 256 14) then failCmd p.slot iotlbQuota s
  else
    let s1 := recordSlot n (putInstKey n e s)
    let s2 := s1.modLdg fun l => { l with epochs := tset l.epochs (0, false) n (e, false) }
    let s3 := bumpAsgen n (setResources n d g s2)
    endCmd p.slot okRes 0 (s3.modInst n fun v => { v with st := .disabled, weight := v.newWeight, burst := v.newBurst })

/-- INST_CREATE (R406, R408, R427). -/
def execInstCreate (slot : SlotId) (s : State) : Out := .next (runCmd slot.val 0x01 anyFlags descRead createInst s)

/-- Pinned contexts of an instance. -/
def pinnedOf (s : State) (n : Nat) : Nat := (s.ctx.filter fun p => p.2.owner = n && p.2.pin).length

/-- What INST_RESIZE does once its descriptor is there. -/
def resizeInst (p : Packet) (s : State) : State :=
  let n := p.p 0
  let d := cmdDesc s p
  let g := descGroups false d
  if descReservedSet d then failCmd p.slot reservedRes s
  else if !descRangeOk s n d g then failCmd p.slot paramBad s
  else if (s.inst n).st == .unused then endCmd p.slot okRes 0 s
  else if rangeHeld s n d g then failCmd p.slot modeBad s
  else if g 2 && fld d 128 19 < pinnedOf s n then failCmd p.slot ctxQuotaRes s
  else if g 7 && iotlbOver s n (fld d 256 14) then failCmd p.slot iotlbQuota s
  else endCmd p.slot okRes 0 (setResources n d g s)

/-- INST_RESIZE (R406, R407, R409). -/
def execInstResize (slot : SlotId) (s : State) : Out := .next (runCmd slot.val 0x02 anyFlags descRead resizeInst s)

/-! ### INST_RESET (R427, R428) -/

/-- What INST_RESET does: the reset runs in hardware from here on. -/
def resetInst (p : Packet) (s : State) : State :=
  let n := p.p 0
  if p.stage != 0 then s
  else match (s.inst n).st with
    | .unused => endCmd p.slot okRes 0 s
    | .resetting => endCmd p.slot okRes 0 s
    | _ => ownSequence n p.slot (startReset n s)

/-- INST_RESET (R427, R428). -/
def execInstReset (slot : SlotId) (s : State) : Out :=
  .next (runCmd slot.val 0x03 (fun f => !bit f 0) noReads resetInst s)

/-- Whether an instance owns a resident context, or a parent slot other than its instance key. -/
def ownsKeys (s : State) (n : Nat) : Bool :=
  (s.ctx.any fun p => p.2.owner = n) || s.cruc.parents.any fun p => p.1 != n && p.2.st != .empty && p.2.owner = n

/-- Frees an instance: its key, its epoch, and every range and share (R352, R408, R427). -/
def releaseInst (n : Nat) (s : State) : State :=
  let s1 := (instRings s n).foldl (fun t r => t.modRing r fun x =>
    { size := x.size, base := x.base, auto := x.auto, nrn := x.nrn, nrEn := x.nrEn, burst := x.burst }) s
  let s2 := (instNrs s n).foldl (fun t k => t.modNr k fun x =>
    { size := x.size, base := x.base, vec := x.vec, irqEn := x.irqEn, holdoff := x.holdoff }) s1
  let s3 := recordSlot n (freeSlot n (invalidateUnder [n] s2))
  let s4 := s3.modLdg fun l => { l with epochs := tset l.epochs (0, false) n ((epochOf s n).1, true) }
  s4.modInst n fun v =>
    { v with st := .unused, pendBase := .unused, resetHeld := false, cmd := none, sqFirst := 0, sqCount := 0, nqFirst := 0, nqCount := 0,
             ctxQuota := 0, slotQuota := 0, tagQuota := 0, weight := 0, burst := 0, newWeight := 0, newBurst := 0, comet := 0,
             iotlb := 0, translate := false, winGib := 0, winBase := 0, xlRoot := 0, dlEn := false, vecs := [] }

/-- What INST_RESET with RELEASE does. -/
def releaseCmd (p : Packet) (s : State) : State :=
  let n := p.p 0
  if (s.inst n).st != .disabled then endCmd p.slot okRes 0 s
  else if ownsKeys s n then failCmd p.slot modeBad s
  else endCmd p.slot okRes 0 (releaseInst n s)

/-- INST_RESET with RELEASE (R427). -/
def execInstResetRelease (slot : SlotId) (s : State) : Out :=
  .next (runCmd slot.val 0x03 (fun f => bit f 0) noReads releaseCmd s)

/-- INST_RESET_COMPLETE (R427, R428): nothing of the resetting instance is outstanding. -/
def execInstResetComplete (slot : SlotId) (s : State) : Out :=
  .next (match sequenceInst s slot.val (fun v => v.st == .resetting || (v.st == .pendingEnable && v.pendBase == .resetting)) with
    | some n => if powered s && instQuiet s n then conclude (shutDone n true s) else s
    | none => s)

/-! ### INST_ENABLE and INST_DISABLE (R427, R429, R430) -/

/-- What INST_ENABLE does; it waits for a shut-down in progress, and for the re-enable. -/
def enableCmd (p : Packet) (s : State) : State :=
  let n := p.p 0
  let v := s.inst n
  if p.stage != 0 then (if v.st == .pendingEnable || reEnabling s n then s else endCmd p.slot okRes 0 s)
  else match v.st with
    | .disabled =>
      if v.resetHeld then modPacket p.slot (fun x => { x with stage := 1, committed := true, waits := true }) (enableInst n s)
      else endCmd p.slot okRes 0 (enableInst n s)
    | .eclipse =>
      let s1 := s.modInst n fun x => { x with st := .enabled }
      endCmd p.slot okRes 0 ((instRings s1 n).foldl (fun t r => rescan r t) s1)
    | .stopping => ownSequence n p.slot (s.modInst n fun x => { x with st := .pendingEnable, pendBase := .stopping })
    | .resetting => ownSequence n p.slot (s.modInst n fun x => { x with st := .pendingEnable, pendBase := .resetting })
    | .pendingEnable => ownSequence n p.slot s
    | _ => endCmd p.slot okRes 0 s

/-- INST_ENABLE (R427, R429). -/
def execInstEnable (slot : SlotId) (s : State) : Out := .next (runCmd slot.val 0x04 anyFlags noReads enableCmd s)

/-- What INST_DISABLE does; the stop runs in hardware. -/
def disableCmd (p : Packet) (s : State) : State :=
  let n := p.p 0
  let v := s.inst n
  if p.stage != 0 then s
  else match v.st with
    | .enabled => ownSequence n p.slot (startStop n s)
    | .eclipse => ownSequence n p.slot (startStop n s)
    | .pendingEnable => ownSequence n p.slot (s.modInst n fun x => { x with st := v.pendBase, pendBase := .unused })
    | _ => endCmd p.slot okRes 0 s

/-- INST_DISABLE (R427). -/
def execInstDisable (slot : SlotId) (s : State) : Out :=
  .next (runCmd slot.val 0x05 (fun f => !bit f 0) noReads disableCmd s)

/-- What INST_DISABLE with ECLIPSE does: complete once the instance has nothing in flight. -/
def eclipseCmd (p : Packet) (s : State) : State :=
  let n := p.p 0
  if p.stage = 0 && (s.inst n).st != .enabled then endCmd p.slot okRes 0 s
  else
    let s1 := if p.stage = 0 then modPacket p.slot (fun x => { x with stage := 1, committed := true, waits := true }) (startQuiet n s) else s
    if inFlight s1 n = 0 then endCmd p.slot okRes 0 s1 else s1

/-- INST_DISABLE with ECLIPSE (R430). -/
def execInstDisableEclipse (slot : SlotId) (s : State) : Out :=
  .next (runCmd slot.val 0x05 (fun f => bit f 0) noReads eclipseCmd s)

/-- Whether a stopping instance has every ring DISABLED and nothing in flight (R427). -/
def instStopped (s : State) (n : Nat) : Bool :=
  ((instRings s n).all fun r => (s.ring r).st == .disabled) && inFlight s n = 0

/-- INST_STOP_COMPLETE (R427). -/
def execInstStopComplete (slot : SlotId) (s : State) : Out :=
  .next (match sequenceInst s slot.val (fun v => v.st == .stopping || (v.st == .pendingEnable && v.pendBase == .stopping)) with
    | some n => if powered s && instStopped s n then conclude (shutDone n false s) else s
    | none => s)

/-! ### DIRTY_SWAP (R426) -/

/-- Sequence numbers of the writes of an instance that are outstanding, and of the atomic ORs that record such writes. -/
def swapMarks (s : State) (n : Nat) : List Nat :=
  let mine := fun (r : Req) => r.op != .read && r.inst = n
  (((s.mem.hmp0.out ++ s.mem.hmp1.out).filter mine).map fun r => r.seq)
    ++ ((s.mem.waiting.filter fun a => a.own == .dirty n || (a.pa.isSome && a.op != .read && a.inst = n)).map fun a => a.seq)

/-- Whether any of the marked accesses still waits or is outstanding. -/
def marksOut (s : State) (marks : List Nat) : Bool :=
  ((s.mem.hmp0.out ++ s.mem.hmp1.out).any fun r => marks.contains r.seq) || s.mem.waiting.any fun a => marks.contains a.seq

/-- XLATE_FAULT with HOST_ADDR. -/
def hostAddrRes : Res := xlateRes 7

/-- What DIRTY_SWAP does: the other bitmap is active at once, and the swap completes once what was issued before is answered. -/
def swapCmd (p : Packet) (s : State) : State :=
  let n := p.p 0
  let v := s.inst n
  if p.stage = 0 then
    if v.st == .unused || (!v.dlEn && !v.dlFault) then failCmd p.slot modeBad s
    else if v.dlFault then failCmd p.slot hostAddrRes s
    else modPacket p.slot (fun x => { x with stage := 1, committed := true, waits := true, marks := swapMarks s n, aux := b2n v.dlActive })
      (s.modInst n fun x => { x with dlActive := !x.dlActive, dlSet := [] })
  else if v.dlFault then failCmd p.slot hostAddrRes s
  else if marksOut s p.marks then s
  else endCmd p.slot (okRes p.aux) 0 s

/-- DIRTY_SWAP (R425, R426). -/
def execDirtySwap (slot : SlotId) (s : State) : Out := .next (runCmd slot.val 0x58 anyFlags noReads swapCmd s)

/-! ### FENCE (R480) -/

/-- Sequence numbers of the data-plane writes that are outstanding for an instance, or for all with 0xFF. -/
def fenceMarks (s : State) (n : Nat) : List Nat :=
  (((s.mem.hmp0.out ++ s.mem.hmp1.out).filter fun r => r.dp && r.op != .read && (n = 0xFF || r.inst = n)).map fun r => r.seq)
    ++ ((s.mem.waiting.filter fun a => a.pa.isSome && a.dp && a.op != .read && (n = 0xFF || a.inst = n)).map fun a => a.seq)

/-- Step 3 of R480: the events of the buffer reach the log, and a checkpoint is written. -/
def fenceFlush (s : State) : State :=
  let s1 := if s.ory.evtBuf.isEmpty && s.ory.evtLost = 0 then s else drainEvents s
  checkpoint s1

/-- What FENCE does: its point is when Orrery takes the packet; it waits for what was issued before, then flushes and logs. -/
def fenceCmd (p : Packet) (s : State) : State :=
  let n := p.p 0
  let s1 := if p.stage = 0 then modPacket p.slot (fun x => { x with stage := 1, waits := true, marks := fenceMarks s n }) s else s
  let marks := if p.stage = 0 then fenceMarks s n else p.marks
  if marksOut s1 marks then s1
  else
    let s2 := fenceFlush s1
    endCmd p.slot (okRes s2.ldg.nextSeq) 0 (logEvent 8 0 n s2)

/-- FENCE (R480). -/
def execFence (slot : SlotId) (s : State) : Out := .next (runCmd slot.val 0x68 anyFlags noReads fenceCmd s)

end Sys2Proof.Machine
end

