-- ==== Sys2Proof/Machine/Ledger.lean ====
section
/-! DEFINITION. The Ledger's configuration: tamper records (R448, R449), calibration items (R472), the copies with their checks and
writes (R469 to R471), and the image slots (R473, R474). -/

namespace Sys2Proof.Machine

/-! ### Tamper records (R448, R449) -/

/-- Sources that can be armed in Vigil (R431, R448). -/
def vigilSource (k : Nat) : Bool := k ≤ 5 || (7 ≤ k && k ≤ 9) || k = 16

/-- Level sources (R431). -/
def levelSource (k : Nat) : Bool := k ≤ 9 || k = 11 || k = 12

/-- Record `k` of a tamper configuration as a number. -/
def tRecBits (b : List Byte) (k : Nat) : Nat := leAt b (8 * k) 8

/-- Whether a tamper record is in range, with its reserved bits zero. -/
def tRecOk (k n : Nat) : Bool :=
  fld n 5 3 = 0 && fld n 38 2 = 0 && fld n 57 7 = 0
    && (!bit n 1 || vigilSource k)
    && fld n 2 3 ≤ 5 && 1 ≤ fld n 8 8
    && 1 ≤ fld n 16 22 && fld n 16 22 ≤ 3600000
    && (if levelSource k then 1 ≤ fld n 48 8 else fld n 40 16 = 0)
    && (!bit n 56 || (2 ≤ k && k ≤ 5))

/-- A tamper record. -/
def tRecOf (n : Nat) : TRec :=
  { arm := bit n 0, vigilArm := bit n 1, response := fld n 2 3, n := fld n 8 8, w := fld n 16 22, debounce := fld n 40 8,
    rearm := fld n 48 8, polarity := bit n 56 }

/-- Whether 144 bytes hold a tamper configuration. -/
def tamperOk (b : List Byte) : Bool := (List.range 18).all fun k => tRecOk k (tRecBits b k)

/-- A source that its new record arms while it is active and ready starts its debounce, or qualifies at once. -/
def newlyArmed (k : Nat) (was : Bool) (s : State) : State :=
  let x := s.tsrc k
  if was || !armed s k || !levelSource k || !x.active || !x.ready || x.waiting then s
  else if (tRec s k).debounce = 0 then qualify k s
  else s.modTsrc k fun y => { y with waiting := true }

/-- Puts a tamper record in force. Where ARM, N or W changes, the open window closes and its count is discarded (R449). -/
def putTRec (k : Nat) (r : TRec) (s : State) : State :=
  let old := tget s.tam.recs {} k
  let was := armed s k
  let s1 := s.modTam fun t => { t with recs := tset t.recs {} k r }
  let s2 := if old.arm != r.arm || old.n != r.n || old.w != r.w then
      s1.modTsrc k fun x => { x with opened := false, count := 0, ignored := false, bounces := [], waiting := x.waiting && r.arm }
    else s1
  newlyArmed k was (s2.modVigil fun v => { v with vArm := tset v.vArm {} k r })

/-- Puts a tamper configuration in force, its Vigil fields into retained storage (R449). -/
def applyTamper (b : List Byte) (s : State) : State :=
  (List.range 18).foldl (fun t k => putTRec k (tRecOf (tRecBits b k)) t) s

/-! ### Calibration items (R472) -/

/-- Whether a calibration item has a known ID, a value in range and its reserved bits zero. -/
def calibItemOk (n : Nat) : Bool :=
  let id := fld n 0 16
  let v := fld n 32 32
  fld n 16 16 = 0 && (match id with
    | 1 => 600 ≤ v && v ≤ 680
    | 2 => 920 ≤ v && v ≤ 1000
    | 3 => -55 ≤ int32 v && int32 v ≤ 0
    | 4 => 100 ≤ v && v ≤ 150
    | 5 => 1 ≤ v && v ≤ 1023
    | 6 => 20 ≤ v && v ≤ 100
    | 7 => 1 ≤ v && v ≤ 1023
    | _ => 0x100 ≤ id && id ≤ 0x130)

/-- The calibration items of a byte string. -/
def calibItems (b : List Byte) : List Nat := (List.range (b.length / 8)).map fun i => leAt b (8 * i) 8

/-- Whether every item of a byte string is in range. -/
def calibOk (b : List Byte) : Bool := (calibItems b).all calibItemOk

/-- Applies a set of calibration items: the detectors are held against the new thresholds (R472). -/
def applyCalib (b : List Byte) (s : State) : State :=
  reclassify
    ((calibItems b).foldl (fun t n => t.modOry fun o => { o with calib := tset o.calib none (fld n 0 16) (some (word (fld n 32 32))) }) s)

/-! ### Configuration copies (R469 to R471) -/

/-- The records of a body up to its END, each a type and its data; none where they do not parse. -/
def bodyRecords (fuel : Nat) (b : List Byte) : Option (List (Nat × List Byte)) :=
  match fuel with
  | 0 => none
  | f + 1 =>
    let typ := leAt b 0 2
    let len := leAt b 2 2
    if b.length < 8 + len || leAt b 4 4 != 0 || len % 8 != 0 || typ > 3 then none
    else if typ = 0 then (if len = 0 && b.length = 8 then some [] else none)
    else (bodyRecords f (b.drop (8 + len))).map fun r => (typ, bytesAt b 8 len) :: r

/-- Whether a TAMPER or CALIB record passes its checks (R470). -/
def recordOk (r : Nat × List Byte) : Bool :=
  match r.1 with
  | 2 => r.2.length = 144 && tamperOk r.2
  | 3 => calibOk r.2
  | _ => true

/-- The records of a copy's or image's body, where all of them pass. -/
def goodRecords (copy : List Byte) : Option (List (Nat × List Byte)) :=
  let body := copy.drop 64
  (bodyRecords (body.length / 8 + 1) body).filter fun rs => rs.all recordOk

/-- Whether FORMAT, MAJOR and LEN of a copy are in range and LEN is the length of its body (R469). -/
def headerOk (copy : List Byte) : Bool :=
  let len := leAt copy 8 4
  leAt copy 0 2 = 1 && leAt copy 2 2 = 3 && 8 ≤ len && len ≤ 65472 && len % 8 = 0 && copy.length = 64 + len

/-- The CRC of a copy with a sequence number (R469, R471). -/
def copyCrc (copy : List Byte) (seq : Nat) : Nat := crc32c ((putBytes copy 4 (natLe 4 seq)).take 32 ++ copy.drop 64)

/-- The MAC of a copy under LEDGER_KEY (R469). -/
def copyMac (s : State) (copy : List Byte) : List Byte :=
  (hmacOf 1 (s.sysKey 6).key (copy.take 48 ++ copy.drop 64)).take 16

/-- A configuration copy of a body with a sequence number (R469). -/
def makeCopy (s : State) (seq : Nat) (body : List Byte) : List Byte :=
  let c0 := natLe 2 1 ++ natLe 2 3 ++ natLe 4 seq ++ natLe 4 body.length ++ zeros 52 ++ body
  let c1 := putBytes c0 32 (natLe 4 (copyCrc c0 seq))
  putBytes c1 48 (copyMac s c1)

/-- Whether a configuration copy is valid (R470). -/
def copyValid (s : State) (copy : List Byte) : Bool :=
  headerOk copy && leAt copy 32 4 = copyCrc copy (leAt copy 4 4) && bytesAt copy 48 16 == copyMac s copy
    && (goodRecords copy).isSome

/-- The active copy, none on factory defaults. -/
def activeCopy (s : State) : Option (List Byte) :=
  if s.ldg.factory then none else some (if s.ldg.active then s.ldg.copyB else s.ldg.copyA)

/-- Checks both copies and selects one: the higher SEQ, and copy A of equals (R470). -/
def selectCopy (s : State) : State :=
  let a := copyValid s s.ldg.copyA
  let b := copyValid s s.ldg.copyB
  let sa := leAt s.ldg.copyA 4 4
  let sb := leAt s.ldg.copyB 4 4
  let useB := b && (!a || sa < sb)
  s.modLdg fun l =>
    { l with aValid := a, bValid := b, factory := !a && !b, active := useB, seq := if useB then sb else if a then sa else 0 }

/-- Measures the active copy as measurement 2 (R317). -/
def measureCopy (s : State) : State :=
  match activeCopy s with
  | none => s
  | some c => putMeas 2 (sha384 c) s

/-! ### Writing the Ledger (R468, R471) -/

/-- Whether a read-back succeeds: the spec leaves it to the store, so the answer is a free value. -/
def readBack (s : State) : Bool := Config.freeBool s.freeCtr

/-- A failed write or read-back: WRITE_FAIL and LEDGER_FAIL, whose area code the spec does not list. -/
def ledgerFail (s : State) : State :=
  drawn 1 (postMail 4 (Config.freeNat s.freeCtr) (s.modLdg fun l => { l with writeFail := true }))

/-- Erases as many sectors of 4 KiB as so many bytes take; which ones wear-levelling takes is a free value (R468, R477; log entry 196). -/
def eraseFor (bytes : Nat) (s : State) : State :=
  let n := ceilDiv bytes 4096
  drawn n (s.modLdg fun l =>
    { l with wear := (List.range n).foldl (fun w i => tmod w 0 (Config.freeNat (s.freeCtr + i) % 256) fun c => min (2 ^ 32 - 1) (c + 1)) l.wear })

/-- The bytes of the inactive configuration copy are replaced. -/
def putInactive (c : List Byte) (s : State) : State :=
  s.modLdg fun l => if l.active then { l with copyA := c } else { l with copyB := c }

/-- Writes a body as the new inactive copy with the next SEQ and completes the packet at a slot; a copy whose read-back fails holds
bytes that the spec leaves open. -/
def writeConfig (slot : Nat) (body : List Byte) (s : State) : State :=
  let copy := makeCopy s (s.ldg.seq + 1) body
  let s1 := eraseFor copy.length (drawn 1 s)
  if readBack s then endCmd slot (okRes (s.ldg.seq + 1)) 0 (putInactive copy s1)
  else
    let n := copy.length
    failCmd slot timeoutRes (ledgerFail (drawn n (putInactive (drawBytes s1 n) s1)))

/-- The body of the active copy with its records of a type replaced by one record. -/
def mergedBody (s : State) (typ : Nat) (data : List Byte) : List Byte :=
  let old := ((activeCopy s).bind goodRecords).getD []
  let rs := (old.filter fun r => r.1 != typ) ++ [(typ, data)]
  (rs.map fun r => natLe 2 r.1 ++ natLe 2 r.2.length ++ zeros 4 ++ r.2).flatten ++ zeros 8

/-- The calibration items of the active copy with new items, an item for each ID. -/
def mergedCalib (s : State) (b : List Byte) : List Byte :=
  let old := ((((activeCopy s).bind goodRecords).getD []).filter fun r => r.1 = 3).map fun r => calibItems r.2
  let new := calibItems b
  ((old.flatten ++ new).foldl (fun (t : List Nat) n => t.filter (fun m => fld m 0 16 != fld n 0 16) ++ [n]) []).flatMap fun n => natLe 8 n

/-- Whether no further SEQ exists, or a merged body would not fit its copy (R469, R471). -/
def ledgerFull (s : State) (body : List Byte) : Bool := s.ldg.seq ≥ 0xFFFFFFFF || body.length > 65472

/-! ### Image slots (R473, R474) -/

/-- The image in a slot of a kind: 0 Yuham, 1 microcode. -/
def imageAt (s : State) (kind : Nat) (inB : Bool) : Image :=
  match kind, inB with
  | 0, false => s.ldg.yA
  | 0, true => s.ldg.yB
  | _, false => s.ldg.mA
  | _, true => s.ldg.mB

/-- Replaces the image in a slot of a kind. -/
def putImage (kind : Nat) (inB : Bool) (g : Image) (s : State) : State :=
  s.modLdg fun l => match kind, inB with
    | 0, false => { l with yA := g }
    | 0, true => { l with yB := g }
    | _, false => { l with mA := g }
    | _, true => { l with mB := g }

/-- Whether slot B of a kind is active. -/
def imageActive (s : State) (kind : Nat) : Bool := if kind = 0 then s.ldg.yActive else s.ldg.mActive

/-- The inactive image of a kind. -/
def spareImage (s : State) (kind : Nat) : Image := imageAt s kind (!imageActive s kind)

/-- The minimum SVN of a kind. -/
def minSvn (s : State) (kind : Nat) : Nat := if kind = 0 then s.ldg.yMin else s.ldg.mMin

/-- Writes the image pointer of a kind: the inactive slot becomes active, and the formerly active one can be returned to. -/
def flipImage (kind : Nat) (s : State) : State :=
  let b := imageActive s kind
  let s1 := putImage kind b { imageAt s kind b with prev := true, staged := false } s
  let s2 := putImage kind (!b) { imageAt s1 kind (!b) with prev := false, staged := false } s1
  s2.modLdg fun l => if kind = 0 then { l with yActive := !b } else { l with mActive := !b }

/-- Whether the inactive slot of a kind can be made active: its staged image, or its formerly active one (R474). -/
def canFlip (s : State) (kind : Nat) (back : Bool) : Bool :=
  let g := spareImage s kind
  g.usable && (if back then g.prev else g.staged) && minSvn s kind ≤ g.svn

end Sys2Proof.Machine
end

