-- ==== Sys2Proof/Machine/OrryCmds.lean ====
section
/-! DEFINITION. The commands of the Ledger, the images, the Forges, the clock and the event log: TAMPER_CFG (R448, R449), CALIBRATE
(R472), LEDGER_WRITE (R471, R476, R477), IMAGE_STAGE, IMAGE_COMMIT and IMAGE_ROLLBACK (R473, R474), FORGE_RETIRE and FORGE_RESTORE
(R226), CLOCK_SET (R481) and LOG_READ (R479). -/

namespace Sys2Proof.Machine

/-! ### TAMPER_CFG and CALIBRATE -/

/-- What TAMPER_CFG does with its records. -/
def tamperCmd (p : Packet) (s : State) : State :=
  let b := cmdData s p 0
  let body := mergedBody s 2 b
  if !tamperOk b then failCmd p.slot paramBad s
  else if s.tam.locked || (bit p.flags 1 && ledgerFull s body) then failCmd p.slot modeBad s
  else
    let s1 := (applyTamper b s).modTam fun t => { t with locked := t.locked || bit p.flags 0 }
    if bit p.flags 1 then writeConfig p.slot body s1 else endCmd p.slot okRes 0 s1

/-- TAMPER_CFG (R448, R449). -/
def execTamperCfg (slot : SlotId) (s : State) : Out :=
  .next (runCmd slot.val 0x30 anyFlags (fun p => [(p.p 0, 144)]) tamperCmd s)

/-- What CALIBRATE does with its items. -/
def calibrateCmd (p : Packet) (s : State) : State :=
  let b := cmdData s p 0
  let body := mergedBody s 3 (mergedCalib s b)
  if !calibOk b then failCmd p.slot paramBad s
  else if bit p.flags 0 && ledgerFull s body then failCmd p.slot modeBad s
  else
    let s1 := applyCalib b s
    if bit p.flags 0 then writeConfig p.slot body s1 else endCmd p.slot okRes 0 s1

/-- CALIBRATE (R472). -/
def execCalibrate (slot : SlotId) (s : State) : Out :=
  .next (runCmd slot.val 0x48 anyFlags (fun p => [(p.p 0, p.p 1)]) calibrateCmd s)

/-! ### LEDGER_WRITE (R471, R476, R477) -/

/-- ITEM of a LEDGER_WRITE. -/
def ledgerItem (k : Nat) (f : Nat) : Bool := fld f 0 2 = k

/-- The read of a Beroon image: none where its length cannot be one. -/
def configRead (p : Packet) : List (Nat × Nat) := if 72 ≤ p.p 1 && p.p 1 ≤ 65536 then [(p.p 0, p.p 1)] else []

/-- Whether a reserved field of a configuration header is set (R18, R469). -/
def headerReserved (img : List Byte) : Bool := !allZero (bytesAt img 12 20) || !allZero (bytesAt img 36 12)

/-- What LEDGER_WRITE with ITEM CONFIG does (R471). -/
def configCmd (p : Packet) (s : State) : State :=
  let img := cmdData s p 0
  if p.reads.isEmpty || !headerOk img || leAt img 32 4 != copyCrc img 0 || (goodRecords img).isNone then failCmd p.slot paramBad s
  else if headerReserved img then failCmd p.slot reservedRes s
  else if s.ldg.seq ≥ 0xFFFFFFFF then failCmd p.slot modeBad s
  else writeConfig p.slot (img.drop 64) s

/-- LEDGER_WRITE with ITEM CONFIG (R471). -/
def execLedgerWriteConfig (slot : SlotId) (s : State) : Out :=
  .next (runCmd slot.val 0x50 (ledgerItem 0) configRead configCmd s)

/-- LEDGER_WRITE with ITEM CHECKPOINT (R477). -/
def execLedgerWriteCheckpoint (slot : SlotId) (s : State) : Out :=
  .next (runCmd slot.val 0x50 (ledgerItem 2) noReads (fun p t => endCmd p.slot okRes 0 (checkpoint t)) s)

/-- What LEDGER_WRITE with ITEM VAULT_ROTATE does: the next generation, both keys, and the sweep from handle 0 (R476). -/
def rotateCmd (p : Packet) (s : State) : State :=
  if s.ldg.reseal then failCmd p.slot modeBad s
  else
    let g := (s.ldg.vkeyGen + 1) % 2 ^ 32
    let s1 := s.modLdg fun l => { l with vkeyGen := g, cursor := 0, reseal := true }
    let s2 := deriveVault (s1.modVault fun v => { v with sweep := 0, resealRids := none })
    endCmd p.slot (okRes g) 0 (logEvent 6 6 (g * 2 ^ 32) s2)

/-- LEDGER_WRITE with ITEM VAULT_ROTATE (R476). -/
def execVaultRotate (slot : SlotId) (s : State) : Out :=
  .next (runCmd slot.val 0x50 (ledgerItem 1) noReads rotateCmd s)

/-! ### Images (R473, R474) -/

/-- AUTH_FAIL with SIGNATURE. -/
def signatureBad : Res := res 1 5

/-- Ledger slot bytes of an image KIND (R468). -/
def imageRoom (kind : Nat) : Nat := if kind = 1 then 262144 else 49152

/-- The read of an image: none where its length cannot be one. -/
def imageRead (p : Packet) : List (Nat × Nat) := if 3584 ≤ p.p 1 && p.p 1 ≤ 262144 then [(p.p 0, p.p 1)] else []

/-- Whether KIND, MAJOR and the lengths of an image are right (R473). -/
def imageShapeOk (img : List Byte) : Bool :=
  let kind := leAt img 0 2
  (kind = 1 || kind = 2) && leAt img 2 2 = 3 && img.length = 3584 + leAt img 12 4 && img.length ≤ imageRoom kind

/-- Whether both signatures of an image verify over its first 64 bytes (R473). -/
def imageSigned (img : List Byte) : Bool :=
  let hd := img.take 64
  ecdsaVerify curve384 (ptOfBytes curve384 Config.perysEcdsa) (sha384 hd) (bytesAt img 64 96)
    && dsaVerify 0x39 Config.perysDsa (dsaMsg [] hd) (bytesAt img 160 3309)

/-- Writes a checked image into the inactive slot of its kind and completes the packet. -/
def stageImage (p : Packet) (img digest : List Byte) (s : State) : State :=
  let kind := leAt img 0 2 - 1
  let version := leAt img 4 4
  let svn := leAt img 8 1
  let inB := !imageActive s kind
  let s1 := eraseFor img.length (drawn 1 s)
  if readBack s then
    endCmd p.slot (okRes version) svn (putImage kind inB { usable := true, version := version, svn := svn, digest := digest, staged := true } s1)
  else failCmd p.slot timeoutRes (ledgerFail (putImage kind inB {} s1))

/-- What IMAGE_STAGE does (R473). -/
def stageCmd (p : Packet) (s : State) : State :=
  let img := cmdData s p 0
  if p.reads.isEmpty || !imageShapeOk img then failCmd p.slot paramBad s
  else if leAt img 9 3 != 0 || !allZero (bytesAt img 3469 115) then failCmd p.slot reservedRes s
  else if !imageSigned img then failCmd p.slot signatureBad s
  else
    let digest := sha384 (img.drop 3584)
    let s1 := putMeas 3 digest s
    if digest != bytesAt img 16 48 then failCmd p.slot signatureBad s1
    else if leAt img 8 1 < minSvn s (leAt img 0 2 - 1) then failCmd p.slot modeBad s1
    else stageImage p img digest s1

/-- Measurement 3 begins with the reads of an image: its bit falls until the digest stands (R319). -/
def beginStage (started : Bool) (s : State) : State :=
  match (livePackets s).find? fun p => p.opc = 0x38 && !p.reads.isEmpty with
  | some p => if started then beginMeas 3 (p.p 1 - 3584) s else s
  | none => s

/-- IMAGE_STAGE (R319, R473). -/
def execImageStage (slot : SlotId) (s : State) : Out :=
  .next (beginStage (livePacket s slot.val 0x38).isNone (runCmd slot.val 0x38 anyFlags imageRead stageCmd s))

/-- A packet that has passed its commit point and waits for its engines. -/
def commitPacket (slot : Nat) (s : State) : State := modPacket slot (fun x => { x with committed := true, waits := true, stage := 1 }) s

/-- Makes the inactive image of a kind active (R239, R474): Yuham restarts on it, or the microcode rotates. -/
def activateImage (p : Packet) (back raise : Bool) (s : State) : State :=
  let kind := b2n (bit p.flags 0)
  let g := spareImage s kind
  if p.stage != 0 then s
  else if !canFlip s kind back then failCmd p.slot modeBad s
  else if kind = 0 then
    restartYuham ((commitPacket p.slot (flipImage 0 s)).modOry fun o => { o with commit := some (p.slot, raise) })
  else if (freeSpare s).isNone then failCmd p.slot modeBad s
  else
    (commitPacket p.slot (flipImage 1 s)).modFab fun b =>
      { b with rotation := some { version := g.version, raise := raise, svn := g.svn, slot := p.slot } }

/-- IMAGE_COMMIT (R239, R474). -/
def execImageCommit (slot : SlotId) (s : State) : Out :=
  .next (runCmd slot.val 0x39 anyFlags noReads (fun p => activateImage p false (bit p.flags 1)) s)

/-- IMAGE_ROLLBACK (R474). -/
def execImageRollback (slot : SlotId) (s : State) : Out :=
  .next (runCmd slot.val 0x3A anyFlags noReads (fun p => activateImage p true false) s)

/-- The Yuham pointer goes back to the earlier image, and the slots read as before the packet. -/
def unflipYuham (back : Bool) (s : State) : State :=
  let b := imageActive s 0
  let s1 := putImage 0 b { imageAt s 0 b with prev := back, staged := !back } s
  let s2 := putImage 0 (!b) { imageAt s1 0 (!b) with prev := false, staged := false } s1
  s2.modLdg fun l => { l with yActive := !b }

/-- YUHAM_RUNNING_TIMEOUT (R474): the pointer goes back, the earlier image restarts and the packet completes as TIMEOUT. -/
def execYuhamRunningTimeout (s : State) : Out :=
  .next (match s.ory.commit with
    | none => s
    | some (slot, _) =>
      if !powered s || s.ory.st != .restarting then s
      else
        let back := s.ory.packets.any fun p => p.slot = slot && p.opc = 0x3A && p.res.isNone
        let s1 := unflipYuham back (s.modOry fun o => { o with commit := none })
        conclude (packetDone slot timeoutRes (restartYuham s1)))

/-! ### FORGE_RETIRE and FORGE_RESTORE (R226) -/

/-- The packet waits for physical Forge `m`, which hardware brings to its end. -/
def awaitForge (p : Packet) (m : Nat) (s : State) : State :=
  commitPacket p.slot (s.modForge m fun f => { f with cmd := some p.slot })

/-- Whether physical Forge `m` is the last ACTIVE one and no spare can take its place. -/
def lastForge (s : State) (m : Nat) : Bool :=
  (freeSpare s).isNone && (List.range 9).all fun k => k = m || (s.forge k).st != .active

/-- What FORGE_RETIRE does. -/
def retireCmd (p : Packet) (s : State) : State :=
  let m := p.p 0
  let f := s.forge m
  if p.stage != 0 then s
  else match f.st with
    | .active => if f.failing || lastForge s m then failCmd p.slot modeBad s else startRetire m (awaitForge p m s)
    | .gated => wakeForge f.logical (awaitForge p m s)
    | _ => failCmd p.slot modeBad s

/-- FORGE_RETIRE (R225, R226). -/
def execForgeRetire (slot : SlotId) (s : State) : Out := .next (runCmd slot.val 0x40 anyFlags noReads retireCmd s)

/-- What FORGE_RESTORE does. -/
def restoreForge (p : Packet) (s : State) : State :=
  let m := p.p 0
  if p.stage != 0 then s
  else match (s.forge m).st with
    | .retiring => (awaitForge p m s).modForge m fun f => { f with pend := true }
    | .retired => startRestore m (awaitForge p m s)
    | .failed => startRestore m (awaitForge p m s)
    | .restoring => awaitForge p m s
    | _ => endCmd p.slot okRes 0 s

/-- FORGE_RESTORE (R225, R226). -/
def execForgeRestore (slot : SlotId) (s : State) : Out := .next (runCmd slot.val 0x41 anyFlags noReads restoreForge s)

/-! ### CLOCK_SET (R481) -/

/-- What CLOCK_SET does: CAL sets the calendar, STEP permits one leap; each with a calendar checkpoint. -/
def clockCmd (p : Packet) (s : State) : State :=
  let s1 := if bit p.flags 0 then setCalendar (p.p 0 * 1000000000 + p.p 1) s else s
  let s2 := if bit p.flags 1 then s1.modTime fun t => { t with leap := some (p.p 0) } else s1
  endCmd p.slot okRes 0 (calCheckpoint s2)

/-- CLOCK_SET with CAL (R481). -/
def execClockSetCal (slot : SlotId) (s : State) : Out :=
  .next (runCmd slot.val 0x60 (fun f => bit f 0) noReads clockCmd s)

/-- CLOCK_SET without CAL: with STEP it permits one leap (R481). -/
def execClockSetStep (slot : SlotId) (s : State) : Out :=
  .next (runCmd slot.val 0x60 (fun f => !bit f 0) noReads clockCmd s)

/-! ### LOG_READ (R479) -/

/-- The 32 bytes of an event log entry. -/
def logBytes (e : LogEnt) : List Byte :=
  let b := natLe 4 e.seq ++ natLe 6 (e.time / 1000000000) ++ natLe 4 (e.time % 1000000000) ++ [byte e.cls, byte e.code] ++ natLe 12 e.arg
  b ++ natLe 4 (crc32c b)

/-- What LOG_READ does: up to P2 entries from SEQ P0, or from the oldest held; then its extended reply. A log that holds nothing
has no oldest and newest SEQ, so the reply is a free value. -/
def logReadCmd (p : Packet) (s : State) : State :=
  let out := (s.ldg.log.filter fun e => p.p 0 ≤ e.seq).take (p.p 2)
  let x := match s.ldg.log.head?, s.ldg.log.getLast? with
    | some a, some b => a.seq + b.seq * 2 ^ 32
    | _, _ => Config.freeNat s.freeCtr % 2 ^ 64
  let s1 := if s.ldg.log.isEmpty then drawn 1 s else s
  endCmd p.slot (okRes out.length) x (cmdWrite p.slot (p.p 1) (out.flatMap logBytes) s1)

/-- LOG_READ (R479). -/
def execLogRead (slot : SlotId) (s : State) : Out := .next (runCmd slot.val 0x70 anyFlags noReads logReadCmd s)

end Sys2Proof.Machine
end

