-- ==== Sys2Proof/Machine/ModeCmds.lean ====
section
/-! DEFINITION. Address invalidation (R418), the manager's mode requests (R485, R495 to R498), the arming of a lifecycle advance
(R493), the levels that ask for attach and detach (R84 to R87) and the board mailbox (R518). -/

namespace Sys2Proof.Machine

/-! ### Address invalidation (R418) -/

/-- The instance that INST_SEL selects. -/
def selInst (s : State) : Option Nat := if s.glb.instSel ≤ mi then some s.glb.instSel else none

/-- The first address and the length of the range that the invalidation registers name. -/
def invRange (lo ctl : Nat) : Nat × Nat := ((lo + fld ctl 0 4 * 2 ^ 32) * 4096, (fld ctl 8 20 + 1) * 4096)

/-- Whether an aligned page of so many address bits overlaps a range. -/
def pageMeets (bits page : Nat) (r : Nat × Nat) : Bool := page * 2 ^ bits < r.1 + r.2 && r.1 < (page + 1) * 2 ^ bits

/-- Removes translations of an instance, and marks what was issued under them, and its walks in progress, to be waited for. -/
def invalidate (n : Nat) (gone : TlbEnt → Bool) (s : State) : State :=
  let out := s.mem.tlb.filter gone
  let under : Nat → Bool := fun iova => out.any fun e => iova / 2 ^ e.bits = e.page
  let reqs := (s.mem.hmp0.out ++ s.mem.hmp1.out).filter fun r => r.inst == n && r.viaTlb && under r.iova
  let held := s.mem.waiting.filter fun a => a.inst == n && (a.walk.isSome || (a.pa.isSome && under a.addr))
  s.modMem fun m =>
    { m with tlb := m.tlb.filter fun e => !gone e, invReqs := reqs.map Req.seq ++ held.map Access.seq,
             waiting := m.waiting.map fun a =>
               if a.inst == n then { a with walk := a.walk.map fun w => { w with stale := true } } else a }

/-- A write of INST_XL_INV_CTL. -/
def xlInvCtl (v : Nat) (s : State) : State :=
  match selInst s with
  | none => s
  | some n =>
    let ctl := fld v 0 4 + fld v 8 21 * 2 ^ 8
    let s1 := s.modMem fun m => { m with invCtl := word ctl }
    if !bit v 30 || !s.mem.invDone then s1
    else
      let r := invRange s.mem.invLo.toNat ctl
      let s2 := s1.modMem fun m => { m with invDone := false }
      if bit v 28 then bumpAsgen n (invalidate n (fun e => e.inst == n) s2)
      else invalidate n (fun e => e.inst == n && pageMeets e.bits e.page r) s2

/-- XL_INV_GO (R418): INST_XL_INV_CTL written with GO. -/
def execXlInvGo (v : RapWord) (s : State) : Out :=
  .next (rapDo 0x6014 v (fun s => if bit v.toNat 30 then xlInvCtl v.toNat s else s) s)

/-- Whether an access that an invalidation waits for has still to be answered. -/
def invHeld (s : State) : Bool :=
  s.mem.invReqs.any fun q =>
    (s.mem.hmp0.out ++ s.mem.hmp1.out).any (fun r => r.seq == q) || s.mem.waiting.any fun a => a.seq == q

/-- XL_INV_DONE (R418): no request under a removed translation is outstanding. -/
def execXlInvDone (s : State) : Out :=
  .next (if s.mem.invDone || invHeld s then s else s.modMem fun m => { m with invDone := true, invReqs := [] })

/-! ### GLB_MODE_CTL (R495, R496, R498) -/

/-- CFG_ERR of GLB_MODE_CTL. -/
def modeErr (s : State) : State := s.modModes fun m => { m with cfgErr := true }

/-- The value that the ECLIPSE bit holds: the request in force. -/
def eclipseHeld (s : State) : Bool := s.modes.mode == .eclipse && s.modes.cause = 1 && !s.modes.endAsked

/-- A write of the ECLIPSE bit. -/
def eclipseBit (b : Bool) (s : State) : State :=
  let m := s.modes
  if b = eclipseHeld s then s
  else if m.mode == .service || m.mode == .degraded then uncacheData (stopAllJobs (enterEclipse 1 s))
  else if m.mode != .eclipse || m.cause ≠ 1 then modeErr s
  else if b then s.modModes fun x => { x with endAsked := false }
  else if m.eclipseDone then leaveEclipse (backTo s m.prior) s
  else s.modModes fun x => { x with endAsked := true }

/-- Whether an armed level source whose response zeroises is active. -/
def zeroiseActive (s : State) : Bool :=
  (List.range 16).any fun k => levelSource k && armed s k && decide (4 ≤ (tRec s k).response) && (s.tsrc k).active

/-- Whether RESUME is accepted. -/
def resumeOk (s : State) : Bool :=
  s.modes.mode == .zeroised && s.cruc.root != .none && !s.port.zDriven && !s.port.zExt && !zeroiseActive s
    && !s.vault.initBusy && !s.vault.fault.toNat.testBit 4

/-- A write of RESUME (R495). -/
def resume (s : State) : State :=
  if resumeOk s then
    let s1 := s.modVigil fun v => { v with zpend := false }
    scanEnabled (reformatRings (enterMode (serviceOrDegraded s1) s1))
  else modeErr s

/-- A write of GLB_MODE_CTL, its HMP_RETURN bits apart. -/
def modeCtl (v : Nat) (s : State) : State :=
  let s1 := s.modModes fun m => { m with cfgErr := m.cfgErr && !bit v 3 }
  eclipseBit (bit v 0) (if bit v 1 then resume s1 else s1)

/-- ECLIPSE_REQUEST (R498): GLB_MODE_CTL written with ECLIPSE = 1. -/
def execEclipseRequest (v : RapWord) (s : State) : Out :=
  .next (rapDo 0x14 v (fun s => if bit v.toNat 0 then conclude (modeCtl v.toNat s) else s) s)

/-- ECLIPSE_END (R498): GLB_MODE_CTL written with ECLIPSE = 0. -/
def execEclipseEnd (v : RapWord) (s : State) : Out :=
  .next (rapDo 0x14 v (fun s => if bit v.toNat 0 then s else conclude (modeCtl v.toNat s)) s)

/-- RESUME (R495): GLB_MODE_CTL written with RESUME = 1. -/
def execResume (v : RapWord) (s : State) : Out :=
  .next (rapDo 0x14 v (fun s => if bit v.toNat 1 then conclude (modeCtl v.toNat s) else s) s)

/-- ECLIPSE_QUIESCE_COMPLETE (R498): no operation is in flight; an end that was asked for before takes place now. -/
def execEclipseQuiesceComplete (s : State) : Out :=
  .next (if s.modes.mode == .eclipse && quiesced s then
      if s.modes.cause = 1 && s.modes.endAsked then conclude (leaveEclipse (backTo s s.modes.prior) s)
      else s.modModes fun m => { m with eclipseDone := true }
    else s)

/-! ### GLB_LC_CTL (R493) -/

/-- A write of GLB_LC_CTL, its COMMIT bit apart. -/
def lcCtl (v : Nat) (s : State) : State :=
  let t := fld v 0 2
  s.modGlb fun g =>
    { g with lcTarget := t, lcCfgErr := g.lcCfgErr && !bit v 5,
             lcArmed := if bit v 2 then (if t = 1 || t = 2 then some (t, now s) else none) else g.lcArmed }

/-- LC_ARM (R493): GLB_LC_CTL written with ARM. -/
def execLcArm (v : RapWord) (s : State) : Out :=
  .next (rapDo 0x30 v (fun s => if bit v.toNat 2 && !bit v.toNat 3 then lcCtl v.toNat s else s) s)

/-! ### Attach and detach (R84 to R87) -/

/-- Starts the attach sequence from DETACHED where its levels ask for it, once Boot is over and unless the block is halted. -/
def attachMaybe (s : State) : State :=
  if powered s && s.modes.mode != .boot && !s.modes.halted && s.port.att == .detached && s.port.attReq && !s.port.detReq then
    attachStart s
  else s

/-- ATT_REQ_RISE (R84, R89). -/
def execAttReqRise (s : State) : Out := .next (attachMaybe (s.modPort fun p => { p with attReq := true }))

/-- DET_REQ_RISE (R84, R87): a detach starts, after the attach checks where they run; in a halt DET_ACK follows (R444). -/
def execDetReqRise (s : State) : Out :=
  let s1 := s.modPort fun p => { p with detReq := true }
  .next (if s.modes.halted then s1.modPort fun p => { p with detAck := true }
    else match s.port.att with
      | .attached => conclude (detachStart s1)
      | .attaching => s1.modPort fun p => { p with att := .detaching, detach := .idle }
      | _ => s1)

/-- DET_REQ_FALL (R84, R86): DETACHED lowers DET_ACK and starts an attach that is asked for; a detach is never cut short. -/
def execDetReqFall (attReq : Bool) (s : State) : Out :=
  let s1 := s.modPort fun p => { p with detReq := false, attReq := attReq }
  .next (if s.modes.halted || s.port.att == .detached then attachMaybe (s1.modPort fun p => { p with detAck := false }) else s1)

/-- DETACH_DRAIN_LIMIT (step 5 of R87). -/
def execDetachDrainLimit (s : State) : Out :=
  .next (if s.port.detach == .idle then s else conclude (s.modPort fun p => { p with detachDue := true }))

/-! ### The board mailbox (R518) -/

/-- OVF of the board mailbox. -/
def mboxOver (s : State) : State := s.modGlb fun g => { g with mboxOvf := true }

/-- A message of the host for the board. -/
def postH2b (s : State) : State := if s.glb.h2bFull then mboxOver s else raiseIbi (s.modGlb fun g => { g with h2bFull := true })

/-- A message of the board for the host. -/
def postB2h (s : State) : State := if s.glb.b2hFull then mboxOver s else faultMsg (s.modGlb fun g => { g with b2hFull := true })

/-- A write of GLB_MBOX_CTL through a path: the bits of the other path have no effect. -/
def mboxCtl (path : Path) (v : Nat) (s : State) : State :=
  match path with
  | .rap =>
    let s1 := s.modGlb fun g => { g with mboxOvf := g.mboxOvf && !bit v 6, b2hFull := g.b2hFull && !bit v 3 }
    if bit v 0 then postH2b s1 else s1
  | .i3c =>
    let s1 := s.modGlb fun g => { g with h2bFull := g.h2bFull && !bit v 1 }
    if bit v 2 then postB2h s1 else s1

/-- A write of one bit of GLB_MBOX_CTL through a path. -/
def mboxCommand (path : Path) (v : Nat) (ic : BitVec 16) (s : State) : State :=
  pathDo path 0x300 { data := word v, ic := ic } (fun s => conclude (mboxCtl path v s)) s

/-- H2B_POST (R518). -/
def execH2bPost (path : WritePath) (s : State) : Out := .next (mboxCommand path.path 1 path.ic s)

/-- H2B_ACK (R518). -/
def execH2bAck (path : WritePath) (s : State) : Out := .next (mboxCommand path.path 2 path.ic s)

/-- B2H_POST (R518). -/
def execB2hPost (path : WritePath) (s : State) : Out := .next (mboxCommand path.path 4 path.ic s)

/-- B2H_ACK (R518). -/
def execB2hAck (path : WritePath) (s : State) : Out := .next (mboxCommand path.path 8 path.ic s)

/-- A write of a mailbox word through the path that writes its direction; through the RAP the other words are read only, and the I3C
target refuses them (R57). -/
def mboxWord (path : Path) (dir : MboxDir) (i : Nat) (v : Word) (s : State) : State :=
  match path, dir with
  | .rap, .h2b => if s.glb.h2bFull then mboxOver s else s.modGlb fun g => { g with h2b := tset g.h2b 0 i v }
  | .i3c, .b2h => if s.glb.b2hFull then mboxOver s else s.modGlb fun g => { g with b2h := tset g.b2h 0 i v }
  | .rap, .b2h => s
  | .i3c, .h2b => portFault (2 ^ 25) s

/-- MBOX_WORD_WRITE (R518). -/
def execMboxWordWrite (path : Path) (dir : MboxDir) (i : Fin 32) (v : RapWord) (s : State) : Out :=
  .next (pathDo path (match dir with
    | .h2b => 0x200 + 4 * i.val
    | .b2h => 0x280 + 4 * i.val) v (mboxWord path dir i.val v.data) s)

end Sys2Proof.Machine
end

