-- ==== Sys2Proof/Machine/Regs.lean ====
section
/-! DEFINITION. The register map seen from the RAP (R507 to R514): a write of any register, by its address, through the operation that
the register's own commands use, and accesses to undefined regions (R54). -/

namespace Sys2Proof.Machine

/-- A value with the bits of a write cleared (RW1C, R15). -/
def w1c (r v : Nat) : Nat := r ^^^ (r &&& v)

/-! ### Global registers -/

/-- Whether the IC-extended bits can change: Boot, or Eclipse once its quiesce is complete (R72, R498). -/
def icxOpen (s : State) : Bool := s.modes.mode == .boot || (s.modes.mode == .eclipse && s.modes.eclipseDone)

/-- A write of GLB_PORT_CFG (R72). -/
def portCfg (v : Nat) (s : State) : State :=
  hmpMapSet 4 v (s.modPort fun p =>
    { p with icx := if !p.lock && icxOpen s then BitVec.ofNat 5 v else p.icx,
             detDrain := if p.lock then p.detDrain else fld v 16 8, lock := p.lock || bit v 31 })

/-- GLB core and ports (16, 17, 02). GLB_RESET, COMMIT and HMP_RETURN act by their own commands. -/
def glbWrite (a v : Nat) (s : State) : State :=
  if a = 0x14 then modeCtl v s
  else if a = 0x1C then s.modModes fun m => { m with fault := m.fault &&& ~~~(word v) }
  else if a = 0x20 then s.modModes fun m => { m with msgAddr := setFld m.msgAddr 2 30 (fld v 2 30) }
  else if a = 0x24 then s.modModes fun m => { m with msgAddr := setFld m.msgAddr 32 20 (fld v 0 20) }
  else if a = 0x28 then s.modModes fun m => { m with msgData := word v }
  else if a = 0x30 then lcCtl v s
  else if 0x70 ≤ a && a < 0xB0 then s.modGlb fun g => { g with scratch := tset g.scratch 0 ((a - 0x70) / 4) (word v) }
  else if a = 0x100 then portCfg v s
  else if a = 0x108 then portFaultWrite (word v) s
  else if 0x110 ≤ a && a < 0x120 then hmpMapSet ((a - 0x110) / 4) v s
  else if 0x200 ≤ a && a < 0x280 then mboxWord .rap .h2b ((a - 0x200) / 4) (word v) s
  else if a = 0x300 then mboxCtl .rap v s
  else s

/-- TMP and VGL (14). -/
def tmpWrite (a v : Nat) (s : State) : State :=
  if a = 0x414 then tmpRespWrite v s
  else if a = 0x418 then s.modTam fun t => { t with chatter := t.chatter &&& ~~~(BitVec.ofNat 16 v) }
  else if a = 0x41C then s.modTam fun t =>
    { t with disagree := t.disagree &&& ~~~(BitVec.ofNat 16 v), selftest := t.selftest &&& ~~~(BitVec.ofNat 16 (v / 2 ^ 16)) }
  else if a = 0x420 then s.modTam fun t => { t with cfgSel := fld v 0 5 }
  else if a = 0x480 then s.modVigil fun g =>
    { g with retainLost := g.retainLost && !bit v 1, calLost := g.calLost && !bit v 2, vZeroise := g.vZeroise && !bit v 3 }
  else if a = 0x48C then s.modVigil fun g => { g with logSel := fld v 0 5 }
  else s

/-- ORY and LDG (15). -/
def oryWrite (a v : Nat) (s : State) : State :=
  if a = 0x500 then s.modOry fun o => { o with mbxOvf := o.mbxOvf && !bit v 3 }
  else if a = 0x504 then s.modOry fun o => { o with ctrlRing := if o.lock then o.ctrlRing else fld v 0 12, lock := o.lock || bit v 31 }
  else if a = 0x50C then attestCtl v s
  else if 0x510 ≤ a && a < 0x530 then s.modOry fun o => { o with nonce := tset o.nonce 0 ((a - 0x510) / 4) (word v) }
  else if a = 0x600 then s.modLdg fun l => { l with writeFail := l.writeFail && !bit v 4 }
  else s

/-- The limiter follows a write of a Bellows register at the next round boundary: 0xFF with EN = 0, else at most MAN_LIMIT
(R236, R237). -/
def limitFollow (s : State) : State :=
  s.modBlw fun b =>
    { b with pendLimit := if b.faulted then b.pendLimit else if b.en then min b.autoLimit b.manLimit else 0xFF }

/-- BLW_CFG (R237): with EN = 0 all eight logical Forges are active. -/
def blwCfg (v : Nat) (s : State) : State :=
  let s1 := limitFollow (s.modBlw fun b =>
    { b with en := bit v 0, step := fld v 1 3, minForges := fld v 4 4, minCode := fld v 8 6, maxCode := fld v 16 6, period := fld v 24 8 })
  if bit v 0 then s1 else wakeAll s1

/-- LANE, BLW and FRG (06, 12). -/
def laneWrite (a v : Nat) (s : State) : State :=
  if a = 0x2184 then s.modFab fun b =>
    { b with fifoUnder := b.fifoUnder && !bit v 13, fifoOver := b.fifoOver && !bit v 14, fifoEn := bit v 15 }
  else if a = 0x2200 then blwCfg v s
  else if a = 0x2204 then s.modBlw fun b => { b with pmax := fld v 0 10, tj := fld v 16 8 }
  else if a = 0x220C then limitFollow (s.modBlw fun b => { b with manLimit := fld v 0 8 })
  else if 0x2304 ≤ a && a < 0x2348 && a % 8 = 4 then s.modForge ((a - 0x2304) / 8) fun f => { f with fault := w1c f.fault (fld v 0 12) }
  else s

/-- VLT (07). -/
def vltWrite (a v : Nat) (s : State) : State :=
  if a = 0x3000 then s.modVault fun x => if x.lock then x else { x with recBase := word v }
  else if a = 0x3004 then s.modVault fun x => if x.lock then x else { x with treeBase := word v }
  else if a = 0x3008 then vltCtl (word v) s
  else if a = 0x3014 then s.modVault fun x => { x with fault := x.fault &&& ~~~(word v) }
  else s

/-- DGC, ANV and CRC (09 to 11). -/
def keyWrite (a v : Nat) (s : State) : State :=
  if a = 0x3400 then s.modDig fun d => { d with early := d.early && !bit v 8 }
  else if a = 0x3404 then s.modDig fun d => { d with fault := d.fault &&& ~~~(word v) }
  else if a = 0x3408 then s.modDig fun d => { d with slotSel := fld v 0 12 }
  else if a = 0x3804 then s.modAnv fun x => { x with fault := x.fault &&& ~~~(word v) }
  else if a = 0x3820 then s.modAnv fun x =>
    { x with reseedMs := if x.lock then x.reseedMs else fld v 0 10, lock := x.lock || bit v 31 }
  else if a = 0x3828 then s.modAnv fun x => { x with esFault := x.esFault &&& ~~~(word v) }
  else if a = 0x3C04 then s.modCruc fun c => { c with bankFault := w1c c.bankFault (fld v 0 9) }
  else if a = 0x3C08 then s.modCruc fun c => { c with period := if c.lock then c.period else fld v 0 10, lock := c.lock || bit v 31 }
  else if a = 0x3C0C then s.modCruc fun c => { c with late := c.late && !bit v 1 }
  else if a = 0x3C10 then s.modCruc fun c => { c with ksel := fld v 0 13 }
  else s

/-- SPn at offset `o` of port `p` (12). -/
def spWrite (p o v : Nat) (s : State) : State :=
  if o = 0 then s.modSp p fun x => { x with stubEn := bit v 0 }
  else if o = 4 then s.modSp p fun x => { x with cfgErr := x.cfgErr && !bit v 16 }
  else if o = 0x10 then s.modSp p fun x => { x with cntSel := word (fld v 0 8 + fld v 8 7 * 2 ^ 8 + fld v 16 1 * 2 ^ 16) }
  else if 0x20 ≤ o && o < 0x40 then setWm p ((o - 0x20) / 4) v s
  else if 0x40 ≤ o && o < 0x50 then s.modSp p fun x =>
    { x with ctrlEt := x.ctrlEt.set ((o - 0x40) / 4) (word (fld v 0 19 + fld v 31 1 * 2 ^ 31)) }
  else s

/-- POL (12): the rate and burst registers stage (R398). -/
def polWrite (a v : Nat) (s : State) : State :=
  let sel := s.str.polSel.toNat
  let stage := s.modPol (fld sel 0 7) (fld sel 7 1)
  if a = 0x4800 then s.modStr fun t => { t with polSel := word (fld v 0 8) }
  else if a = 0x4804 then polCtl v s
  else if a = 0x4808 then stage fun q => { q with sCir := fld v 0 21 }
  else if a = 0x480C then stage fun q => { q with sPir := fld v 0 21 }
  else if a = 0x4810 then stage fun q => { q with sCbs := fld v 0 24 }
  else if a = 0x4814 then stage fun q => { q with sPbs := fld v 0 24 }
  else s

/-- A write that changes the administrative list of a gate: refused while a takeover is scheduled (R404). -/
def adminWrite (p : Nat) (f : Gate → Gate) (s : State) : State := if (s.sp p).gate.pending.isSome then gateErr p s else s.modGate p f

/-- A write of the entry that GATE_n_SEL selects: the operating list cannot be written. -/
def gateEntry (p : Nat) (f : GateEnt → GateEnt) (s : State) : State :=
  if (s.sp p).gate.selOper then gateErr p s else adminWrite p (fun g => { g with admin := tmod g.admin {} g.selEntry f }) s

/-- GATE_n at offset `o` of port `p` (12). -/
def gateWrite (p o v : Nat) (s : State) : State :=
  if o = 0 then gateCtl p v s
  else if o = 4 then s.modGate p fun g => { g with cfgErr := g.cfgErr && !bit v 9 }
  else if o = 8 then s.modGate p fun g => { g with selEntry := fld v 0 8, selOper := bit v 8 }
  else if o = 0xC then gateEntry p (fun e => { e with gates := fld v 0 8 }) s
  else if o = 0x10 then gateEntry p (fun e => { e with ns := fld v 0 30 }) s
  else if o = 0x14 then adminWrite p (fun g => { g with cycle := fld v 0 30 }) s
  else if o = 0x18 then adminWrite p (fun g => { g with len := fld v 0 9 }) s
  else if o = 0x1C then adminWrite p (fun g => { g with baseSec := setFld g.baseSec 0 32 v }) s
  else if o = 0x20 then adminWrite p (fun g => { g with baseSec := setFld g.baseSec 32 16 v }) s
  else if o = 0x24 then adminWrite p (fun g => { g with baseNs := fld v 0 30 }) s
  else s

/-- The INST window and SHP (13). -/
def windowWrite (a v : Nat) (s : State) : State :=
  if a = 0x6000 then s.modGlb fun g => { g with instSel := fld v 0 8 }
  else match selInst s with
    | none => s
    | some i =>
      if a = 0x6004 then shpCtl i v s
      else if a = 0x6008 then s.modInst i fun x => { x with shpBurst := fld v 0 24 }
      else if a = 0x6010 then s.modMem fun m => { m with invLo := word v }
      else if a = 0x6014 then xlInvCtl v s
      else s

/-- A write in the global region. -/
def globalWrite (a v : Nat) (s : State) : State :=
  if a < 0x400 then glbWrite a v s
  else if a < 0x500 then tmpWrite a v s
  else if a < 0x1000 then oryWrite a v s
  else if a < 0x3000 then laneWrite a v s
  else if a < 0x3400 then vltWrite a v s
  else if a < 0x4000 then keyWrite a v s
  else if a < 0x4800 then spWrite ((a - 0x4000) / 0x400) (a % 0x400) v s
  else if a < 0x5000 then polWrite a v s
  else if a < 0x5200 then gateWrite ((a - 0x5000) / 0x100) (a % 0x100) v s
  else windowWrite a v s

/-! ### Instance pages (R94, R95, R282, R420, R509) -/

/-- A change of the base or size of a submission ring: only while it is DISABLED (R95). -/
def ringBase (n : Nat) (f : Ring → Ring) (s : State) : State :=
  s.modRing n fun r => if f r = r then r else if r.st == .disabled then f r else { r with cfgErr := true }

/-- A change of the base or size of a notification ring: only while it is DISABLED (R95). -/
def nrBase (k : Nat) (f : Notif → Notif) (s : State) : State :=
  s.modNr k fun r => if f r = r then r else if !r.enabled then f r else { r with cfgErr := true }

/-- A write of RING_BASE_LO. -/
def ringBaseLo (i v : Nat) (s : State) : State :=
  let put := fun b => setFld b 12 20 (fld v 12 20)
  match winRing s i, winNr s i with
  | some n, _ => ringBase n (fun r => { r with size := fld v 0 4, base := put r.base }) s
  | none, some k => nrBase k (fun r => { r with size := fld v 0 4, base := put r.base }) s
  | none, none => s

/-- A write of RING_BASE_HI. -/
def ringBaseHi (i v : Nat) (s : State) : State :=
  let put := fun b => setFld b 32 16 (fld v 0 16)
  match winRing s i, winNr s i with
  | some n, _ => ringBase n (fun r => { r with base := put r.base }) s
  | none, some k => nrBase k (fun r => { r with base := put r.base }) s
  | none, none => s

/-- A write of RING_CTL. -/
def ringCtlWrite (i v : Nat) (s : State) : State :=
  match winRing s i, winNr s i with
  | some n, _ => ringCtl n v s
  | none, some k => nrCtl k v s
  | none, none => s

/-- Whether every submission ring of an instance is DISABLED. -/
def ringsOff (s : State) (i : Nat) : Bool := s.rings.all fun p => ringOwner s p.1 != some i || p.2.st == .disabled

/-- A write of RING_DH_BASE: refused in the RING_CTL of the selected ring while a submission ring runs (R96). The register is the
instance's, and RANGE_ERR of the ring selection does not close it (log entry 170). -/
def dhBaseWrite (i v : Nat) (s : State) : State :=
  if ringsOff s i then s.modInst i fun x => { x with dhBase := word v }
  else match winRing s i, winNr s i with
    | some n, _ => s.modRing n fun r => { r with cfgErr := true }
    | none, some k => s.modNr k fun r => { r with cfgErr := true }
    | none, none => s

/-- A write of INST_FLT_CTL. -/
def fltCtl (i v : Nat) (s : State) : State :=
  s.modInst i fun x =>
    { x with fltEn := bit v 0, fltOvf := x.fltOvf && !bit v 1, fltIrq := bit v 2, fltVec := fld v 3 3 }

/-- A write of a table register that only a DISABLED table accepts (R282). -/
def sitBase (i : Nat) (f : Sit → Sit) (s : State) : State :=
  s.modTable i fun t => if t.st == .disabled then f t else { t with cfgErr := true }

/-- A write at offset `o` of the page of instance `i`; MI has no SA Index Table and no tenant event FIFO. -/
def pageWrite (i o v : Nat) (s : State) : State :=
  if o = 4 then vecCtl i v s
  else if o = 0xC then fltCtl i v s
  else if o = 0x20 then ringSelWrite i v s
  else if o = 0x24 then ringBaseLo i v s
  else if o = 0x28 then ringBaseHi i v s
  else if o = 0x2C then ringCtlWrite i v s
  else if o = 0x30 then (match winRing s i with
    | some n => ringInvWrite n v s
    | none => s)
  else if o = 0x34 then dhBaseWrite i v s
  else if i = mi then s
  else if o = 0x40 then sitBase i (fun t => { t with size := fld v 0 5, base := setFld t.base 12 20 (fld v 12 20) }) s
  else if o = 0x44 then sitBase i (fun t => { t with base := setFld t.base 32 16 (fld v 0 16), seed := fld v 16 16 }) s
  else if o = 0x48 then sitBase i (fun t => { t with evtBase := v }) s
  else if o = 0x4C then sitCtl i v s
  else if o = 0x54 then s.modInst i fun x => { x with evtUnder := x.evtUnder && !bit v 13, evtOver := x.evtOver && !bit v 14 }
  else s

/-! ### The whole map (R54, R70, R507, R510) -/

/-- Whether an address lies in an undefined region. -/
def unmapped (a : Nat) : Bool := (0x910000 ≤ a && a ≤ 0x9FFFFF) || 0xB00000 ≤ a

/-- An access to an undefined region: RAP_ERR, read data zero and RAP_UNMAPPED. -/
def unmappedAccess (s : State) : State := portFault (2 ^ 24) (s.modPort fun p => { p with rapErr := true, rapData := 0 })

/-- A write of the doorbell region. -/
def bellWrite (o : Nat) (s : State) : State :=
  match (if o / 0x1000 ≤ mi then doorbellRing s (o / 0x1000) (o % 0x1000 / 4) else none) with
  | none => s
  | some n => ringBell n s

/-- A write of a word at an address; the RAP carries no address bits below bit 2 (R52). -/
def regWrite (addr v : Nat) (s : State) : State :=
  let a := addr / 4 * 4
  if unmapped a then unmappedAccess s
  else if a < 0x100000 then globalWrite a v s
  else if a < 0x910000 then pageWrite ((a - 0x100000) / 0x10000) (a % 0x10000) v s
  else bellWrite (a - 0xA00000) s

/-- CONFIG_REGISTER_WRITE (R15, R17, R70, R95). -/
def execConfigRegisterWrite (addr : BitVec 24) (v : Word) (ic : BitVec 16) (s : State) : Out :=
  .next (rapDo addr.toNat { data := v, ic := ic } (fun s => conclude (regWrite addr.toNat v.toNat s)) s)

/-- RAP_UNMAPPED_ACCESS (R54): a read, or the write of a word. -/
def execRapUnmappedAccess (addr : BitVec 24) (write : Option RapWord) (s : State) : Out :=
  let f := fun (s : State) => if unmapped addr.toNat then unmappedAccess s else s
  .next (match write with
    | some v => rapDo addr.toNat v f s
    | none => rapOpen (fun s => rapAnswer addr.toNat (unmapped addr.toNat) 0 (f s)) s)

end Sys2Proof.Machine
end

