-- ==== Sys2Proof/Machine/RegRead.lean ====
section
/-! DEFINITION. What each register reads as (R507 to R519 and the register tables of every chapter). Reads that act are in
`Machine/Reads.lean`. -/

namespace Sys2Proof.Machine

/-! ### Codes of states -/

/-- STATE of a ring, table or policer. -/
def rCode : RState → Nat
  | .disabled => 0 | .enabled => 1 | .stopping => 2 | .pendingEnable => 3

/-- Whether the ENABLE bit of such a state reads 1: the last request was to enable. -/
def rOn (r : RState) : Bool := r == .enabled || r == .pendingEnable

/-- STATE of FRG_m_STATUS. -/
def fCode : FState → Nat
  | .active => 0 | .spare => 1 | .gated => 2 | .retiring => 3 | .retired => 4 | .failed => 5 | .restoring => 6

/-- STATE of CRC_KINFO. -/
def kStateCode : KState → Nat
  | .empty => 0 | .valid => 1 | .invalid => 2 | .offered => 3

/-- KIND of CRC_KINFO. -/
def kKindCode : KKind → Nat
  | .none => 0 | .inst => 1 | .parent => 2 | .transport => 3 | .system => 4 | .context => 0

/-- ROOT of CRC_STATUS. -/
def rootCode : Root → Nat
  | .none => 0 | .copper => 1 | .silver => 2 | .tin => 3

/-- STATE of ANV_DRBG_STATUS. -/
def drbgCode : DrbgState → Nat
  | .unseeded => 0 | .starting => 1 | .running => 2 | .single => 3 | .stopped => 4

/-! ### GLB (02, 16, 17) -/

/-- GLB_MODE (R484). -/
def glbMode (s : State) : Nat :=
  let m := s.modes
  modeCode m.mode + (if m.mode == .eclipse then modeCode m.prior else 0) * 2 ^ 4 + m.cause * 2 ^ 8
    + flags [(m.dpStopped, 10), (m.halted, 11), (s.vigil.zpend, 12)]

/-- GLB_LC_CTL (R493): ARMED for 1 ms. -/
def glbLcCtl (s : State) : Nat :=
  let g := s.glb
  g.lcTarget + flags [((g.lcArmed.map fun a => decide (now s - a.2 ≤ 1000000)).getD false, 4), (g.lcCfgErr, 5), (g.dbgLocked, 10)]
    + g.dbgFails * 2 ^ 8

/-- GLB_LOCK_STATUS. -/
def lockStatus (s : State) : Nat :=
  flags [(s.port.lock, 0), (s.vault.lock, 1), (s.anv.lock, 2), (s.cruc.lock, 3), (s.ory.lock, 4), (s.tam.locked, 5)]

/-- GLB_TIME_SEC_HI and GLB_TIME_NS of the latch of a path. -/
def timeLatched (path : Path) (s : State) (ns : Bool) : Nat :=
  let t := match path with
    | .rap => s.time.latchRap
    | .i3c => s.time.latchI3c
  let lost := match path with
    | .rap => s.time.lostRap
    | .i3c => s.time.lostI3c
  if ns then t % 1000000000 else fld (t / 1000000000) 32 16 + b2n lost * 2 ^ 31

/-- Bits of GLB_INST_EN_j. -/
def instEn (s : State) (j : Nat) : Nat := flags ((List.range 32).map fun k => ((s.inst (32 * j + k)).st == .enabled, k))

/-- Whether the start-up has read the fuses: the registers of the tamper chain hold their reset values until then (R80, R450). -/
def fusesRead (s : State) : Bool := s.modes.stage != .atStart

/-- Instances that an HMP serves, MI included (R519); the reset value of the register, zero, until the start-up has begun. -/
def hmpMapped (s : State) (k : Nat) : Nat :=
  if fusesRead s then ((List.range 129).filter fun i => hmpOf s i = k).length else 0

/-- HMPk at offset `o` from its status register. -/
def hmpReg (s : State) (k o : Nat) : Nat :=
  if o = 0 then (s.hmp k).out.length + hmpMapped s k * 2 ^ 16 + b2n (hmpUsable s k) * 2 ^ 24
  else if o ≤ 0x20 then tget (s.hmp k).cnt 0 ((o - 4) / 4)
  else 0

/-- GLB core, ports, HMPs and the board mailbox. -/
def glbRead (path : Path) (a : Nat) (s : State) : Nat :=
  if a = 0 then 0x00030001
  else if a = 4 then 0x00800849
  else if a = 8 then fld Config.serial 0 32
  else if a = 0xC then fld Config.serial 32 32
  else if a = 0x10 then glbMode s
  else if a = 0x14 then flags [(eclipseHeld s, 0), (s.modes.eclipseDone, 2), (s.modes.cfgErr, 3)]
  else if a = 0x18 then degrade s
  else if a = 0x1C then s.modes.fault.toNat
  else if a = 0x20 then fld s.modes.msgAddr 2 30 * 4
  else if a = 0x24 then fld s.modes.msgAddr 32 20
  else if a = 0x28 then s.modes.msgData.toNat
  else if a = 0x30 then glbLcCtl s
  else if a = 0x44 then timeLatched path s false
  else if a = 0x48 then timeLatched path s true
  else if 0x50 ≤ a && a < 0x60 then instEn s ((a - 0x50) / 4)
  else if a = 0x60 then lockStatus s
  else if 0x70 ≤ a && a < 0xB0 then (tget s.glb.scratch 0 ((a - 0x70) / 4)).toNat
  else if a = 0x100 then s.port.icx.toNat + flags [(s.port.miHmp, 8), (s.port.lock, 31)] + s.port.detDrain * 2 ^ 16
  else if a = 0x104 then portStatus s ||| (if path == .rap then 0x20 else 0)
  else if a = 0x108 then s.port.fault.toNat
  else if 0x110 ≤ a && a < 0x120 then fld s.port.hmpMap.toNat (32 * ((a - 0x110) / 4)) 32
  else if 0x140 ≤ a && a < 0x1C0 then hmpReg s ((a - 0x140) / 0x40) (a % 0x40)
  else if 0x200 ≤ a && a < 0x280 then (tget s.glb.h2b 0 ((a - 0x200) / 4)).toNat
  else if 0x280 ≤ a && a < 0x300 then (tget s.glb.b2h 0 ((a - 0x280) / 4)).toNat
  else if a = 0x300 then flags [(s.glb.h2bFull, 4), (s.glb.b2hFull, 5), (s.glb.mboxOvf, 6)]
  else 0

/-! ### TMP and VGL (02, 14) -/

/-- Class of source `k` while it is active. -/
def pinClass (s : State) (k : Nat) : Nat := if (s.tsrc k).active then (s.tsrc k).cls else 0

/-- Class of a mesh pair: DISARMED while its source is not armed (R76), and before the start-up has read the fuses (R80). -/
def meshClass (s : State) (k : Nat) : Nat := if armed s k && fusesRead s then pinClass s k else 6

/-- TMP_PIN_STATUS (R80). -/
def pinStatus (s : State) : Nat :=
  meshClass s 0 % 8 + meshClass s 1 % 8 * 2 ^ 3
    + ((List.range 4).map fun k => pinClass s (2 + k) % 4 * 2 ^ (6 + 2 * k)).sum + pinClass s 7 % 4 * 2 ^ 16
    + b2n s.vigil.xtalLost * 2 ^ 18

/-- A tamper record as a number (R448). -/
def tRecNum (r : TRec) : Nat :=
  flags [(r.arm, 0), (r.vigilArm, 1), (r.polarity, 56)] + r.response * 2 ^ 2 + r.n * 2 ^ 8 + r.w * 2 ^ 16 + r.debounce * 2 ^ 40
    + r.rearm * 2 ^ 48

/-- The record that TMP_CFG_SEL selects. -/
def cfgShown (s : State) : Nat := if s.tam.cfgSel < 18 then tRecNum (tRec s s.tam.cfgSel) else 0

/-- Word 0 or 1 of a retained log entry. -/
def vlogWord (e : VLog) (w : Nat) : Nat :=
  if w = 0 then fld e.sec 0 32
  else fld e.sec 32 16 + e.source % 32 * 2 ^ 16 + e.kind % 4 * 2 ^ 21 + e.response % 8 * 2 ^ 23 + e.cls % 32 * 2 ^ 26 + 2 ^ 31

/-- VGL_LOG_DATA: entry 0 is the newest. -/
def vlogShown (s : State) : Nat :=
  match s.vigil.log.reverse[s.vigil.logSel % 16]? with
  | some e => vlogWord e (s.vigil.logSel / 16)
  | none => 0

/-- TMP and VGL, their FIFO apart. -/
def tmpRead (a : Nat) (s : State) : Nat :=
  if a = 0x400 then pinStatus s
  else if a = 0x404 then flags ((List.range 16).map fun k => ((s.tsrc k).active, k))
    + flags ((List.range 16).map fun k => ((s.tsrc k).ready && fusesRead s, 16 + k))
  else if a = 0x408 then flags ((List.range 18).map fun k => (armed s k && fusesRead s, k))
  else if a = 0x40C then s.tam.disabled.toNat
  else if a = 0x414 then flags [(s.tam.frozen, 0), (s.modes.halted, 4), (s.tam.evtOvf, 5), (s.tam.locked, 6), (s.tam.fusedTable, 7)]
    + s.tam.last * 2 + s.tam.alarms * 2 ^ 16
  else if a = 0x418 then s.tam.chatter.toNat
  else if a = 0x41C then s.tam.disagree.toNat + s.tam.selftest.toNat * 2 ^ 16
  else if a = 0x420 then s.tam.cfgSel
  else if a = 0x424 then fld (cfgShown s) 0 32
  else if a = 0x428 then fld (cfgShown s) 32 32
  else if a = 0x480 then flags [(s.vigil.root.isSome, 0), (s.vigil.retainLost, 1), (s.vigil.calLost, 2), (s.vigil.vZeroise, 3)]
    + s.vigil.log.length * 2 ^ 4 + min 127 s.vigil.logLost * 2 ^ 9 + flags ((List.range 16).map fun k => (vigilArmed s k, 16 + k))
  else if a = 0x484 then fld s.vigil.sec 0 32
  else if a = 0x488 then fld s.vigil.sec 32 16 + s.vigil.frac % 2 ^ 15 * 2 ^ 16
  else if a = 0x48C then s.vigil.logSel
  else if a = 0x490 then vlogShown s
  else 0

/-! ### ORY and LDG (15) -/

/-- WEAR of LDG_STATUS: the highest erase count in percent of 10^10, saturating. -/
def wearShown (l : LedgerSt) : Nat := min 255 ((l.wear.foldl (fun m p => max m p.2) 0) * 100 / 10 ^ 10)

/-- LDG_IMAGE. -/
def ldgImage (s : State) : Nat :=
  let l := s.ldg
  flags [(l.yActive, 0), ((spareImage s 0).staged, 1), ((spareImage s 0).prev, 2), (l.yFallback, 3), (l.yRom, 4), (l.mActive, 8),
         ((spareImage s 1).staged, 9), ((spareImage s 1).prev, 10), (l.mFallback, 11)] + l.yMin % 256 * 2 ^ 16 + l.mMin % 256 * 2 ^ 24

/-- ORY and LDG, their FIFOs apart. -/
def oryRead (a : Nat) (s : State) : Nat :=
  let l := s.ldg
  if a = 0x500 then oryStatus s
  else if a = 0x504 then s.ory.ctrlRing + b2n s.ory.lock * 2 ^ 31
  else if a = 0x50C then s.ory.verifier + b2n s.ory.attProv * 2 ^ 3 + s.ory.attStatus * 2 ^ 8
  else if 0x510 ≤ a && a < 0x530 then (tget s.ory.nonce 0 ((a - 0x510) / 4)).toNat
  else if a = 0x600 then flags [(l.active, 0), (l.aValid, 1), (l.bValid, 2), (l.factory, 3), (l.writeFail, 4)] + wearShown l * 2 ^ 8
    + l.vkeyGen % 2 ^ 16 * 2 ^ 16
  else if a = 0x604 then l.seq
  else if a = 0x608 then ldgImage s
  else if a = 0x60C then l.cursor % 2 ^ 24 + b2n l.reseal * 2 ^ 24
  else 0

/-! ### DSP, NR summary, LANE, BLW and FRG (06, 17) -/

/-- The logical Forge that physical Forge `m` runs (R232). -/
def logicalOf (s : State) (m : Nat) : Option Nat := (List.range 8).find? fun l => s.phys l = m

/-- Save slots of physical Forge `m` in use, of which eight belong to each lane (R201). -/
def forgeSaves (s : State) (m : Nat) : List Nat := ((logicalOf s m).map (savesUsed s)).getD []

/-- LANE_n_STATUS; a lane reads OFF, the reset value, until Boot has powered its Forge. -/
def laneStatus (s : State) (n : Nat) : Nat :=
  let m := n / 4
  let f := s.forge m
  let busy : Bool := match logicalOf s m with
    | some l => (laneRuns s).any fun r => r.place == .lane l (n % 4) && !r.saved && r.tokens != 0
    | none => false
  let st := if (f.failing || f.st == .failed) && f.fault.testBit (8 + n % 4) then 3
    else if !s.fab.booted || !forgePowered f then 0
    else if busy then 2 else 1
  st + ((forgeSaves s m).filter fun k => k / 8 = n % 4).length * 2 ^ 8 + (s.lane n).faults * 2 ^ 16

/-- FRG_m_STATUS (R230). -/
def frgStatus (s : State) (m : Nat) : Nat :=
  let f := s.forge m
  let l := if f.st == .active || f.st == .gated then f.logical else 0
  fCode f.st + flags [(f.pend, 3), (((logicalOf s m).map (combinerBusy s)).getD false, 7)] + l * 2 ^ 4
    + (forgeSaves s m).length * 2 ^ 8 + f.mcode * 2 ^ 16

/-- DSP, NR summary, LANE, BLW and FRG, their FIFO apart. -/
def laneRead (a : Nat) (s : State) : Nat :=
  let b := s.fab.bellows
  if a = 0x1000 then dspStatus s
  else if 0x1100 ≤ a && a < 0x1120 then flags ((List.range 32).map fun k => ((s.nr (32 * ((a - 0x1100) / 4) + k)).ovf, k))
  else if 0x2000 ≤ a && a < 0x2120 then
    let n := (a - 0x2000) / 8
    if a % 8 = 0 then (s.lane n).rate + (s.lane n).busy * 2 ^ 16 else laneStatus s n
  else if a = 0x2184 then s.fab.fifo.length
    + flags [(s.fab.fifo.isEmpty, 12), (s.fab.fifoUnder, 13), (s.fab.fifoOver, 14), (s.fab.fifoEn, 15)]
  else if a = 0x2200 then b2n b.en + b.step * 2 + b.minForges * 2 ^ 4 + b.minCode * 2 ^ 8 + b.maxCode * 2 ^ 16 + b.period * 2 ^ 24
  else if a = 0x2204 then b.pmax + b.tj * 2 ^ 16
  else if a = 0x2208 then blwStatus s
  else if a = 0x220C then b.manLimit + b.pwrEst * 2 ^ 16
  else if 0x2300 ≤ a && a < 0x2348 then
    let m := (a - 0x2300) / 8
    if a % 8 = 0 then frgStatus s m else frgFault s m
  else if a = 0x2348 then ((List.range 8).map fun l => s.phys l % 16 * 2 ^ (4 * l)).sum
  else 0

/-! ### VLT, DGC, ANV and CRC (07, 09 to 11) -/

/-- VLT. -/
def vltRead (a : Nat) (s : State) : Nat :=
  let v := s.vault
  if a = 0x3000 then v.recBase.toNat
  else if a = 0x3004 then v.treeBase.toNat
  else if a = 0x3008 then flags [(v.en, 0), (v.autoFetch, 1), (v.lock, 31)] + v.freeMin * 2 ^ 8
  else if a = 0x300C then flags [(s.ory.st == .running, 0), (!v.en && v.fetches.isEmpty && v.evicts.isEmpty && !v.initBusy, 1),
    (v.initBusy, 2)] + v.fetches.length * 2 ^ 8
  else if a = 0x3010 then s.ctx.length
  else if a = 0x3014 then v.fault.toNat
  else if a = 0x3018 then v.faultHandle
  else 0

/-- The slot that CRC_KSEL selects. -/
def kselSlot (s : State) : Option KeySlot :=
  let i := s.cruc.ksel
  if i < 0x1000 then some (s.parent i) else if i < 0x1010 then some (s.sysKey (i - 0x1000)) else none

/-- CRC_KINFO. -/
def kInfo (k : KeySlot) : Nat :=
  kStateCode k.st + kKindCode k.kind * 2 ^ 2 + k.depth * 2 ^ 5 + k.bits * 2 ^ 8 + b2n k.absent * 2 ^ 10 + k.owner * 2 ^ 16

/-- CRC; PARENT_FREE reads its reset value, zero, while no bank is in service. -/
def crcRead (a : Nat) (s : State) : Nat :=
  let c := s.cruc
  if a = 0x3C00 then c.bankUp.toNat + rebuildCode c.bankUp * 2 ^ 5 + lifeCode s * 2 ^ 8 + rootCode c.root * 2 ^ 10
    + flags [(c.debug, 12), (c.rootFault, 13)] 
      + (if c.bankUp = 0 then 0 else parentFree s) * 2 ^ 16
  else if a = 0x3C04 then bankFaultReg s
  else if a = 0x3C08 then c.period + b2n c.lock * 2 ^ 31
  else if a = 0x3C0C then flags [(c.stalled, 0), (c.late, 1)] + c.passes * 2 ^ 8
  else if a = 0x3C10 then c.ksel
  else if a = 0x3C14 then ((kselSlot s).map kInfo).getD 0
  else if a = 0x3C18 then ((kselSlot s).map KeySlot.gen).getD 0
  else if a = 0x3C1C then ((kselSlot s).map KeySlot.parent).getD 0
  else if a = 0x3C20 then c.zLast + flags [(c.zFail, 2), (c.zFill, 3)] + c.zCount * 2 ^ 16
  else 0

/-- DGC_SLOT_INFO. -/
def slotInfo (free : Nat) (h : HSlot) : Nat :=
  flags [(h.valid, 0), (h.pending, 3)] + h.hash * 2 + (if h.owner = 0xFF then free else h.owner) * 2 ^ 4 + h.gen * 2 ^ 12 + h.failCnt * 2 ^ 20

/-- DGC, ANV and CRC, the measurements apart. -/
def keyRead (a : Nat) (s : State) : Nat :=
  let d := s.dig
  let x := s.anv
  if a = 0x3400 then d.pipeUp.toNat + b2n d.early * 2 ^ 8 + d.measDone.toNat * 2 ^ 12
    + (digestSaves s).length * 2 ^ 16
  else if a = 0x3404 then d.fault.toNat
  else if a = 0x3408 then d.slotSel
  else if a = 0x340C then slotInfo d.noOwner (tget d.slots {} d.slotSel)
  else if a = 0x3800 then x.up.toNat + ((List.range 4).map (unitLoad s)).sum * 2 ^ 8
  else if a = 0x3804 then x.fault.toNat
  else if a = 0x3820 then x.reseedMs + b2n x.lock * 2 ^ 31
  else if a = 0x3824 then drbgCode x.drbg + flags [(x.aUp, 3), (x.bUp, 4)] + x.aBuf * 2 ^ 8 + x.bBuf * 2 ^ 12
  else if a = 0x3828 then x.esFault.toNat
  else if a = 0x382C then x.reseeds
  else crcRead a s

/-! ### SP, POL, GATE and the INST window (12, 13) -/

/-- SPn at offset `o`. -/
def spRead (p o : Nat) (s : State) : Nat :=
  let x := s.sp p
  if o = 0 then b2n x.stubEn
  else if o = 4 then (xoff s p).toNat + x.egLatch.toNat * 2 ^ 8 + b2n x.cfgErr * 2 ^ 16
  else if o = 8 then (4096 - ((List.range 8).map (inOcc x)).sum) + (4096 - ((List.range 8).map (egOcc x)).sum) * 2 ^ 16
  else if o = 0x10 then x.cntSel.toNat
  else if o = 0x18 then x.cntHiRap.toNat
  else if 0x20 ≤ o && o < 0x40 then (x.wmOf ((o - 0x20) / 4)).low + (x.wmOf ((o - 0x20) / 4)).high * 2 ^ 16
  else if 0x40 ≤ o && o < 0x50 then (x.ctrlEt.getD ((o - 0x40) / 4) 0).toNat
  else 0

/-- POL: the rates and bursts in force. -/
def polRead (a : Nat) (s : State) : Nat :=
  let sel := s.str.polSel.toNat
  let q := s.pol (fld sel 0 7) (fld sel 7 1)
  if a = 0x4800 then sel
  else if a = 0x4804 then flags [(rOn q.st, 0), (q.aware, 1), (q.redMark, 2), (q.cfgErr, 6)] + rCode q.st * 2 ^ 4
  else if a = 0x4808 then q.cir
  else if a = 0x480C then q.pir
  else if a = 0x4810 then q.cbs
  else if a = 0x4814 then q.pbs
  else 0

/-- The entry that GATE_n_SEL selects. -/
def gateShown (g : Gate) : GateEnt := if g.selOper then g.oper.getD g.selEntry {} else tget g.admin {} g.selEntry

/-- GATE_n at offset `o`. -/
def gateRead (p o : Nat) (s : State) : Nat :=
  let g := (s.sp p).gate
  if o = 0 then b2n g.en + g.lostAct * 2 ^ 2 + g.ovh * 2 ^ 8 + g.line * 2 ^ 16
  else if o = 4 then g.cur + flags [(g.pending.isSome, 8), (g.cfgErr, 9), (g.en && s.time.lost, 10)] + g.oper.length * 2 ^ 16
  else if o = 8 then g.selEntry + b2n g.selOper * 2 ^ 8
  else if o = 0xC then (gateShown g).gates
  else if o = 0x10 then (gateShown g).ns
  else if o = 0x14 then g.cycle
  else if o = 0x18 then g.len
  else if o = 0x1C then fld g.baseSec 0 32
  else if o = 0x20 then fld g.baseSec 32 16
  else if o = 0x24 then g.baseNs
  else if o = 0x28 then g.operCycle
  else 0

/-- SHP_LEVEL: bytes in two's complement. -/
def shpShown (x : Inst) : Nat := ((x.shpLevel / 8) % 2 ^ 32).toNat

/-- The INST window and SHP. -/
def windowRead (a : Nat) (s : State) : Nat :=
  if a = 0x6000 then s.glb.instSel
  else match selInst s with
    | none => 0
    | some i =>
      let x := s.inst i
      if a = 0x6004 then x.shpRate + flags [(x.shpErr, 29), (x.shpEn, 31)]
      else if a = 0x6008 then x.shpBurst
      else if a = 0x600C then shpShown x
      else if a = 0x6010 then s.mem.invLo.toNat
      else if a = 0x6014 then s.mem.invCtl.toNat + b2n s.mem.invDone * 2 ^ 31
      else 0

/-! ### Instance pages (03, 08, 12, 13) -/

/-- RING_CTL of a submission ring (R95). -/
def ringCtlShown (r : Ring) : Nat :=
  flags [(rOn r.st, 0), (r.auto, 1), (r.invDone, 4), (r.fault, 5), (r.cfgErr, 6), (r.nrEn, 16), (r.chained, 24)] + rCode r.st * 2 ^ 2
    + r.nrn * 2 ^ 8 + r.burst * 2 ^ 17

/-- RING_CTL of a notification ring. -/
def nrCtlShown (r : Notif) : Nat :=
  flags [(r.enabled, 0), (r.enabled, 2), (r.half, 4), (r.fault, 5), (r.cfgErr, 6), (r.ovf, 7), (r.irqEn, 11)] + r.vec * 2 ^ 8
    + r.holdoff * 2 ^ 12

/-- The ring window at offset 0x24 to 0x2C: zero while it selects no ring of the instance. -/
def ringWindow (i o : Nat) (s : State) : Nat :=
  let at_ := fun (size base scan ctl : Nat) =>
    if o = 0x24 then size + fld base 12 20 * 2 ^ 12 else if o = 0x28 then fld base 32 16 + scan * 2 ^ 16 else ctl
  match winRing s i, winNr s i with
  | some n, _ => at_ (s.ring n).size (s.ring n).base (s.ring n).scan (ringCtlShown (s.ring n))
  | none, some k => at_ (s.nr k).size (s.nr k).base (s.nr k).scan (nrCtlShown (s.nr k))
  | none, none => 0

/-- SIT_CTL. -/
def sitShown (t : Sit) : Nat :=
  flags [(rOn t.st, 0), (t.missEn, 1), (t.ageEn, 2), (t.evtEn, 3), (t.cfgErr, 6), (t.evtOvf, 7), (t.irqEn, 15)] + rCode t.st * 2 ^ 4
    + t.evtSize * 2 ^ 8 + t.vec * 2 ^ 12 + t.evtNext * 2 ^ 16

/-- A page of instance `i` at offset `o`, its FIFO apart. -/
def pageRead (i o : Nat) (s : State) : Nat :=
  let x := s.inst i
  if o = 0 then instStatus s i
  else if o = 4 then x.mask.toNat + x.pend.toNat * 2 ^ 8 + b2n x.lost * 2 ^ 16
  else if o = 8 then (s.jobs.filter fun j => j.inst = i).length + slotsUsed s i * 2 ^ 16
  else if o = 0xC then flags [(x.fltEn, 0), (x.fltOvf, 1), (x.fltIrq, 2)] + x.fltVec * 2 ^ 3 + x.fltNext * 2 ^ 8 + x.fltDropped * 2 ^ 16
  else if o = 0x20 then x.ringSel + flags [(x.selNr, 16), (x.rangeErr, 31)]
  else if 0x24 ≤ o && o ≤ 0x2C then ringWindow i o s
  else if o = 0x34 then x.dhBase.toNat
  else if i = mi then 0
  else if o = 0x40 then x.sit.size + fld x.sit.base 12 20 * 2 ^ 12
  else if o = 0x44 then fld x.sit.base 32 16 + x.sit.seed * 2 ^ 16
  else if o = 0x48 then x.sit.evtBase
  else if o = 0x4C then sitShown x.sit
  else if o = 0x54 then x.evts.length + flags [(x.evts.isEmpty, 12), (x.evtUnder, 13), (x.evtOver, 14)]
  else 0

/-! ### The whole map -/

/-- What a register reads as where its read changes nothing. -/
def regShown (path : Path) (a : Nat) (s : State) : Nat :=
  if a < 0x400 then glbRead path a s
  else if a < 0x500 then tmpRead a s
  else if a < 0x1000 then oryRead a s
  else if a < 0x3000 then laneRead a s
  else if a < 0x3400 then vltRead a s
  else if a < 0x4000 then keyRead a s
  else if a < 0x4800 then spRead ((a - 0x4000) / 0x400) (a % 0x400) s
  else if a < 0x5000 then polRead a s
  else if a < 0x5200 then gateRead ((a - 0x5000) / 0x100) (a % 0x100) s
  else if a < 0x100000 then windowRead a s
  else if a < 0x910000 then pageRead ((a - 0x100000) / 0x10000) (a % 0x10000) s
  else 0

/-- A read of a word of the map through a path, with what the read does. -/
def regRead (path : Path) (addr : Nat) (s : State) : State × Nat :=
  let a := addr / 4 * 4
  if a = 0x40 then timeTake path s
  else if a = 0x410 then privTake .tamper s
  else if a = 0x508 then privTake .mailbox s
  else if a = 0x530 then privTake .attest s
  else if a = 0x2180 then sampleTake s
  else if a = 0x4014 || a = 0x4414 then cntRead ((a - 0x4014) / 0x400) s
  else if 0x3440 ≤ a && a < 0x3500 then measTake ((a - 0x3440) / 0x30) ((a - 0x3440) % 0x30 / 4) s
  else if 0x100000 ≤ a && a < 0x900000 && a % 0x10000 = 0x50 then evtTake ((a - 0x100000) / 0x10000) s
  else (s, regShown path a s % 2 ^ 32)

end Sys2Proof.Machine
end

