-- ==== Sys2Proof/Machine/Boot.lean ====
section
/-! DEFINITION. The start-up sequence and the choice of the mode (R486, R487), block reset (R488, R489), the lifecycle advance (R493),
the attach sequence (R85, R89) and the fall of main power (R447). -/

namespace Sys2Proof.Machine

/-! ### Configuration records (R469, R470, R514) -/

/-- The registers of the global region outside the windows whose reset value is Image. -/
def imageRegs : List Nat :=
  [0x20, 0x24, 0x28, 0x100, 0x110, 0x114, 0x118, 0x11C, 0x504, 0x2200, 0x2204, 0x3000, 0x3004, 0x3008, 0x3820, 0x3C08, 0x4000, 0x4400,
   0x5000, 0x5100] ++ (List.range 12).map (fun i => 0x4020 + 4 * i) ++ (List.range 12).map fun i => 0x4420 + 4 * i

/-- Whether a register of the global region has the reset value Image, so that a REG pair may name it. -/
def imageReg (a : Nat) : Bool :=
  [0x20, 0x24, 0x28, 0x100, 0x110, 0x114, 0x118, 0x11C, 0x504, 0x2200, 0x2204, 0x3000, 0x3004, 0x3008, 0x3820, 0x3C08, 0x4000, 0x4400,
   0x4804, 0x4808, 0x480C, 0x4810, 0x4814, 0x5000, 0x5100, 0x6004, 0x6008].contains a
    || (0x4020 ≤ a && a < 0x4050 && a % 4 = 0) || (0x4420 ≤ a && a < 0x4450 && a % 4 = 0)

/-- Whether a lock covers a field of the register. -/
def pairLocked (s : State) (a : Nat) : Bool :=
  (a = 0x100 && s.port.lock) || ((a = 0x3000 || a = 0x3004) && s.vault.lock) || (a = 0x3820 && s.anv.lock)
    || (a = 0x3C08 && s.cruc.lock) || (a = 0x504 && s.ory.lock)

/-- Writes the Image fields and the lock of a register. -/
def putPair (a v : Nat) (s : State) : State :=
  if a = 0x100 then hmpMapSet 4 v (s.modPort fun p =>
    { p with icx := BitVec.ofNat 5 v, detDrain := fld v 16 8, lock := p.lock || bit v 31 })
  else if a = 0x3008 then s.modVault fun x => { x with autoFetch := bit v 1, freeMin := fld v 8 8, lock := x.lock || bit v 31 }
  else if a = 0x4804 then polCtl (setFld v 3 1 0) s
  else if a = 0x5000 || a = 0x5100 then gateCtl ((a - 0x5000) / 0x100) (setFld v 1 1 0) s
  else if a = 0x6004 then shpCtl s.glb.instSel (setFld v 29 2 0) s
  else globalWrite a v s

/-- A REG pair, or the entry of its skip. -/
def regPair (n : Nat) (s : State) : State :=
  let a := fld n 0 24
  if imageReg a && !pairLocked s a then putPair a (fld n 32 32) s else logEvent 9 1 a s

/-- Applies a record of a configuration copy. -/
def applyRecord (r : Nat × List Byte) (s : State) : State :=
  match r.1 with
  | 1 => (calibItems r.2).foldl (fun t n => regPair n t) s
  | 2 => applyTamper r.2 s
  | 3 => applyCalib r.2 s
  | _ => s

/-- Loads the factory defaults: every Image register outside the windows takes the value its table gives, by a write (R16, R470; log
entry 168), and the tamper records and calibration items return to theirs. -/
def factoryConfig (s : State) : State :=
  let s1 := (imageRegs.filter fun a => !pairLocked s a).foldl (fun t a => putPair a (regRead .rap a State.reset).2 t) s
  reclassify ((s1.modTam fun t => { t with recs := [] }).modOry fun o => { o with calib := [] })

/-- Applies the records of the active copy in order. -/
def applyCopy (s : State) : State := (((activeCopy s).bind goodRecords).getD []).foldl (fun t r => applyRecord r t) s

/-! ### Start-up, steps 2 to 8 (R486) -/

/-- Records a unit that failed its self-test. -/
def testLog (code reg unit : Nat) (s : State) : State := logEvent 2 code (faultArg reg unit 0xFF) s

/-- The Forges that passed: logical Forge l on Forge l, the first without one on Forge 8, which else is the spare. -/
def bootMap (bad : Nat → Bool) : List Nat :=
  let gap := (List.range 8).find? bad
  (List.range 8).map fun l => if !bad l then l else if gap = some l && !bad 8 then 8 else 15

/-- Forge `m` after its self-test (R225, R230, R487). -/
def bootForge (bad : Nat → Bool) (m : Nat) (s : State) : State :=
  let l := (bootMap bad).findIdx fun x => x == m
  s.modForge m fun f =>
    { fault := if bad m then f.fault ||| 2 else f.fault, failovers := min 0xFFFF (tget s.ldg.live.failovers 0 m),
      mcode := if bad m then 0 else mcodeVersion s, logical := if l < 8 then l else 0,
      st := if bad m then .failed else if l < 8 then .active else .spare }

/-- Step 3 for Forges, with the microcode that step 8 loads. -/
def bootForges (failed : List ForgeId) (s : State) : State :=
  let bad := fun m => failed.any fun x => x.val = m
  let s1 := s.modFab fun b => { b with map := bootMap bad, lanes := [], booted := true }
  (List.range 9).foldl (fun t m =>
    let u := bootForge bad m t
    if bad m then testLog 1 (frgFault u m) m u else u) s1

/-- Step 3 for the digest pipes. -/
def bootPipes (failed : List PipeId) (s : State) : State :=
  let bad := (failed.map fun x => x.val).foldl (fun n k => n ||| 2 ^ k) 0
  let s1 := s.modDig fun d =>
    { d with pipeUp := ~~~(BitVec.ofNat 8 bad), noOwner := 0xFF, fault := d.fault ||| word (if bad = 0 then 0 else bad + 2 ^ 8) }
  (List.range 8).foldl (fun t k => if bad.testBit k then testLog 3 s1.dig.fault.toNat k t else t) s1

/-- Step 3 for the Anvil units. -/
def bootUnits (failed : List UnitId) (s : State) : State :=
  let bad := (failed.map fun x => x.val).foldl (fun n k => n ||| 2 ^ k) 0
  let s1 := s.modAnv fun x =>
    { x with up := ~~~(BitVec.ofNat 4 bad), fault := x.fault ||| word (if bad = 0 then 0 else bad + 2 ^ 4) }
  (List.range 4).foldl (fun t k => if bad.testBit k then testLog 4 s1.anv.fault.toNat k t else t) s1

/-- Step 3 for the Crucible banks: two that fail are a block-level fault (R357). -/
def bootBanks (failed : List BankId) (s : State) : State :=
  let bad := (failed.map fun x => x.val).foldl (fun n k => n ||| 2 ^ k) 0
  let two := ((List.range 5).filter fun k => bad.testBit k).length ≥ 2
  let s1 := s.modCruc fun c =>
    { c with bankUp := ~~~(BitVec.ofNat 5 bad),
             bankFault := c.bankFault ||| (if bad = 0 then 0 else bad + 2 ^ 7) ||| (if two then 2 ^ 8 else 0) }
  if two then blockFault 1 s1
  else (List.range 5).foldl (fun t k => if bad.testBit k then testLog 2 (bankFaultReg s1) k t else t) s1

/-- Whether the banks can hold keys. -/
def banksHold (s : State) : Bool := ((List.range 5).filter fun k => s.cruc.bankUp.toNat.testBit k).length ≥ 4

/-- Step 4: the DRBG runs on both sources (R345). -/
def bootDrbg (s : State) : State :=
  drbgTo .running (drbgTo .starting (s.modAnv fun a => { a with drbg := .unseeded, aUp := true, bUp := true, aBuf := 0, bBuf := 0 }))

/-- The slot of a record that the Ledger keeps: a VALID one has its key absent (R352). -/
def slotOf (r : SlotRec) : KeySlot :=
  { st := r.st, kind := r.kind, owner := r.owner, depth := r.depth, bits := r.bits, gen := r.gen, use := r.use, absent := r.st == .valid }

/-- What a Boot after a zeroisation does to the Ledger: records EMPTY, allocation counts 1, epochs released (R352). -/
def forgetKeys (s : State) : State :=
  s.modLdg fun l =>
    { l with slotTab := [], epochs := (List.range 128).map fun n => (n, ((tget l.epochs (0, false) n).1, true)) }

/-- Loads the slot table. -/
def loadSlots (s : State) : State :=
  s.modCruc fun c => { c with parents := tmap (s.ldg.slotTab.map fun p => (p.1, slotOf p.2)) {} fun _ k => k }

/-- Generates the Silver root at the first Boot in DEPLOYED, or fails to program it (R361). -/
def makeSilver (ok : Bool) (s : State) : State :=
  if s.life != .deployed || s.silver.isSome then s
  else if ok then drawn 32 { s with silver := some (drawBytes s 32) }
  else s.modCruc fun c => { c with rootFault := true }

/-- A Vault root is drawn where none is present (R475). -/
def makeVaultRoot (s : State) : State :=
  if s.vigil.root.isSome then s
  else drawn 64 ((s.modVigil fun v => { v with root := some (drawBytes s 64) }).modLdg fun l => { l with vkeyGen := 1 })

/-- Loads the root that the lifecycle selects (R360). -/
def bootRoot (s : State) : State :=
  if !banksHold s then s
  else match s.life, s.silver with
    | .manufacture, _ => loadRoot .copper (romRoot Config.copperRoot) s
    | .deployed, some k => loadRoot .silver k s
    | _, _ => s

/-- Step 5: the roots and MI's instance key; a zeroisation has ended the start-up before it (R486). -/
def bootKeys (silverOk : Bool) (s : State) : State :=
  if s.modes.bootZero then s
  else
    let s1 := if s.vigil.zpend then forgetKeys s else s
    let lost := s1.vigil.root.isNone
    let s2 := putMiKey (bootRoot (makeVaultRoot (makeSilver silverOk (loadSlots s1))))
    let s3 := s2.modVault fun v => { v with sweep := s2.ldg.cursor }
    if lost then logEvent 6 5 0 (s3.modVault fun v => { v with fault := v.fault ||| 16 }) else s3

/-- The log entry of a fallback, whose class, code and argument the spec does not state: free values (R474; log entry 195). -/
def logFallback (s : State) : State :=
  drawn 3 (logEvent (Config.freeNat s.freeCtr % 256) (Config.freeNat (s.freeCtr + 1) % 256) (Config.freeNat (s.freeCtr + 2) % 2 ^ 96) s)

/-- The active image of a kind, after a fallback where it is not usable; none where neither slot can be used (R474). -/
def bootImage (kind : Nat) (s : State) : State × Option Image :=
  let a := imageActive s kind
  let back := fun (f : Bool) => s.modLdg fun l => if kind = 0 then { l with yFallback := f } else { l with mFallback := f }
  if (imageAt s kind a).usable then (back false, some (imageAt s kind a))
  else if canFlip s kind true then (logFallback (flipImage kind (back true)), some (imageAt s kind (!a)))
  else (back false, none)

/-- Step 7: Yuham, or the firmware in ROM. -/
def bootYuham (s : State) : State :=
  let p := bootImage 0 s
  match p.2 with
  | some g => putMeas 0 (imageDigest 0 g) (p.1.modLdg fun l => { l with yRom := false })
  | none => putMeas 0 (sha384 Config.romImage) (p.1.modLdg fun l => { l with yRom := true })

/-- Step 8: the microcode. -/
def bootMicrocode (s : State) : State :=
  let p := bootImage 1 s
  match p.2 with
  | some g => putMeas 1 (imageDigest 1 g) p.1
  | none => p.1

/-! ### Start-up, steps 9 to 12 -/

/-- The configured chain takes over with empty count stages; a source active since the start-up is not ready (R446). -/
def takeChain (s : State) : State :=
  (s.modTam fun t =>
    { t with fusedTable := false, recs := [],
             src := tmap t.src {} fun _ x =>
               { x with opened := false, count := 0, bounces := [], ignored := false, waiting := false, ready := x.ready && !x.active } }).modVigil
    fun v => { v with vArm := [] }

/-- Whether R487 selects Recovery. -/
def bootRecovery (s : State) : Bool :=
  s.life == .terminated || s.cruc.rootFault || s.modes.fault.toNat.testBit 1 || s.ldg.factory || s.ldg.yRom

/-- Step 9: a start-up that ends in Recovery stays on the factory defaults (R16, R445). -/
def bootConfig (s : State) : State :=
  let s1 := takeChain s
  (reclassify (if bootRecovery s && !s.vigil.zpend then s1 else applyCopy s1)).modMem fun m => { m with moving := [] }

/-- The words of a retained log entry as VGL_LOG_DATA shows them. -/
def vlogArg (e : VLog) : Nat :=
  fld e.sec 0 32 + (fld e.sec 32 16 + e.source % 32 * 2 ^ 16 + e.kind % 4 * 2 ^ 21 + e.response % 8 * 2 ^ 23 + e.cls % 32 * 2 ^ 26 + 2 ^ 31) * 2 ^ 32

/-- Step 11: copies the retained log entries written since the previous Boot (R453). -/
def bootLog (s : State) : State :=
  let new := s.vigil.log.drop (s.vigil.log.length - s.vigil.fresh)
  (new.foldl (fun t e => logEvent 0xA 0 (vlogArg e) t) s).modVigil fun v => { v with fresh := 0 }

/-- A time as seconds and crystal cycles, for comparison. -/
def calTicks (t : Nat × Nat) : Nat := t.1 * 32768 + t.2

/-- Step 11: the calendar, where it was lost or reads earlier than the latest checkpoint (R455). -/
def bootCalendar (s : State) : State :=
  match s.ldg.calCk.getLast? with
  | none => if s.vigil.calGone then s.modVigil fun v => { v with calLost := true, calGone := false } else s
  | some c =>
    let f := c.ns * 32768 / 1000000000
    if s.vigil.calGone || calTicks (s.vigil.sec, s.vigil.frac) < calTicks (c.sec, f) then
      s.modVigil fun v => { v with sec := c.sec, frac := f, calLost := true, calGone := false }
    else s

/-- MI's resources from Boot (R409). -/
def miFromBoot : Inst :=
  { st := .enabled, sqFirst := 0, sqCount := 64, nqFirst := 0, nqCount := 8, slotQuota := 64, tagQuota := 1024, weight := 16, burst := 64,
    newWeight := 16, newBurst := 64, winGib := 4096 }

/-- Step 12: Orrery runs. -/
def bootOrrery (s : State) : State :=
  let s1 := s.modOry fun o => { o with st := if s.ldg.yRom then .rom else .running }
  let s2 := if s1.ory.evtBuf.isEmpty && s1.ory.evtLost = 0 then s1 else drainEvents s1
  postMail 1 (b2n s.ldg.yActive) s2

/-- Counts a Boot (R477). -/
def countBoot (s : State) : State :=
  s.modLdg fun l =>
    let n := (l.live.boots + 1) % 2 ^ 32
    { l with live := { l.live with boots := n }, saved := { l.saved with boots := n } }

/-- Steps 2 to 12 of the start-up. -/
def bootRun (rep : BootReport) (s : State) : State :=
  let s1 := (countBoot s).modModes fun m => { m with stage := .awaitAttach }
  let s2 := if rep.fusesOk then s1 else occurrence 13 s1
  let s3 := bootBanks rep.banks (bootUnits rep.units (bootPipes rep.pipes s2))
  let s4 := measureCopy (selectCopy (bootKeys rep.silverOk (bootDrbg s3)))
  let s5 := bootForges rep.forges (bootMicrocode (bootYuham s4))
  let s6 := bootConfig (s5.setInst mi miFromBoot)
  bootOrrery (bootCalendar (bootLog s6))

/-! ### Attach steps 2 and 4 (R89) -/

/-- Whether attach step 2 passes. -/
def attachOk (r : AttachReport) : Bool := r.clkOk == 0x3F && r.loopOk == 0x1F

/-- What attach step 2 leaves: the clock monitors, the bits of the ports that failed, TIME_LOST. -/
def attachCheck (r : AttachReport) (s : State) : State :=
  let s1 := portFault ((~~~r.clkOk).toNat + (~~~r.loopOk).toNat * 2 ^ 10) (s.modPort fun p => { p with clkOk := r.clkOk })
  if r.timeOk then s1 else timeLost 0 s1

/-- The attach sequence fails, and ATT_ACK is low (R84). The block then stays DETACHED until ATT_REQ rises or DET_REQ falls again,
though the levels still ask for an attach (DESIGN CHOICE, log entry 169). -/
def attachFail (s : State) : State := raiseIbi (portEvent 3 (s.modPort fun p => { p with att := .detached, attAck := false }))

/-- The attach is complete: ATT_ACK rises and the outputs are released. -/
def attachUp (s : State) : State :=
  portEvent 2 (s.modPort fun p => { p with att := .attached, attAck := true, clamped := false })

/-- The mode after an attach: the one held before the detach, or Recovery without a valid copy (R89, R485). -/
def attachMode (s : State) : Mode :=
  let m := if s.modes.mode == .eclipse then backTo s s.modes.prior else s.modes.mode
  if s.ldg.factory && m != .zeroised && m != .test then .recovery else m

/-- Attach step 3: the copies are read again, and one that differs from the copy in force is loaded (R89, R470). Where neither is valid
any more, a block that enters Recovery for it loads the factory defaults (R16). -/
def reread (s : State) : State :=
  let old := activeCopy s
  let s1 := selectCopy s
  if activeCopy s1 = old then s1
  else if (activeCopy s1).isNone then (if attachMode s1 == .recovery then factoryConfig s1 else s1)
  else measureCopy (reclassify (applyCopy s1))

/-- Attach step 4. -/
def attachGood (s : State) : State :=
  let s1 := attachUp (reread s)
  let m := attachMode s1
  scanBells (if s1.modes.mode == .eclipse then leaveEclipse m s1
    else if s1.modes.mode == m then s1 else reformatRings (enterMode m s1))

/-- ATTACH_SEQUENCE_COMPLETE (R84, R89): attached, back to DETACHED, or on to the detach that DET_REQ asked for meanwhile. -/
def execAttachSequenceComplete (rep : AttachReport) (s : State) : Out :=
  .next (if !powered s || s.modes.halted || s.modes.mode == .boot then s
    else match s.port.att with
      | .attaching => if attachOk rep then conclude (attachGood (attachCheck rep s)) else attachFail (attachCheck rep s)
      | .detaching => if s.port.detach == .idle then conclude (detachStart (reread (attachCheck rep s))) else s
      | _ => s)

/-! ### Steps 13 and 14 (R85, R486, R487) -/

/-- Step 13: an attach, or DETACHED with the outputs clamped; a detach asked for during a block reset is acknowledged. -/
def bootAttach (r : AttachReport) (s : State) : State :=
  if s.port.attReq && !s.port.detReq then
    (if attachOk r then attachUp (attachCheck r s) else attachFail (attachCheck r s))
  else s.modPort fun p => { p with att := .detached, attAck := false, detAck := p.detAck || (p.attAck && p.detReq) }

/-- Step 14: the mode (R487). -/
def selectMode (s : State) : State :=
  let s1 := (s.modModes fun m => { m with stage := .finished }).modBlw fun b => { b with started := true }
  if s1.vigil.zpend then enterMode .zeroised (s1.modModes fun m => { m with zFrom := .boot })
  else if bootRecovery s1 then enterMode .recovery s1
  else if s1.port.att != .attached then
    enterMode .eclipse (s1.modModes fun m => { m with prior := serviceOrDegraded s1, cause := 3, eclipseDone := true, endAsked := false })
  else enterMode (serviceOrDegraded s1) s1

/-- The levels of ATT_REQ and DET_REQ, and what the clock monitors show, at the start of a start-up. -/
def bootPins (rep : BootReport) (s : State) : State :=
  s.modPort fun p => { p with attReq := rep.attReq, detReq := rep.detReq, clkOk := rep.attach.clkOk }

/-- START_UP_COMPLETE (R486, R487): the steps that still have to run, then the mode, which stops rings enabled in a format it does not
have (R106). -/
def execStartUpComplete (rep : BootReport) (s : State) : Out :=
  .next (if s.modes.mode != .boot || s.modes.stage == .finished then s
    else
      let s1 := if s.modes.stage == .atStart then bootRun rep (bootPins rep s) else s
      if s1.modes.halted || s1.modes.mode != .boot then s1
      else conclude (reformatRings (selectMode (bootAttach rep.attach s1))))

/-! ### Main power (R447, R485, R486) -/

/-- The chain of a source as Vigil carries it: its window, count and ready state, on the calendar (R447). -/
def toVigil (s : State) (x : Src) : Src :=
  { ready := x.ready, opened := x.opened, count := x.count, start := calNs s - (now s - x.start) }

/-- MAIN_PG_FALL (R447): every volatile state is lost, and the Vigil domain takes over. Increments since the last checkpoint are
lost (R477). -/
def execMainPgFall (s : State) : Out :=
  .next (if !powered s then s
    else
      let s0 := restoreCounters (enterMode .vigil s)
      let armedSrc := (s0.tam.src.filter fun p => vigilArmed s0 p.1).map fun p => (p.1, toVigil s0 p.2)
      { pending := s0.pending, freeCtr := s0.freeCtr, life := s0.life, silver := s0.silver, modes := { mode := .vigil },
        vault := { lost := true }, tam := { fused := s0.tam.fused, disabled := s0.tam.disabled },
        vigil := { s0.vigil with src := tmap armedSrc {} fun _ x => x, samples := 0 }, ldg := { s0.ldg with live := s0.ldg.saved } })

/-- MAIN_PG_RISE (R85, R486): the fused chain takes over with the ready states of Vigil, and the start-up runs to its attach. -/
def execMainPgRise (rep : BootReport) (s : State) : Out :=
  .next (if powered s then s
    else
      let ready := tmap (s.vigil.src.map fun p => (p.1, ({ ready := p.2.ready } : Src))) {} fun _ x => x
      let s1 := (s.modTam fun t => { t with src := ready }).modVigil fun v => { v with src := [] }
      bootRun rep (enterMode .boot (bootPins rep s1)))

/-! ### Block reset (R488, R489) -/

/-- What the reset of R489 keeps: RWS registers, retained storage, the Ledger, pins, bus states and the levels of the tamper
sources. -/
def keptPort (p : PortSt) : PortSt :=
  { clkOk := p.clkOk, fault := p.fault, attReq := p.attReq, attAck := p.attAck, detReq := p.detReq,
    detAck := p.detAck || (p.att == .detaching && p.detReq), zDriven := p.zDriven, zExt := p.zExt, i3cPtr := p.i3cPtr, i3cDyn := p.i3cDyn, ibiEn := p.ibiEn,
    mwl := p.mwl, ibi := p.ibi, i3cOut := p.i3cOut, cccOut := p.cccOut, rapData := p.rapData, rapErr := p.rapErr, rapRic := p.rapRic,
    tapIr := p.tapIr,
    tapPins := p.tapPins, tapOut := p.tapOut, srpAck := p.srpAck, srpCode := p.srpCode }

/-- A clear whose verification is still to come goes on through a reset (R81, R377). -/
def verifyOnly (z : ZRun) : ZRun :=
  match z with
  | .verify h => .verify h
  | _ => .idle

/-- A block reset up to the start of its start-up sequence (steps 1 to 3 of R489). -/
def blockReset (s : State) : State :=
  let s0 := clampOutputs (if inTest s then restoreCounters (clearKeys false false s) else checkpoint s)
  enterMode .boot
    { pending := s0.pending, freeCtr := s0.freeCtr, life := s0.life, silver := s0.silver,
      modes := { fault := s0.modes.fault },
      glb := { scratch := s0.glb.scratch, h2b := s0.glb.h2b, b2h := s0.glb.b2h, h2bFull := s0.glb.h2bFull, b2hFull := s0.glb.b2hFull },
      time := { lastTod := s0.time.lastTod }, port := keptPort s0.port,
      fab := { forges := tmap s0.fab.forges {} fun _ f => { fault := f.fault, failovers := f.failovers } },
      vault := { fault := s0.vault.fault, nodes := s0.vault.nodes, lost := s0.vault.lost, gens := s0.vault.gens }, dig := { fault := s0.dig.fault },
      anv := { fault := s0.anv.fault, esFault := s0.anv.esFault },
      cruc := { bankFault := s0.cruc.bankFault, corrected := s0.cruc.corrected, zLast := s0.cruc.zLast, zFail := s0.cruc.zFail,
                zCount := s0.cruc.zCount, zRun := verifyOnly s0.cruc.zRun },
      tam := { fused := s0.tam.fused, disabled := s0.tam.disabled, chatter := s0.tam.chatter, disagree := s0.tam.disagree,
               selftest := s0.tam.selftest, locked := s0.tam.locked,
               src := tmap s0.tam.src {} fun _ x => { a := x.a, b := x.b, pinA := x.pinA, pinB := x.pinB, cls := x.cls, ready := x.ready, told := x.told } },
      vigil := s0.vigil, ldg := s0.ldg }

/-- A write of GLB_RESET: its reserved bits zero and the key 0xB007 (R488). -/
def glbReset (v : Nat) (s : State) : State := if fld v 16 16 = 0xB007 && fld v 0 16 = 0 then blockReset s else modeErr s

/-- GLB_RESET (R488, R489). -/
def execGlbReset (path : Path) (v : RapWord) (s : State) : Out := .next (pathDo path 0x2C v (glbReset v.toNat) s)

/-! ### The lifecycle (R493) -/

/-- Whether a COMMIT with a target is permitted. -/
def lcPermitted (s : State) (t : Nat) : Bool :=
  let armedNow := match s.glb.lcArmed with
    | some a => decide (a.1 = t) && decide (now s - a.2 ≤ 1000000)
    | none => false
  armedNow && (if t = 1 then s.life == .manufacture
        && (s.modes.mode == .recovery || s.modes.mode == .service || s.modes.mode == .eclipse) && !inTest s
      else t = 2 && s.life != .terminated && !inTest s)

/-- The fuse of a target is programmed and read back, and the block resets. A fuse that fails keeps whatever state it reached: whether it
counts as programmed is a free value. -/
def lcProgram (t : Nat) (fuseOk : Bool) (s : State) : State :=
  let reached := fuseOk || Config.freeBool s.freeCtr
  let s1 := if fuseOk then s else drawn 1 (s.modModes fun m => { m with fault := m.fault ||| 32 })
  blockReset (if reached then { s1 with life := if t = 1 then .deployed else .terminated } else s1)

/-- The COMMIT of a permitted advance: TERMINATED first runs the ZEROISE form without ZPEND (R493). -/
def lcAdvance (t : Nat) (fuseOk : Bool) (s : State) : State :=
  lcProgram t fuseOk (if t = 2 then abortKeyOps 2 (clearKeys true false (s.modPort fun p => { p with zDriven := true })) else s)

/-- LC_COMMIT (R493): GLB_LC_CTL written with COMMIT. -/
def execLcCommit (v : RapWord) (fuseOk : Bool) (s : State) : Out :=
  .next (rapDo 0x30 v (fun s =>
    if !bit v.toNat 3 then s
    else if lcPermitted s (fld v.toNat 0 2) then lcAdvance (fld v.toNat 0 2) fuseOk s
    else (lcCtl v.toNat s).modGlb fun g => { g with lcCfgErr := true }) s)

end Sys2Proof.Machine
end

