-- ==== Sys2Proof/Machine/I3c.lean ====
section
/-! DEFINITION. The I3C sideband target: its private writes and reads (R57, R444, R511) and its common command codes (R56). -/

namespace Sys2Proof.Machine

/-- I3C_REFUSED (R57). -/
def i3cRefuse (s : State) : State := portFault (2 ^ 25) s

/-- A command on the I3C bus reaches the target while the main supply is up (R58). -/
def i3cDo (f : PortSt → PortSt) (s : State) : State := if powered s then s.modPort f else s

/-- I3C_POINTER_WRITE (R57): accepted also while the block is halted (R444). -/
def execI3cPointerWrite (ptr : BitVec 24) (s : State) : Out := .next (i3cDo (fun p => { p with i3cPtr := ptr }) s)

/-- A write of a register that is writable from I3C, or a refused write (R57, R511). -/
def i3cWrite (a : Nat) (v : Word) (s : State) : State :=
  if a % 4 ≠ 0 then i3cRefuse s
  else if a = 0x2C then glbReset v.toNat s
  else if 0x70 ≤ a && a < 0xB0 then s.modGlb fun g => { g with scratch := tset g.scratch 0 ((a - 0x70) / 4) v }
  else if 0x280 ≤ a && a < 0x300 then mboxWord .i3c .b2h ((a - 0x280) / 4) v s
  else if a = 0x300 then mboxCtl .i3c v.toNat s
  else if a = 0x50C then attestCtl v.toNat s
  else if 0x510 ≤ a && a < 0x530 then s.modOry fun o => { o with nonce := tset o.nonce 0 ((a - 0x510) / 4) v }
  else i3cRefuse s

/-- I3C_REGISTER_WRITE (R57, R511): the pointer stays at the address written; a halted block refuses the whole transfer (R444). -/
def execI3cRegisterWrite (ptr : BitVec 24) (v : Word) (s : State) : Out :=
  .next (i3cTake (fun s => conclude (i3cWrite ptr.toNat v (s.modPort fun p => { p with i3cPtr := ptr }))) s)

/-- I3C_REFUSED_WRITE (R57): a private write of another length. -/
def execI3cRefusedWrite (len : Nat) (s : State) : Out :=
  .next (if powered s && len != 3 && len != 7 then i3cRefuse s else s)

/-- One word of a private read, which the pointer then passes. -/
def i3cWordRead (s : State) : State × Word :=
  let a := s.port.i3cPtr.toNat
  let r := i3cWord a (fun t => if a % 4 = 0 then regRead .i3c a t else (t, 0)) s
  (r.1.modPort fun p => { p with i3cPtr := p.i3cPtr + 4 }, word r.2)

/-- Words of a private read, the earlier ones given. -/
def i3cWords : Nat → List Word → State → State
  | 0, out, s => s.modPort fun p => { p with i3cOut := out }
  | n + 1, out, s => let r := i3cWordRead s; i3cWords n (out ++ [r.2]) r.1

/-- I3C_PRIVATE_READ (R57). -/
def execI3cPrivateRead (words : Nat) (s : State) : Out := .next (if powered s then i3cWords words [] s else s)

/-! ### Common command codes (R56) -/

/-- ENTDAA. -/
def execEntdaa (addr : BitVec 7) (s : State) : Out :=
  .next (i3cDo (fun p => if p.i3cDyn.isSome then p else { p with i3cDyn := some addr }) s)

/-- SETDASA. -/
def execSetdasa (addr : BitVec 7) (s : State) : Out :=
  .next (i3cDo (fun p => if p.i3cDyn.isSome then p else { p with i3cDyn := some addr }) s)

/-- ENEC. -/
def execEnec (s : State) : Out := .next (i3cDo (fun p => { p with ibiEn := true }) s)

/-- DISEC. -/
def execDisec (s : State) : Out := .next (i3cDo (fun p => { p with ibiEn := false }) s)

/-- RSTDAA. -/
def execRstdaa (s : State) : Out := .next (i3cDo (fun p => { p with i3cDyn := none }) s)

/-- SETMWL. -/
def execSetmwl (mwl : BitVec 16) (s : State) : Out := .next (i3cDo (fun p => { p with mwl := mwl }) s)

/-- A 16-bit length with its most significant byte first. -/
def cccLength (n : Nat) : List Byte := [byte (n / 2 ^ 8), byte n]

/-- GETMWL. -/
def execGetmwl (s : State) : Out := .next (i3cDo (fun p => { p with cccOut := cccLength p.mwl.toNat }) s)

/-- GETMRL. -/
def execGetmrl (s : State) : Out := .next (i3cDo (fun p => { p with cccOut := cccLength Config.i3cMrl }) s)

/-- A fused identity of the target, `n` bytes with the most significant first: 0 the identifier, 1 and 2 the bus and device
characteristics. -/
def cccIdent (which n : Nat) : List Byte := (natLe n (Config.i3cIdent which)).reverse

/-- GETPID. -/
def execGetpid (s : State) : Out := .next (i3cDo (fun p => { p with cccOut := cccIdent 0 6 }) s)

/-- GETBCR. -/
def execGetbcr (s : State) : Out := .next (i3cDo (fun p => { p with cccOut := cccIdent 1 1 }) s)

/-- GETDCR. -/
def execGetdcr (s : State) : Out := .next (i3cDo (fun p => { p with cccOut := cccIdent 2 1 }) s)

/-- GETSTATUS: two bytes whose value the specification does not give. -/
def execGetstatus (s : State) : Out :=
  .next (if powered s then drawn 1 (s.modPort fun p => { p with cccOut := natLe 2 (Config.i3cIdent (3 + s.freeCtr)) }) else s)

end Sys2Proof.Machine
end

