-- ==== Sys2Proof/Machine/Dispatch.lean ====
section
/-! DEFINITION. The effect of each command, one arm per row of the table of operations and events. -/

namespace Sys2Proof.Machine

/-- The effect of a command on the block, its queue apart. -/
def exec (i : Instr) (s : State) : Host.Outcome State Fault Refusal :=
  match i with
  | .mainPgRise rep => Sys2Proof.Machine.execMainPgRise rep s
  | .mainPgFall => Sys2Proof.Machine.execMainPgFall s
  | .attReqRise => Sys2Proof.Machine.execAttReqRise s
  | .detReqRise => Sys2Proof.Machine.execDetReqRise s
  | .detReqFall attReq => Sys2Proof.Machine.execDetReqFall attReq s
  | .detachDrainLimit => Sys2Proof.Machine.execDetachDrainLimit s
  | .doorbell page bell => Sys2Proof.Machine.execDoorbell page bell s
  | .autoSweep ring => Sys2Proof.Machine.execAutoSweep ring s
  | .scanContinue ring => Sys2Proof.Machine.execScanContinue ring s
  | .hmpResponse hmp tag status data ics => Sys2Proof.Machine.execHmpResponse hmp tag status data ics s
  | .hmpTimeout hmp => Sys2Proof.Machine.execHmpTimeout hmp s
  | .hmpMapWrite reg v => Sys2Proof.Machine.execHmpMapWrite reg v s
  | .hmpMoveComplete inst => Sys2Proof.Machine.execHmpMoveComplete inst s
  | .hmpReturn hmp r => Sys2Proof.Machine.execHmpReturn hmp r s
  | .ringSelWrite page v => Sys2Proof.Machine.execRingSelWrite page v s
  | .ringEnable page v => Sys2Proof.Machine.execRingEnable page v s
  | .ringStop page v => Sys2Proof.Machine.execRingStop page v s
  | .ringStopComplete ring => Sys2Proof.Machine.execRingStopComplete ring s
  | .nrEnable page v => Sys2Proof.Machine.execNrEnable page v s
  | .nrDisable page v => Sys2Proof.Machine.execNrDisable page v s
  | .nrOvfClear page v => Sys2Proof.Machine.execNrOvfClear page v s
  | .ringInv page v => Sys2Proof.Machine.execRingInv page v s
  | .ringInvComplete ring => Sys2Proof.Machine.execRingInvComplete ring s
  | .configRegisterWrite addr v ic => Sys2Proof.Machine.execConfigRegisterWrite addr v ic s
  | .rapUnmappedAccess addr write => Sys2Proof.Machine.execRapUnmappedAccess addr write s
  | .schedulerRound sch => Sys2Proof.Machine.execSchedulerRound sch s
  | .admission slot => Sys2Proof.Machine.execAdmission slot s
  | .vaultFetch h => Sys2Proof.Machine.execVaultFetch h s
  | .vaultFetchComplete h => Sys2Proof.Machine.execVaultFetchComplete h s
  | .contextEviction h => Sys2Proof.Machine.execContextEviction h s
  | .evictionSeal h => Sys2Proof.Machine.execEvictionSeal h s
  | .segmentBoundary tag e => Sys2Proof.Machine.execSegmentBoundary tag e s
  | .jobComplete tag => Sys2Proof.Machine.execJobComplete tag s
  | .cometCombine tag checkOk => Sys2Proof.Machine.execCometCombine tag checkOk s
  | .entryRetire ring => Sys2Proof.Machine.execEntryRetire ring s
  | .notificationRecord nr => Sys2Proof.Machine.execNotificationRecord nr s
  | .interruptHoldoffExpiry nr => Sys2Proof.Machine.execInterruptHoldoffExpiry nr s
  | .vectorUnmask page v => Sys2Proof.Machine.execVectorUnmask page v s
  | .faultRecordWrite inst => Sys2Proof.Machine.execFaultRecordWrite inst s
  | .streamFrameEof port f => Sys2Proof.Machine.execStreamFrameEof port f s
  | .sitLookup id => Sys2Proof.Machine.execSitLookup id s
  | .sitLockRetry id => Sys2Proof.Machine.execSitLockRetry id s
  | .sitEventWrite vi => Sys2Proof.Machine.execSitEventWrite vi s
  | .sitEventMemoryExpiry => Sys2Proof.Machine.execSitEventMemoryExpiry s
  | .sitInterruptHoldoff vi => Sys2Proof.Machine.execSitInterruptHoldoff vi s
  | .sitEnable vi v => Sys2Proof.Machine.execSitEnable vi v s
  | .sitStop vi v => Sys2Proof.Machine.execSitStop vi v s
  | .sitStopComplete vi => Sys2Proof.Machine.execSitStopComplete vi s
  | .frameCommit tag => Sys2Proof.Machine.execFrameCommit tag s
  | .egressFrameStart port flip => Sys2Proof.Machine.execEgressFrameStart port flip s
  | .egressFrameDone port => Sys2Proof.Machine.execEgressFrameDone port s
  | .watermarkWrite port cls v => Sys2Proof.Machine.execWatermarkWrite port cls v s
  | .gateEdge port => Sys2Proof.Machine.execGateEdge port s
  | .gateChange port v => Sys2Proof.Machine.execGateChange port v s
  | .gateEnable port v => Sys2Proof.Machine.execGateEnable port v s
  | .gateDisable port v => Sys2Proof.Machine.execGateDisable port v s
  | .gateTakeover port => Sys2Proof.Machine.execGateTakeover port s
  | .policerEnable v => Sys2Proof.Machine.execPolicerEnable v s
  | .policerStop v => Sys2Proof.Machine.execPolicerStop v s
  | .policerStopComplete vi port => Sys2Proof.Machine.execPolicerStopComplete vi port s
  | .policerApply v => Sys2Proof.Machine.execPolicerApply v s
  | .shaperConfig v => Sys2Proof.Machine.execShaperConfig v s
  | .shaperRefill inst => Sys2Proof.Machine.execShaperRefill inst s
  | .tenantEventWindow vi => Sys2Proof.Machine.execTenantEventWindow vi s
  | .laneRateWindow rates => Sys2Proof.Machine.execLaneRateWindow rates s
  | .privilegedFifoRead path which => Sys2Proof.Machine.execPrivilegedFifoRead path which s
  | .ordinaryFifoRead r => Sys2Proof.Machine.execOrdinaryFifoRead r s
  | .counterRead path port => Sys2Proof.Machine.execCounterRead path port s
  | .timeRead path => Sys2Proof.Machine.execTimeRead path s
  | .measRead path m w => Sys2Proof.Machine.execMeasRead path m w s
  | .i3cPointerWrite ptr => Sys2Proof.Machine.execI3cPointerWrite ptr s
  | .i3cRegisterWrite ptr v => Sys2Proof.Machine.execI3cRegisterWrite ptr v s
  | .i3cRefusedWrite len => Sys2Proof.Machine.execI3cRefusedWrite len s
  | .i3cPrivateRead words => Sys2Proof.Machine.execI3cPrivateRead words s
  | .entdaa addr => Sys2Proof.Machine.execEntdaa addr s
  | .setdasa addr => Sys2Proof.Machine.execSetdasa addr s
  | .enec => Sys2Proof.Machine.execEnec s
  | .disec => Sys2Proof.Machine.execDisec s
  | .rstdaa => Sys2Proof.Machine.execRstdaa s
  | .setmwl mwl => Sys2Proof.Machine.execSetmwl mwl s
  | .getmwl => Sys2Proof.Machine.execGetmwl s
  | .getmrl => Sys2Proof.Machine.execGetmrl s
  | .getpid => Sys2Proof.Machine.execGetpid s
  | .getbcr => Sys2Proof.Machine.execGetbcr s
  | .getdcr => Sys2Proof.Machine.execGetdcr s
  | .getstatus => Sys2Proof.Machine.execGetstatus s
  | .tpTodSample sec ns => Sys2Proof.Machine.execTpTodSample sec ns s
  | .tpPpsEdge aligned => Sys2Proof.Machine.execTpPpsEdge aligned s
  | .tpClockStopped => Sys2Proof.Machine.execTpClockStopped s
  | .tpPpsMissing => Sys2Proof.Machine.execTpPpsMissing s
  | .portClockStop clk => Sys2Proof.Machine.execPortClockStop clk s
  | .portClockReturn clk => Sys2Proof.Machine.execPortClockReturn clk s
  | .srpAckRise => Sys2Proof.Machine.execSrpAckRise s
  | .srpAckFall => Sys2Proof.Machine.execSrpAckFall s
  | .srpTimeout => Sys2Proof.Machine.execSrpTimeout s
  | .srpTimeoutClear v => Sys2Proof.Machine.execSrpTimeoutClear v s
  | .bellowsStep => Sys2Proof.Machine.execBellowsStep s
  | .forgeGate forge => Sys2Proof.Machine.execForgeGate forge s
  | .forgeWakeComplete forge => Sys2Proof.Machine.execForgeWakeComplete forge s
  | .bellowsFault => Sys2Proof.Machine.execBellowsFault s
  | .zeroiseNLow => Sys2Proof.Machine.execZeroiseNLow s
  | .bypass => Sys2Proof.Machine.execBypass s
  | .idcode => Sys2Proof.Machine.execIdcode s
  | .samplePreload => Sys2Proof.Machine.execSamplePreload s
  | .extest => Sys2Proof.Machine.execExtest s
  | .clamp => Sys2Proof.Machine.execClamp s
  | .highz => Sys2Proof.Machine.execHighz s
  | .dbgChallenge => Sys2Proof.Machine.execDbgChallenge s
  | .dbgResponse resp => Sys2Proof.Machine.execDbgResponse resp s
  | .tamperSourceChange src det level meas => Sys2Proof.Machine.execTamperSourceChange src det level meas s
  | .tamperDebounceExpiry src => Sys2Proof.Machine.execTamperDebounceExpiry src s
  | .tamperRearmExpiry src => Sys2Proof.Machine.execTamperRearmExpiry src s
  | .detectorDisagree src => Sys2Proof.Machine.execDetectorDisagree src s
  | .detectorSelfTest src det => Sys2Proof.Machine.execDetectorSelfTest src det s
  | .detectorSelfTestTimeout src det => Sys2Proof.Machine.execDetectorSelfTestTimeout src det s
  | .zeroiseVerifyComplete ok => Sys2Proof.Machine.execZeroiseVerifyComplete ok s
  | .zeroiseFillComplete => Sys2Proof.Machine.execZeroiseFillComplete s
  | .freezeThaw v => Sys2Proof.Machine.execFreezeThaw v s
  | .fuseReread ok => Sys2Proof.Machine.execFuseReread ok s
  | .vigilSample reading checks => Sys2Proof.Machine.execVigilSample reading checks s
  | .xtalStop => Sys2Proof.Machine.execXtalStop s
  | .burnishSlot bad => Sys2Proof.Machine.execBurnishSlot bad s
  | .burnishPeriodEnd => Sys2Proof.Machine.execBurnishPeriodEnd s
  | .bankWatchdog bank => Sys2Proof.Machine.execBankWatchdog bank s
  | .stageFault lane => Sys2Proof.Machine.execStageFault lane s
  | .laneSelfTest lane res => Sys2Proof.Machine.execLaneSelfTest lane res s
  | .rateCheck forge ref m => Sys2Proof.Machine.execRateCheck forge ref m s
  | .forgeRetireComplete forge => Sys2Proof.Machine.execForgeRetireComplete forge s
  | .forgeRestoreTestDone forge ok => Sys2Proof.Machine.execForgeRestoreTestDone forge ok s
  | .microcodeRotationStep result => Sys2Proof.Machine.execMicrocodeRotationStep result s
  | .pipeSelfTest pipe ok => Sys2Proof.Machine.execPipeSelfTest pipe ok s
  | .pipeFault pipe cause => Sys2Proof.Machine.execPipeFault pipe cause s
  | .anvilSelfTest unit ok => Sys2Proof.Machine.execAnvilSelfTest unit ok s
  | .anvilUnitFault unit cause => Sys2Proof.Machine.execAnvilUnitFault unit cause s
  | .entropyBlockReady src => Sys2Proof.Machine.execEntropyBlockReady src s
  | .entropyHealthFail src kind => Sys2Proof.Machine.execEntropyHealthFail src kind s
  | .drbgReseed => Sys2Proof.Machine.execDrbgReseed s
  | .drbgKat ok => Sys2Proof.Machine.execDrbgKat ok s
  | .dispatcherMismatch half => Sys2Proof.Machine.execDispatcherMismatch half s
  | .orreryFault half => Sys2Proof.Machine.execOrreryFault half s
  | .yuhamRestartComplete => Sys2Proof.Machine.execYuhamRestartComplete s
  | .commandTimeout slot => Sys2Proof.Machine.execCommandTimeout slot s
  | .offerTimeout slot => Sys2Proof.Machine.execOfferTimeout slot s
  | .faultMsgHoldoff => Sys2Proof.Machine.execFaultMsgHoldoff s
  | .counterCheckpoint => Sys2Proof.Machine.execCounterCheckpoint s
  | .calendarCheckpoint => Sys2Proof.Machine.execCalendarCheckpoint s
  | .vaultEnable v => Sys2Proof.Machine.execVaultEnable v s
  | .vaultDisable v => Sys2Proof.Machine.execVaultDisable v s
  | .vaultInit v => Sys2Proof.Machine.execVaultInit v s
  | .vaultInitComplete => Sys2Proof.Machine.execVaultInitComplete s
  | .resealSweep => Sys2Proof.Machine.execResealSweep s
  | .xlInvGo v => Sys2Proof.Machine.execXlInvGo v s
  | .xlInvDone => Sys2Proof.Machine.execXlInvDone s
  | .glbReset path v => Sys2Proof.Machine.execGlbReset path v s
  | .lcArm v => Sys2Proof.Machine.execLcArm v s
  | .lcCommit v fuseOk => Sys2Proof.Machine.execLcCommit v fuseOk s
  | .eclipseRequest v => Sys2Proof.Machine.execEclipseRequest v s
  | .eclipseQuiesceComplete => Sys2Proof.Machine.execEclipseQuiesceComplete s
  | .eclipseEnd v => Sys2Proof.Machine.execEclipseEnd v s
  | .resume v => Sys2Proof.Machine.execResume v s
  | .oryAttestGo path v => Sys2Proof.Machine.execOryAttestGo path v s
  | .h2bPost path => Sys2Proof.Machine.execH2bPost path s
  | .h2bAck path => Sys2Proof.Machine.execH2bAck path s
  | .b2hPost path => Sys2Proof.Machine.execB2hPost path s
  | .b2hAck path => Sys2Proof.Machine.execB2hAck path s
  | .mboxWordWrite path dir k v => Sys2Proof.Machine.execMboxWordWrite path dir k v s
  | .pad tag => Sys2Proof.Machine.execPad tag s
  | .symEnc tag => Sys2Proof.Machine.execSymEnc tag s
  | .symDec tag => Sys2Proof.Machine.execSymDec tag s
  | .macsecTx tag => Sys2Proof.Machine.execMacsecTx tag s
  | .macsecRx tag => Sys2Proof.Machine.execMacsecRx tag s
  | .espOut tag => Sys2Proof.Machine.execEspOut tag s
  | .espIn tag => Sys2Proof.Machine.execEspIn tag s
  | .digest tag => Sys2Proof.Machine.execDigest tag s
  | .mac tag => Sys2Proof.Machine.execMac tag s
  | .macVerify tag => Sys2Proof.Machine.execMacVerify tag s
  | .compare tag => Sys2Proof.Machine.execCompare tag s
  | .rsaPriv tag => Sys2Proof.Machine.execRsaPriv tag s
  | .rsaPub tag => Sys2Proof.Machine.execRsaPub tag s
  | .sign tag => Sys2Proof.Machine.execSign tag s
  | .verify tag => Sys2Proof.Machine.execVerify tag s
  | .keyAgree tag => Sys2Proof.Machine.execKeyAgree tag s
  | .kemEncaps tag => Sys2Proof.Machine.execKemEncaps tag s
  | .kemDecaps tag => Sys2Proof.Machine.execKemDecaps tag s
  | .keygen tag => Sys2Proof.Machine.execKeygen tag s
  | .random tag => Sys2Proof.Machine.execRandom tag s
  | .nextKeyDerive tag => Sys2Proof.Machine.execNextKeyDerive tag s
  | .nextKeyUnwrap tag => Sys2Proof.Machine.execNextKeyUnwrap tag s
  | .controlPad slot => Sys2Proof.Machine.execControlPad slot s
  | .instCreate slot => Sys2Proof.Machine.execInstCreate slot s
  | .instResize slot => Sys2Proof.Machine.execInstResize slot s
  | .instReset slot => Sys2Proof.Machine.execInstReset slot s
  | .instResetRelease slot => Sys2Proof.Machine.execInstResetRelease slot s
  | .instResetComplete slot => Sys2Proof.Machine.execInstResetComplete slot s
  | .instEnable slot => Sys2Proof.Machine.execInstEnable slot s
  | .instDisable slot => Sys2Proof.Machine.execInstDisable slot s
  | .instDisableEclipse slot => Sys2Proof.Machine.execInstDisableEclipse slot s
  | .instStopComplete slot => Sys2Proof.Machine.execInstStopComplete slot s
  | .ctxLoad slot => Sys2Proof.Machine.execCtxLoad slot s
  | .ctxEvict slot => Sys2Proof.Machine.execCtxEvict slot s
  | .ctxEvictDelete slot => Sys2Proof.Machine.execCtxEvictDelete slot s
  | .ctxEvictFlush slot => Sys2Proof.Machine.execCtxEvictFlush slot s
  | .ctxPin slot => Sys2Proof.Machine.execCtxPin slot s
  | .ctxExport slot => Sys2Proof.Machine.execCtxExport slot s
  | .ctxImport slot => Sys2Proof.Machine.execCtxImport slot s
  | .ctxRekey slot => Sys2Proof.Machine.execCtxRekey slot s
  | .keyDerive slot => Sys2Proof.Machine.execKeyDerive slot s
  | .keyUnwrap slot => Sys2Proof.Machine.execKeyUnwrap slot s
  | .keyUnwrapKem slot => Sys2Proof.Machine.execKeyUnwrapKem slot s
  | .keyUnwrapRestore slot => Sys2Proof.Machine.execKeyUnwrapRestore slot s
  | .keyInvalidate slot => Sys2Proof.Machine.execKeyInvalidate slot s
  | .hmacSlotLoad slot => Sys2Proof.Machine.execHmacSlotLoad slot s
  | .tamperCfg slot => Sys2Proof.Machine.execTamperCfg slot s
  | .attestPlain slot => Sys2Proof.Machine.execAttestPlain slot s
  | .attestOffer slot => Sys2Proof.Machine.execAttestOffer slot s
  | .attestRespond slot => Sys2Proof.Machine.execAttestRespond slot s
  | .attestProvKey slot => Sys2Proof.Machine.execAttestProvKey slot s
  | .attestFinish slot => Sys2Proof.Machine.execAttestFinish slot s
  | .imageStage slot => Sys2Proof.Machine.execImageStage slot s
  | .imageCommit slot => Sys2Proof.Machine.execImageCommit slot s
  | .imageRollback slot => Sys2Proof.Machine.execImageRollback slot s
  | .forgeRetire slot => Sys2Proof.Machine.execForgeRetire slot s
  | .forgeRestore slot => Sys2Proof.Machine.execForgeRestore slot s
  | .calibrate slot => Sys2Proof.Machine.execCalibrate slot s
  | .ledgerWriteConfig slot => Sys2Proof.Machine.execLedgerWriteConfig slot s
  | .vaultRotate slot => Sys2Proof.Machine.execVaultRotate slot s
  | .ledgerWriteCheckpoint slot => Sys2Proof.Machine.execLedgerWriteCheckpoint slot s
  | .dirtySwap slot => Sys2Proof.Machine.execDirtySwap slot s
  | .clockSetCal slot => Sys2Proof.Machine.execClockSetCal slot s
  | .clockSetStep slot => Sys2Proof.Machine.execClockSetStep slot s
  | .fence slot => Sys2Proof.Machine.execFence slot s
  | .logRead slot => Sys2Proof.Machine.execLogRead slot s
  | .startUpComplete rep => Sys2Proof.Machine.execStartUpComplete rep s
  | .attachSequenceComplete rep => Sys2Proof.Machine.execAttachSequenceComplete rep s
  | .forgeFailoverComplete forge ok => Sys2Proof.Machine.execForgeFailoverComplete forge ok s
  | .commandPacketComplete slot => Sys2Proof.Machine.execCommandPacketComplete slot s
  | .yuhamRunningTimeout => Sys2Proof.Machine.execYuhamRunningTimeout s
  | .uncontainedFault => Sys2Proof.Machine.execUncontainedFault s
  | .bothSuppliesLost => Sys2Proof.Machine.execBothSuppliesLost s
  | .xtalReturn => Sys2Proof.Machine.execXtalReturn s
  | .zeroiseNHigh => Sys2Proof.Machine.execZeroiseNHigh s

end Sys2Proof.Machine
end

