-- ==== Sys2Proof/Safety.lean ====
section
/-! DEFINITION. What counts as a safe run, and the terms the statements use: when the RAP answers, what a command packet and a job
act on when their turn comes, and how far the lifecycle has gone. -/

namespace Sys2Proof.Machine

/-- A run of `n` steps that the model carries through without a stop. -/
def runs : Nat → State → Bool
  | 0, _ => true
  | n + 1, s =>
    match step s with
    | .next t => runs n t
    | .fault _ => false
    | .refused _ => false

/-- The register port answers: main power is up and the block has not halted itself (R444, R483). -/
def State.portUp (s : State) : Bool := powered s && !s.modes.halted

/-- The register port takes a write at an address: it answers, and on an IC-extended RAP the word's Integrity Code holds (R66, R69, R70). -/
def State.takes (s : State) (addr : Nat) (v : RapWord) : Bool := s.portUp && !rapIcBad s addr v

/-- A register write through a path is taken: the I3C target's words carry no Integrity Code. -/
def State.pathTakes (s : State) (path : Path) (addr : Nat) (v : RapWord) : Bool :=
  match path with
  | .rap => s.takes addr v
  | .i3c => s.portUp

/-- The state in which an answered transfer finds the block: on the RAP, with RAP_ERR low. -/
def State.answered (s : State) (path : Path) : State :=
  match path with
  | .rap => s.modPort fun p => { p with rapErr := false }
  | .i3c => s

/-- The lifecycle fuses never go back: MANUFACTURE, DEPLOYED, TERMINATED (R360). -/
def Lifecycle.rank : Lifecycle → Nat
  | .manufacture => 0
  | .deployed => 1
  | .terminated => 2

/-- No Silver root is fused before DEPLOYED, and a fused one has 256 bits (R360, R361). -/
def State.silverSound (s : State) : Prop :=
  (s.life = .manufacture → s.silver = none) ∧ ∀ k, s.silver = some k → k.length = 32

/-- The packet that a command's event acts on, and the state it acts on: the packet running at the slot once its reads are there, or
the entry at the head of the control ring, taken and checked, where it reads nothing more (R460, R461). -/
def State.serving (s : State) (slot opc : Nat) (reads : Packet → List (Nat × Nat)) : Option (Packet × State) :=
  if !cmdOn s || cmdHeld s opc then none
  else
    match livePacket s slot opc with
    | some p => if cmdReads s p == .ready then some (p, s) else none
    | none =>
      match cmdHead s slot opc with
      | none => none
      | some e =>
        if cmdMayStart s e && s.port.att == .attached && (cmdCheck s e).isNone then
          let t := startCmd e reads s
          match livePacket t slot opc with
          | some p => if cmdReads t p == .ready then some (p, t) else none
          | none => none
        else none

end Sys2Proof.Machine
end

