-- ==== Sys2Proof/Certificates/Slice0/Obligations.lean ====
section
/-! DEFINITION. The statements for the provers. -/

open Sys2Proof Sys2Proof.Machine

/-- A step at a queue with a command at its front is `exec` of that command on the state with the queue's rest (the queue is the
model's own: log entry 10). -/
def Obligations.StepTakesFront : Prop :=
  ∀ (c : Instr) (rest : List Instr) (s : State), s.pending = c :: rest → step s = exec c { s with pending := rest }

/-- The model's queue discipline (log entry 10): whatever a command does, it leaves the commands behind it waiting in
their order, and an empty queue stays empty. -/
def Obligations.StepKeepsQueueOrder : Prop :=
  ∀ s t : State, step s = .next t → t.pending = s.pending.tail

/-- R360, R361, R493: the lifecycle is held in one-way fuses, MANUFACTURE, then DEPLOYED, then TERMINATED, and the Silver root is fused
once. Whatever the command, a step never lowers the lifecycle, and keeps a Silver root that is there. -/
def Obligations.FusesOneWay : Prop :=
  ∀ s t : State, step s = .next t → s.life.rank ≤ t.life.rank ∧ ∀ k, s.silver = some k → t.silver = some k

/-- R361: the Silver root is generated at the first Boot in DEPLOYED, as 256 bits; so in MANUFACTURE none is there. Every step keeps
that. -/
def Obligations.SilverStaysSound : Prop :=
  ∀ s t : State, s.silverSound → step s = .next t → t.silverSound

/-- The invariant of `SilverStaysSound` holds at reset. (That a new block has blank fuses is the model's choice: log entry 4.) -/
def Obligations.SilverSoundAtReset : Prop := State.reset.silverSound

/-- R365, R366: what `envMake` seals under a key, with any IV of 12 bytes, `envOpen` gives back under that key for the same TYPE, ALG
and PT_LEN; for another TYPE, another ALG or another length it gives nothing. -/
def Obligations.EnvelopesOpen : Prop :=
  ∀ (key : List Byte) (typ alg : Nat) (pt iv : List Byte), iv.length = 12 →
    let env := envMake key typ alg pt iv
    env.length = 44 + pt.length ∧ envOpen key typ alg pt.length env = some pt ∧
    ∀ typ' alg' n : Nat, byte typ' ≠ byte typ ∨ byte alg' ≠ byte alg ∨ n ≠ pt.length → envOpen key typ' alg' n env = none

/-- R185, R186, R193: the pre-check and the update of step 7 on a slot of a receive context, with REPLAY_PROTECT and a bitmap of at most
64 bits. For ESP, a number that passed is a duplicate after the update. On both protocols a number refused before the update is refused
after it, so the window only moves up. -/
def Obligations.ReplayWindowMovesUp : Prop :=
  ∀ (c : Ctx) (slot n : Nat), slot < 2 → c.replay = true →
    (isEsp c.kind = true → c.replayCheck slot n = none → (c.rxUpdate slot n).replayCheck slot n = some (replayRes 2)) ∧
    (isEsp c.kind = false → c.lowest slot ≤ (c.rxUpdate slot n).lowest slot ∧
      (n + 1 < 2 ^ 64 → n + 1 - c.w ≤ (c.rxUpdate slot n).lowest slot)) ∧
    (∀ m, c.replayCheck slot m ≠ none → (c.rxUpdate slot n).replayCheck slot m ≠ none)

/-- The register tables of the map (R507, R508): GLB_CAPS, the TIME latch with LOST, GLB_INST_EN, GLB_LOCK_STATUS, the scratch and
mailbox registers, the counters of both HMPs, DSP_STATUS, the NR summary,
and the registers of each instance page. -/
def Obligations.ResetRegisters : Prop :=
  (∀ x ∈ [(0x4, 0x00800849), (0x40, 0), (0x44, 0x80000000), (0x48, 0), (0x60, 0), (0x1000, 0x06000000)],
    regShown .rap x.1 State.reset = x.2) ∧
  (∀ j < 4, regShown .rap (0x50 + 4 * j) State.reset = 0) ∧
  (∀ i < 16, regShown .rap (0x70 + 4 * i) State.reset = 0) ∧
  (∀ i < 32, regShown .rap (0x200 + 4 * i) State.reset = 0 ∧ regShown .rap (0x280 + 4 * i) State.reset = 0) ∧
  (∀ k < 2, ∀ j < 8, regShown .rap (0x144 + 0x40 * k + 4 * j) State.reset = 0) ∧
  (∀ j < 8, regShown .rap (0x1100 + 4 * j) State.reset = 0) ∧
  (∀ n < 128, ∀ x ∈ [(0x0, 0), (0x4, 0xFF), (0x8, 0), (0xC, 0), (0x20, 0), (0x24, 0), (0x28, 0), (0x34, 0), (0x40, 0), (0x44, 0),
      (0x48, 0), (0x4C, 0), (0x54, 0x1000)],
    regShown .rap (0x100000 + 0x10000 * n + x.1) State.reset = x.2)

/-- The model's choices (log entries 1 and 3): after a command's effect the block issues its waiting accesses, works
through those that fail and carries a detach on, and nothing else of the state listed here moves, but that a new attach
counts the edges of TP_PPS from its start and that a change of mode ends the rounds in progress; a step on an empty queue advances
the calendar by one period of the 32,768 Hz crystal and changes nothing else. -/
def Obligations.WhatFollows : Prop :=
  (∀ s : State, (conclude s).life = s.life ∧ (conclude s).silver = s.silver ∧ (conclude s).glb = s.glb
    ∧ { (conclude s).time with goodEdges := 0 } = { s.time with goodEdges := 0 }
    ∧ { (conclude s).fab with rounds := 0 } = { s.fab with rounds := 0 } ∧ (conclude s).ctx = s.ctx ∧ (conclude s).dig = s.dig ∧ (conclude s).anv = s.anv
    ∧ (conclude s).cruc = s.cruc ∧ (conclude s).sit = s.sit ∧ (conclude s).tam = s.tam ∧ (conclude s).vigil = s.vigil) ∧
  (∀ s : State, s.pending = [] →
    (s.vigil.frac < 32767 → step s = .next { s with vigil := { s.vigil with frac := s.vigil.frac + 1 } }) ∧
    (s.vigil.frac ≥ 32767 → step s = .next { s with vigil := { s.vigil with frac := 0, sec := (s.vigil.sec + 1) % 2 ^ 48 } }))

/-- R83: while main power is up, BYPASS, IDCODE and SAMPLE/PRELOAD load the instruction register and leave the pins; EXTEST, CLAMP
and HIGHZ take the pins in lifecycle MANUFACTURE or in Test, and elsewhere are one occurrence of TAPINTR (TS15). Nothing else of
the state changes. SAMPLE/PRELOAD and EXTEST shift out what the boundary register captures of the pins (its order is free: log entry
163). IDCODE shifts out version 0x3, part number 0xA032, the manufacturer identity and the leading 1. -/
def Obligations.TapInstructions : Prop :=
  ∀ s : State, powered s = true →
    exec .bypass s = .next { s with port := { s.port with tapIr := .bypass, tapPins := false, tapOut := [] } } ∧
    exec .samplePreload s = .next { s with port := { s.port with
      tapIr := .samplePreload, tapPins := false, tapOut := scanBytes s } } ∧
    exec .idcode s = .next { s with port := { s.port with
      tapIr := .idcode, tapPins := false, tapOut := natLe 4 (0x3A032001 + 2 * (Config.manufacturer % 2 ^ 11)) } } ∧
    (∀ c ir out, (c, ir, out) ∈ [(Instr.extest, TapIr.extest, scanBytes s), (.clamp, .clamp, []), (.highz, .highz, [])] →
      ((s.life = .manufacture ∨ s.modes.mode = .test) →
        exec c s = .next { s with port := { s.port with tapIr := ir, tapPins := true, tapOut := out } }) ∧
      (s.life ≠ .manufacture → s.modes.mode ≠ .test →
        exec c s = .next (conclude (occurrence 15
          { s with port := { s.port with tapIr := ir, tapPins := false, tapOut := [] } }))))

/-- R492: DBG_CHALLENGE shifts out 32 bytes of DRBG output, the serial number, the lifecycle and seven zero bytes, and keeps them with
the time; after three refusals, and while the DRBG gives no output, it shifts out zeros and keeps no challenge. DBG_RESPONSE uses
the challenge up: an accepted one enters Test, and any other is an occurrence of TAPINTR, the third of which locks debug. A free
value (`drawBytes`) stands for the DRBG's output. -/
def Obligations.DebugAuthentication : Prop :=
  (∀ s : State, powered s = true →
    exec .dbgChallenge s = .next
      (if s.glb.dbgLocked ∨ (s.anv.drbg ≠ .running ∧ s.anv.drbg ≠ .single) then
        { s with port := { s.port with tapIr := .challenge, tapPins := false, tapOut := zeros 48 },
                 glb := { s.glb with challenge := none } }
      else
        let b := drawBytes s 32 ++ natLe 8 Config.serial ++ [byte (lifeCode s)] ++ zeros 7
        { s with port := { s.port with tapIr := .challenge, tapPins := false, tapOut := b },
                 glb := { s.glb with challenge := some { bytes := b, time := now s } }, freeCtr := s.freeCtr + 32 })) ∧
  (∀ (s : State) (resp : List Byte), powered s = true → s.modes.halted = false → inTest s = false →
    let u : State := { s with port := { s.port with tapIr := .response, tapPins := false, tapOut := [] },
                              glb := { s.glb with challenge := none } }
    exec (.dbgResponse resp) s = .next
      (if dbgAccepted resp s then conclude (enterTest u)
      else conclude (occurrence 15 { u with glb := { u.glb with
        dbgFails := min 3 (s.glb.dbgFails + 1), dbgLocked := s.glb.dbgLocked || s.glb.dbgFails + 1 ≥ 3 } })))

/-- R56: while main power is up, ENTDAA and SETDASA give the target a dynamic address where it holds none (an address that it holds
already stays, the model's reading: log entry 18), RSTDAA takes it away, ENEC and DISEC set and clear the interrupt enable, SETMWL
stores the write length, and the GET codes return theirs with the most significant byte first (GETSTATUS two free bytes). Nothing
else of the state changes. -/
def Obligations.CommonCommandCodes : Prop :=
  ∀ s : State, powered s = true →
    (∀ (c : BitVec 7 → Instr) (a : BitVec 7), c ∈ [Instr.entdaa, Instr.setdasa] →
      (s.port.i3cDyn = none → exec (c a) s = .next { s with port := { s.port with i3cDyn := some a } }) ∧
      (s.port.i3cDyn ≠ none → exec (c a) s = .next s)) ∧
    exec .rstdaa s = .next { s with port := { s.port with i3cDyn := none } } ∧
    exec .enec s = .next { s with port := { s.port with ibiEn := true } } ∧
    exec .disec s = .next { s with port := { s.port with ibiEn := false } } ∧
    (∀ w, exec (.setmwl w) s = .next { s with port := { s.port with mwl := w } }) ∧
    exec .getmwl s = .next { s with port := { s.port with cccOut := [byte (s.port.mwl.toNat / 256), byte s.port.mwl.toNat] } } ∧
    exec .getmrl s = .next { s with port := { s.port with cccOut := [byte (Config.i3cMrl / 256), byte Config.i3cMrl] } } ∧
    exec .getpid s = .next { s with port := { s.port with cccOut := (natLe 6 (Config.i3cIdent 0)).reverse } } ∧
    exec .getbcr s = .next { s with port := { s.port with cccOut := natLe 1 (Config.i3cIdent 1) } } ∧
    exec .getdcr s = .next { s with port := { s.port with cccOut := natLe 1 (Config.i3cIdent 2) } } ∧
    exec .getstatus s = .next { s with port := { s.port with cccOut := natLe 2 (Config.i3cIdent (3 + s.freeCtr)) },
                                       freeCtr := s.freeCtr + 1 }

/-- R57: a private write of 3 bytes sets the pointer and nothing else, while the block is halted too; one of 7 bytes sets the pointer
and writes the register (here a scratch register, 0x70 to 0xAF), or only sets I3C_REFUSED where I3C may not write it (here one past
0x52F); one of any other length sets I3C_REFUSED and leaves the pointer; a private read gives its words from the pointer on, which
passes each, and a word above 0xFFF reads zero and sets I3C_REFUSED. -/
def Obligations.I3cTransfers : Prop :=
  ∀ s : State, powered s = true →
    (∀ a, exec (.i3cPointerWrite a) s = .next { s with port := { s.port with i3cPtr := a } }) ∧
    (∀ (a : BitVec 24) (v : Word), s.modes.halted = false → 0x70 ≤ a.toNat → a.toNat < 0xB0 → a.toNat % 4 = 0 →
      exec (.i3cRegisterWrite a v) s = .next (conclude { s with
        port := { s.port with i3cPtr := a },
        glb := { s.glb with scratch := tset s.glb.scratch 0 ((a.toNat - 0x70) / 4) v } })) ∧
    (∀ (a : BitVec 24) (v : Word), s.modes.halted = false → 0x530 ≤ a.toNat →
      exec (.i3cRegisterWrite a v) s = .next (conclude { s with
        port := { s.port with i3cPtr := a, fault := s.port.fault ||| word (2 ^ 25) } })) ∧
    (∀ n, n ≠ 3 → n ≠ 7 →
      exec (.i3cRefusedWrite n) s = .next { s with port := { s.port with fault := s.port.fault ||| word (2 ^ 25) } }) ∧
    (∀ n, exec (.i3cPrivateRead n) s = .next (i3cWords n [] s)) ∧
    (∀ (n : Nat) (out : List Word), 0xFFF < s.port.i3cPtr.toNat →
      i3cWords (n + 1) out s = i3cWords n (out ++ [0]) { s with
        port := { s.port with fault := s.port.fault ||| word (2 ^ 25), i3cPtr := s.port.i3cPtr + 4 } }) ∧
    (∀ (n : Nat) (out : List Word), s.port.i3cPtr.toNat ≤ 0xFFF → s.port.i3cPtr.toNat % 4 = 0 → s.modes.halted = false →
      let r := regRead .i3c s.port.i3cPtr.toNat s
      i3cWords (n + 1) out s
        = i3cWords n (out ++ [word r.2]) { r.1 with port := { r.1.port with i3cPtr := r.1.port.i3cPtr + 4 } })

/-- R59 to R61, while main power is up and, for samples and edges, TP_CLK runs. A sample whose nanoseconds are below 10^9 and which is
not earlier than the last is taken, and is the time base where TIME_LOST is not set; any other declares TIME_LOST with TP_FORMAT
(and one that decreases is the last sample from then on, unless CLOCK_SET permits the step). An aligned edge sets the calendar to the
time base; under TIME_LOST the second in a row clears it, steps the time base to the Time Port and logs it. A misaligned or missing
edge declares TIME_LOST with TP_PPS. (After each sample the interrupts owed for fault records whose 10 µs have passed are sent: log entry 190;
where none is owed that does nothing.) TP_CLK without an edge stops its monitor's clock bit and declares TIME_LOST. -/
def Obligations.TimePort : Prop :=
  ∀ s : State, powered s = true →
    (∀ (sec : BitVec 48) (ns : BitVec 32), s.port.clkOk.toNat.testBit 4 = true →
      let tod := sec.toNat * 1000000000 + ns.toNat
      (ns.toNat < 1000000000 → s.time.lastTod ≤ tod →
        exec (.tpTodSample sec ns) s = .next (fltServe { s with time := { s.time with
          lastTod := tod, now := if s.time.lost then s.time.now else tod } })) ∧
      (1000000000 ≤ ns.toNat → exec (.tpTodSample sec ns) s = .next (fltServe (timeLost 0x10000 s))) ∧
      (ns.toNat < 1000000000 → tod < s.time.lastTod → leapAllowed s tod = false →
        exec (.tpTodSample sec ns) s = .next (fltServe (let t := timeLost 0x10000 s
          { t with time := { t.time with lastTod := tod } })))) ∧
    (∀ u : State, (∀ p ∈ u.insts, p.2.fltOwed = none) → fltServe u = u) ∧
    (s.port.clkOk.toNat.testBit 4 = true →
      (s.time.lost = false → exec (.tpPpsEdge true) s = .next { s with vigil := { s.vigil with
        sec := s.time.now / 1000000000, frac := s.time.now % 1000000000 * 32768 / 1000000000 } }) ∧
      (s.time.lost = true → s.time.goodEdges = 0 →
        exec (.tpPpsEdge true) s = .next { s with time := { s.time with goodEdges := 1 } }) ∧
      (s.time.lost = true → 1 ≤ s.time.goodEdges →
        exec (.tpPpsEdge true) s = .next (portEvent 1 { s with
          time := { s.time with lost := false, goodEdges := 0, now := s.time.lastTod },
          vigil := { s.vigil with sec := s.time.lastTod / 1000000000,
                                  frac := s.time.lastTod % 1000000000 * 32768 / 1000000000 } })) ∧
      exec (.tpPpsEdge false) s = .next (timeLost 0x20000 s) ∧
      exec .tpClockStopped s = .next (conclude (portEvent 6 (timeLost 0 { s with port := { s.port with
        clkOk := s.port.clkOk &&& 0x2F, fault := s.port.fault ||| 0x10 } })))) ∧
    exec .tpPpsMissing s = .next (timeLost 0x20000 s) ∧
    (∀ cause, (timeLost cause s).time = { s.time with goodEdges := 0, lost := true } ∧
      (timeLost cause s).port.fault = s.port.fault ||| word cause ||| (if s.time.lost then 0 else 0x40000))

/-- R63, R64, R71: a port clock that stops clears its clock bit, sets its CLK_STOP bit and logs it (an HMP's clock fails that HMP, and
TP_CLK declares TIME_LOST); one that runs again sets its clock bit. SRP_ACK's rise lowers SRP_REQ and puts the code in force, its fall
ends the request, a timeout sets SRP_TIMEOUT and lowers SRP_REQ, and a write of 1 to SRP_TIMEOUT clears the bits written 1. -/
def Obligations.ClocksAndSupply : Prop :=
  (∀ (s : State) (k : Fin 6), powered s = true → s.port.clkOk.toNat.testBit k = true →
    let t : State := { s with port := { s.port with
      clkOk := s.port.clkOk &&& ~~~(BitVec.ofNat 6 (2 ^ k.val)), fault := s.port.fault ||| word (2 ^ k.val) } }
    exec (.portClockStop k) s
      = .next (conclude (portEvent 6 (if k.val ≤ 1 then hmpFail k t else if k.val = 4 then timeLost 0 t else t)))) ∧
  (∀ (s : State) (k : Fin 6), powered s = true → s.port.clkOk.toNat.testBit k = false →
    exec (.portClockReturn k) s = .next (conclude (portEvent 7 { s with port := { s.port with
      clkOk := s.port.clkOk ||| BitVec.ofNat 6 (2 ^ k.val) } }))) ∧
  (∀ s : State, s.port.srpReq = true → s.port.srpAck = false →
    exec .srpAckRise s = .next { s with
      port := { s.port with srpReq := false, srpAck := true },
      fab := { s.fab with bellows := { s.fab.bellows with code := s.port.srpCode } } } ∧
    exec .srpTimeout s = .next (portEvent 5 { s with port := { s.port with
      srpReq := false, fault := s.port.fault ||| 0x80000 } })) ∧
  (∀ s : State, s.port.srpAck = true → s.fab.bellows.faulted = false →
    exec .srpAckFall s = .next { s with port := { s.port with srpAck := false } }) ∧
  (∀ (s : State) (v : RapWord), s.takes 0x108 v = true → bit v.toNat 19 = true →
    exec (.srpTimeoutClear v) s = .next { s with port := { s.port with rapErr := false, fault := s.port.fault &&& ~~~v.data } })

/-- R84, R86, R87, R89, after Boot and unless the block is halted. From DETACHED, ATT_REQ's rise with DET_REQ low leads to ATTACHING,
from whose start the good edges of TP_PPS count (R61).
The checks of an attach that pass lead to ATTACHED; those that fail set the bits of the clocks and ports that failed, leave ATT_ACK
low, log it and raise the in-band interrupt; those during which DET_REQ rose go on to the detach. DET_REQ's rise in ATTACHED starts
the detach in Eclipse of cause 2, and in ATTACHING leads to DETACHING; its fall in DETACHED lowers DET_ACK, and an attach pending
then starts. DETACH_DRAIN_LIMIT marks the egress frames that a detach still holds for discard. -/
def Obligations.AttachAndDetach : Prop :=
  ∀ s : State,
    (s.portUp = true → s.modes.mode ≠ .boot → s.port.att = .detached →
      (s.port.detReq = false →
        exec .attReqRise s = .next { s with
          port := { s.port with attReq := true, att := .attaching }, time := { s.time with goodEdges := 0 } }) ∧
      exec (.detReqFall false) s = .next { s with port := { s.port with detReq := false, attReq := false, detAck := false } } ∧
      exec (.detReqFall true) s = .next { s with
        port := { s.port with detReq := false, attReq := true, detAck := false, att := .attaching },
        time := { s.time with goodEdges := 0 } }) ∧
    (s.modes.halted = false → s.port.att = .attached →
      exec .detReqRise s = .next (conclude (detachStart { s with port := { s.port with detReq := true } }))) ∧
    (s.modes.halted = false → s.port.att = .attaching →
      exec .detReqRise s = .next { s with port := { s.port with detReq := true, att := .detaching, detach := .idle } }) ∧
    (s.modes.halted = true → exec .detReqRise s = .next { s with port := { s.port with detReq := true, detAck := true } }) ∧
    (s.port.detach ≠ .idle → exec .detachDrainLimit s = .next (conclude { s with port := { s.port with detachDue := true } })) ∧
    (∀ rep : AttachReport, s.portUp = true → s.modes.mode ≠ .boot →
      (s.port.att = .attaching → rep.clkOk = 0x3F → rep.loopOk = 0x1F →
        exec (.attachSequenceComplete rep) s = .next (conclude (attachGood (attachCheck rep s)))) ∧
      (s.port.att = .attaching → (rep.clkOk ≠ 0x3F ∨ rep.loopOk ≠ 0x1F) →
        exec (.attachSequenceComplete rep) s = .next (raiseIbi (portEvent 3 (let t := attachCheck rep s
          { t with port := { t.port with att := .detached, attAck := false } })))) ∧
      (s.port.att = .detaching → s.port.detach = .idle →
        exec (.attachSequenceComplete rep) s = .next (conclude (detachStart (reread (attachCheck rep s)))))) ∧
    (∀ rep : AttachReport, rep.timeOk = true → attachCheck rep s = { s with port := { s.port with
      clkOk := rep.clkOk, fault := s.port.fault ||| word ((~~~rep.clkOk).toNat + (~~~rep.loopOk).toNat * 1024) } })

/-- R447, R453, R455, R485 to R487. The fall of main power leaves the fuses, the Ledger with its counters as last saved, the tamper
disables and the retained storage, in Vigil. Its rise enters Boot and runs the start-up. The end of the start-up takes the first mode
of R487's list. The loss of both supplies forgets all of the retained storage and marks it. The crystal's stop and return set and
clear XTAL_LOST. -/
def Obligations.PowerAndStartUp : Prop :=
  (∀ s : State, powered s = true → ∃ t, exec .mainPgFall s = .next t ∧
    t.modes = { State.reset.modes with mode := .vigil } ∧ t.life = s.life ∧ t.silver = s.silver ∧
    t.vigil = { s.vigil with src := t.vigil.src, samples := 0 } ∧
    t.ldg.live = t.ldg.saved ∧ t.tam = { State.reset.tam with fused := s.tam.fused, disabled := s.tam.disabled } ∧
    t.rings = [] ∧ t.notifs = [] ∧ t.jobs = [] ∧ t.ctx = [] ∧ t.insts = [] ∧ t.port = State.reset.port ∧
    t.glb = State.reset.glb ∧ t.time = State.reset.time ∧ t.mem = State.reset.mem ∧ t.fab = State.reset.fab ∧
    t.dig = State.reset.dig ∧ t.anv = State.reset.anv ∧ t.cruc = State.reset.cruc ∧ t.str = State.reset.str ∧
    t.sit = State.reset.sit ∧ t.ory = State.reset.ory) ∧
  (∀ (s : State) (rep : BootReport), powered s = false →
    exec (.mainPgRise rep) s = .next (bootRun rep (enterMode .boot { s with
      port := { s.port with attReq := rep.attReq, detReq := rep.detReq, clkOk := rep.attach.clkOk },
      tam := { s.tam with src := tmap (s.vigil.src.map fun p => (p.1, { ready := p.2.ready })) {} fun _ x => x },
      vigil := { s.vigil with src := [] } }))) ∧
  (∀ (s : State) (rep : BootReport), s.modes.mode = .boot → s.modes.stage = .awaitAttach → s.modes.halted = false →
    exec (.startUpComplete rep) s = .next (conclude (reformatRings (selectMode (bootAttach rep.attach s))))) ∧
  (∀ s : State, (selectMode s).modes.mode =
    (if s.vigil.zpend then .zeroised
     else if s.life = .terminated ∨ s.cruc.rootFault ∨ s.modes.fault.toNat.testBit 1 ∨ s.ldg.factory ∨ s.ldg.yRom then .recovery
     else if s.port.att ≠ .attached then .eclipse
     else serviceOrDegraded (selectMode s))) ∧
  (∀ s : State, powered s = false →
    exec .bothSuppliesLost s = .next { s with vigil := { State.reset.vigil with
      retainLost := true, calGone := true, calLost := s.vigil.calLost } }) ∧
  (∀ s : State, exec .xtalStop s = .next { s with vigil := { s.vigil with xtalLost := true } } ∧
    exec .xtalReturn s = .next { s with vigil := { s.vigil with xtalLost := false } })

/-- R43, R46, R47, R502. A response answers the outstanding request with its tag: OKAY completes a write or delivers a read's good
beats (where only words past the header of a ring's header read fail their code, the header is taken and the rest is marked: R126), status 1 ends it as a translation fault of cause 7, any other status as cause 0, each counted. An overdue request fails its
port. A map write maps each of its 32 instances in turn; an instance that changes port waits in `moving` until no request of it is
outstanding on the old one. HMP_RETURN takes a failed port into service again where its clock runs and its loopback passes. -/
def Obligations.HostMemoryPorts : Prop :=
  (∀ (s : State) (k : PortId) (tag : Fin 2048) (r : Req) (data : List Byte) (ics : List (BitVec 16)),
    (s.hmp k.val).out.find? (fun x => x.tag == tag.val) = some r →
    let t := s.modHmp k.val fun h => { h with out := h.out.filter fun x => x.tag != r.tag }
    (r.op ≠ .read → exec (.hmpResponse k tag 0 data ics) s = .next (conclude t)) ∧
    (r.op = .read → data.length = 64 * (r.beats + 1) → beatGood s k.val r data ics = true →
      exec (.hmpResponse k tag 0 data ics) s = .next (conclude (reqData r data t))) ∧
    (r.op = .read → data.length = 64 * (r.beats + 1) → beatGood s k.val r data ics = false → bodyOnly s k.val r data ics = none →
      exec (.hmpResponse k tag 0 data ics) s = .next (conclude (reqFailed r 0 (hmpIcError k.val t)))) ∧
    (∀ id, r.op = .read → data.length = 64 * (r.beats + 1) → beatGood s k.val r data ics = false →
      bodyOnly s k.val r data ics = some id →
      exec (.hmpResponse k tag 0 data ics) s = .next (conclude (reqData r data (markBad id (hmpIcError k.val t))))) ∧
    exec (.hmpResponse k tag 1 data ics) s = .next (conclude (reqFailed r 7 (hmpCount k.val 3 1 t))) ∧
    exec (.hmpResponse k tag 2 data ics) s = .next (conclude (reqFailed r 0 (hmpCount k.val 4 1 t)))) ∧
  (∀ (s : State) (k : PortId), (s.hmp k.val).out ≠ [] → (s.hmp k.val).failed = false →
    exec (.hmpTimeout k) s = .next (conclude (hmpFail k.val (hmpCount k.val 6 1 s)))) ∧
  (∀ (s : State) (v : RapWord),
    (∀ reg : Fin 5, reg ≠ 4 → s.takes (0x110 + 4 * reg.val) v = true → exec (.hmpMapWrite reg v) s = .next ((List.range 32).foldl
      (fun t j => mapInst t (32 * reg.val + j) (v.toNat.testBit j)) (s.answered .rap))) ∧
    (s.takes 0x100 v = true → exec (.hmpMapWrite 4 v) s = .next (mapInst (s.answered .rap) 128 (v.toNat.testBit 8)))) ∧
  (∀ (s : State) (i : Nat) (b : Bool), i < 128 → hmpOf s i ≠ b2n b → (s.hmp (b2n b)).failed = false → i ∉ s.mem.moving →
    mapInst s i b = { s with
      port := { s.port with hmpMap :=
        if b then s.port.hmpMap ||| BitVec.ofNat 128 (2 ^ i) else s.port.hmpMap &&& ~~~(BitVec.ofNat 128 (2 ^ i)) }
      mem := { s.mem with moving := i :: s.mem.moving } }) ∧
  (∀ (s : State) (i : InstId), i.val ∈ s.mem.moving → (s.hmp (1 - hmpOf s i.val)).out.any (ofInst i.val) = false →
    exec (.hmpMoveComplete i) s = .next (conclude { s with
      mem := { s.mem with moving := s.mem.moving.filter fun j => j != i.val } })) ∧
  (∀ (s : State) (k : PortId) (v : RapWord), s.takes 0x14 v = true → (s.hmp k.val).failed = true →
    (s.port.clkOk.toNat.testBit k.val = true → exec (.hmpReturn k ⟨v, true⟩) s = .next (conclude (settleMode (portEvent 8
      ((s.answered .rap).modHmp k.val fun h => { h with failed := false, icTimes := [] }))))) ∧
    exec (.hmpReturn k ⟨v, false⟩) s = .next ((s.answered .rap).modModes fun m => { m with cfgErr := true }))

/-- R97, R98, R107, R108, R110, in an attached block where nothing holds the ring's scans back: a doorbell starts the scan of the
ring it names, or records one further scan where one runs; the sweep does so for an AUTO_SWEEP ring without a scan; a scan that
waited reads the next header once the cache holds fewer than 8 entries of the ring. A doorbell of a ring that is not ENABLED, and one
that names no ring of the page's instance, only end the transfer. -/
def Obligations.DoorbellsAndScans : Prop :=
  (∀ (s : State) (page : InstId) (k : Fin 1024) (v : RapWord) (n : Nat), s.takes (0xA00000 + 0x1000 * page.val + 4 * k.val) v = true →
    doorbellRing s page.val k.val = some n →
    ((s.ring n).st = .enabled → scansOff s n = false → scansHeld s n = false → (s.ring n).invDone = true →
      exec (.doorbell page ⟨k, v⟩) s
        = .next (conclude (startScan n ((s.answered .rap).modRing n fun r => { r with noScan := false })))) ∧
    ((s.ring n).st ≠ .enabled → exec (.doorbell page ⟨k, v⟩) s = .next (conclude (s.answered .rap)))) ∧
  (∀ (s : State) (page : InstId) (k : Fin 1024) (v : RapWord), s.takes (0xA00000 + 0x1000 * page.val + 4 * k.val) v = true →
    doorbellRing s page.val k.val = none → exec (.doorbell page ⟨k, v⟩) s = .next (s.answered .rap)) ∧
  (∀ (s : State) (n : RingId), let r := s.ring n.val
    r.auto = true → r.st = .enabled → r.scanSt = .idle → r.invDone = true → r.noScan = false →
    scansOff s n.val = false → scansHeld s n.val = false →
    exec (.autoSweep n) s = .next (conclude (startScan n.val s))) ∧
  (∀ (s : State) (n : RingId), let r := s.ring n.val
    r.scanSt = .waiting → r.cache.length < 8 → r.invDone = true →
    exec (.scanContinue n) s = .next (conclude (readHeader n.val s))) ∧
  (∀ (s : State) (n : Nat),
    ((s.ring n).scanSt = .idle → startScan n s = scanOn n s) ∧
    ((s.ring n).scanSt ≠ .idle → startScan n s = s.modRing n fun r => { r with further := true }))

/-- R94, R95, R114, R127, R129. RING_SEL takes the number and kind it selects, and RANGE_ERR where it lies outside the ranges of the
page's instance. RING_CTL with ENABLE on a DISABLED ring takes the configuration and, where that is valid, enables the ring: scan
pointer, done-head, RETIRED, count and flags 0, LAP 1 expected, the done-head word written; else it is DISABLED with CFG_ERR. On a STOPPING ring
the enable waits. RING_CTL without ENABLE starts the stop of an ENABLED ring, whose completion leaves it DISABLED with its done-head
written and its last record decided, with the flags of what stopped it, and applies a waiting enable. RING_INV marks the range of an ENABLED ring and stops further scans. -/
def Obligations.SubmissionRingRegisters : Prop :=
  (∀ (s : State) (page : InstId) (v : RapWord), s.takes (pageBase page.val + 0x20) v = true →
    let i := s.inst page.val
    let k := fld v.toNat 0 12
    exec (.ringSelWrite page v) s = .next ((s.answered .rap).modInst page.val fun x => { x with
      ringSel := k, selNr := bit v.toNat 16,
      rangeErr := !((if bit v.toNat 16 then k < 256 && i.nqFirst ≤ k && k < i.nqFirst + i.nqCount
                     else i.sqFirst ≤ k && k < i.sqFirst + i.sqCount) && i.st != .unused) })) ∧
  (∀ (s : State) (page : InstId) (v : RapWord) (n : Nat), s.takes (pageBase page.val + 0x2C) v = true → winRing s page.val = some n →
    let t := ringConfig n v.toNat ((s.answered .rap).modRing n fun r =>
      { r with fault := r.fault && !bit v.toNat 5, cfgErr := r.cfgErr && !bit v.toNat 6 })
    enableHeld t n = false →
    (bit v.toNat 0 = true → (s.ring n).st = .disabled →
      exec (.ringEnable page v) s = .next (conclude (applyEnable n t))) ∧
    (bit v.toNat 0 = true → (s.ring n).st = .stopping →
      exec (.ringEnable page v) s = .next (conclude (t.modRing n fun r => { r with st := .pendingEnable }))) ∧
    (bit v.toNat 0 = false → (s.ring n).st = .enabled →
      exec (.ringStop page v) s = .next (conclude (drainRing n 0x24 (stopJobs n (res 0x24 0)
        (t.modRing n fun r => { r with st := .stopping, endFlags := 4 }))))) ∧
    (bit v.toNat 0 = false → (s.ring n).st = .pendingEnable →
      exec (.ringStop page v) s = .next (conclude (t.modRing n fun r => { r with st := .stopping })))) ∧
  (∀ (s : State) (n : Nat), let r := s.ring n
    (ringCfgBad s n = true → applyEnable n s = s.modRing n fun r => { r with st := .disabled, cfgErr := true }) ∧
    (ringCfgBad s n = false → applyEnable n s = writeDoneHead n (s.setRing n
      { (State.reset.ring n) with
        size := r.size, base := r.base, auto := r.auto, fault := r.fault, cfgErr := r.cfgErr, nrn := r.nrn, nrEn := r.nrEn,
        burst := r.burst, st := .enabled, chained := chainedNow s }))) ∧
  (∀ (s : State) (n : RingId), ringQuiet s n.val = true →
    ((s.ring n.val).st = .stopping ∨ (s.ring n.val).st = .pendingEnable) →
    let r := s.ring n.val
    let t := endNote n.val ((writeDoneHead n.val s).modRing n.val fun x => { x with
      st := .disabled, endFlags := 0, chained := false, flags := if x.nrEn then x.flags ||| x.endFlags else x.flags })
    exec (.ringStopComplete n) s = .next (conclude (if r.st = .pendingEnable then applyEnable n.val t else t))) ∧
  (∀ (s : State) (page : InstId) (v : RapWord) (n : Nat), s.takes (pageBase page.val + 0x30) v = true → winRing s page.val = some n →
    (s.ring n).invDone = true → (s.ring n).st = .enabled →
    exec (.ringInv page v) s = .next ((s.answered .rap).modRing n fun r => { r with
      invDone := false, noScan := true, invBell := false, bell := false, further := false,
      invFirst := fld v.toNat 0 16, invCount := fld v.toNat 16 16 + 1 })) ∧
  (∀ (s : State) (n : RingId), let r := s.ring n.val
    r.invDone = false → r.scanSt ≠ .reading → r.invBell = false →
    exec (.ringInvComplete n) s = .next ((uncacheFrom n.val (inInvRange r) s).modRing n.val fun x =>
      { x with invDone := true, scanSt := .idle }))

/-- R135: the enable of a submission ring that binds to a notification ring of another instance, or to one that is not ENABLED, leaves
it DISABLED with CFG_ERR; ENABLE = 0 on a notification ring with an ENABLED or STOPPING submission ring bound only sets CFG_ERR.
Beside it, R131 to R134 and R524: ENABLE on a DISABLED notification ring of SIZE 10 or below starts at record 0 without NR_OVF and
decides the records owed; above, it sets CFG_ERR; ENABLE = 0 with no such ring bound disables it, the records not yet written pending
again; a write of 1 to NR_OVF clears it and resumes the records; the read before a record, once complete, serves the records it was
made for, or is made again after a first bad Integrity Code, or stops the ring where its translation failed or a second code was bad;
the holdoff's end sends the interrupt it owes and otherwise ends the holdoff. -/
def Obligations.NotificationRings : Prop :=
  (∀ (s : State) (n : Nat), (s.ring n).nrEn = true →
    (nrOwner s (s.ring n).nrn ≠ ringOwner s n ∨ (s.nr (s.ring n).nrn).enabled = false) →
    applyEnable n s = s.modRing n fun r => { r with st := .disabled, cfgErr := true }) ∧
  (∀ (s : State) (page : InstId) (v : RapWord) (k : Nat), s.takes (pageBase page.val + 0x2C) v = true → winNr s page.val = some k →
    let t := (s.answered .rap).modNr k fun r =>
      { r with fault := r.fault && !bit v.toNat 5, cfgErr := r.cfgErr && !bit v.toNat 6, ovf := r.ovf && !bit v.toNat 7,
               vec := fld v.toNat 8 3, irqEn := bit v.toNat 11, holdoff := fld v.toNat 12 8 }
    (bit v.toNat 0 = true → (s.nr k).enabled = false → (s.nr k).size ≤ 10 → (s.nr k).ovf = false →
      exec (.nrEnable page v) s = .next (conclude (resumeNotes k (t.modNr k fun r =>
        { r with enabled := true, scan := 0, half := false, ovf := false })))) ∧
    (bit v.toNat 0 = true → (s.nr k).enabled = false → 10 < (s.nr k).size → (s.nr k).ovf = false →
      exec (.nrEnable page v) s = .next (conclude (t.modNr k fun r => { r with cfgErr := true }))) ∧
    (bit v.toNat 0 = false → (s.nr k).enabled = true → nrBound s k = true → (s.nr k).ovf = false →
      exec (.nrDisable page v) s = .next (conclude (t.modNr k fun r => { r with cfgErr := true }))) ∧
    (bit v.toNat 0 = false → (s.nr k).enabled = true → nrBound s k = false → (s.nr k).ovf = false → (s.nr k).rdId = none →
      exec (.nrDisable page v) s = .next (conclude ((unwriteRecs k t).modNr k fun r =>
        { r with enabled := false, rdId := none, retry := false }))) ∧
    (bit v.toNat 0 = true → bit v.toNat 7 = true → (s.nr k).enabled = true → (s.nr k).ovf = true →
      exec (.nrOvfClear page v) s = .next (conclude (resumeNotes k t)))) ∧
  (∀ (s : State) (k n : Nat), (n, s.ring n) ∈ s.rings → ((s.ring n).st = .enabled ∨ (s.ring n).st = .stopping) →
    (s.ring n).nrEn = true → (s.ring n).nrn = k → nrBound s k = true) ∧
  (∀ (s : State) (k : NrId) (id : Nat) (b : RdBuf), (s.nr k.val).rdId = some id → s.buf? id = some b →
    let t := dropBuf b.id (s.modNr k.val fun x => { x with rdId := none, retry := false })
    (b.res = .ok → exec (.notificationRecord k) s = .next (conclude (nrDeliver k.val b.data t))) ∧
    (∀ c a l, b.res = .xlate c a l → exec (.notificationRecord k) s = .next (conclude (nrFault k.val t))) ∧
    (b.res = .ic → (s.nr k.val).retry = true → exec (.notificationRecord k) s = .next (conclude (nrFault k.val t))) ∧
    (b.res = .ic → (s.nr k.val).retry = false → exec (.notificationRecord k) s
      = .next (conclude (nrRead k.val (t.modNr k.val fun x => { x with retry := true }))))) ∧
  (∀ (s : State) (k : NrId),
    (∀ v dp, (s.nr k.val).owed = some (v, dp) → exec (.interruptHoldoffExpiry k) s = .next (conclude (sendVector (nrInst s k.val) v dp
      (s.modNr k.val fun x => { x with sent := some (now s), owed := none })))) ∧
    ((s.nr k.val).owed = none → exec (.interruptHoldoffExpiry k) s = .next (s.modNr k.val fun x => { x with sent := none })))

/-- R422: an event of a masked vector queues no message and sets its PEND bit, and a second such event changes nothing more; clearing
the mask bit of a vector with PEND set (no other vector then pending) sends one message and clears the bit. Beside it, R421: an
unmasked vector with an address queues one masked write of its data to that address. -/
def Obligations.InterruptVectors : Prop :=
  (∀ (s : State) (i v : Nat) (dp : Bool), (s.inst i).mask.toNat.testBit v = true →
    let t := s.modInst i fun x => { x with pend := x.pend ||| BitVec.ofNat 8 (2 ^ v),
                                           pendCp := if dp then x.pendCp else x.pendCp ||| BitVec.ofNat 8 (2 ^ v) }
    sendVector i v dp s = t ∧ t.mem = s.mem ∧ (t.inst i).mask = (s.inst i).mask ∧
    ((sendVector i v dp t).inst i).pend = (t.inst i).pend ∧ (sendVector i v dp t).mem = s.mem) ∧
  (∀ (s : State) (i v : Nat) (dp : Bool), (s.inst i).mask.toNat.testBit v = false → (tget (s.inst i).vecs (0, 0) v).1 ≠ 0 →
    let e := tget (s.inst i).vecs (0, 0) v
    sendVector i v dp s = pushAcc { inst := i, op := .writeMask, addr := e.1, phys := true, len := 4, data := natLe 4 e.2.toNat,
                                    own := .vec i, dp := dp } s) ∧
  (∀ (s : State) (page : InstId) (w : RapWord) (v : Fin 8), s.takes (pageBase page.val + 4) w = true →
    (∀ u : Fin 8, ((s.inst page.val).mask.toNat.testBit u.val = true ∧ (s.inst page.val).pend.toNat.testBit u.val = true ∧
      bit w.toNat u.val = false) ↔ u = v) →
    exec (.vectorUnmask page w) s = .next (conclude (sendVector page.val v.val
      (!(s.inst page.val).pendCp.toNat.testBit v.val) ((s.answered .rap).modInst page.val fun x =>
      { x with mask := BitVec.ofNat 8 w.toNat, lost := x.lost && !bit w.toNat 16,
               pend := x.pend &&& ~~~(BitVec.ofNat 8 (2 ^ v.val)), pendCp := x.pendCp &&& ~~~(BitVec.ofNat 8 (2 ^ v.val)) }))))

/-- R105: a chained entry at the head of the reorder buffer of a data ring with result `r` retires as one job: the same status word is
written at byte 8 of every entry of the chain, then every header with OWN clear, in ring order, and the done-head moves past all the
chain's slots; the done-head word then goes out. Beside it, R121 and R122, for a burst that ends after one entry: the head entry
leaves the buffer, RETIRED and the record's count advance, a status other than OK is flagged, and the record follows the done-head
word; an entry with IRQ_NOW ends its burst at once. -/
def Obligations.EntriesRetire : Prop :=
  (∀ (s : State) (n : RingId) (it : RobItem) (rest : List RobItem) (r : Res),
    mayRetire s n.val = true → (s.ring n.val).rob = it :: rest → it.fin = some r →
    (hIrq it.ent.hdr = true → exec (.entryRetire n) s
      = .next (conclude (noteRing n.val true (writeDoneHead n.val (retireOne n.val it r s))))) ∧
    (hIrq it.ent.hdr = false → (rest.head?.map fun x => x.fin.isSome).getD false = false →
      exec (.entryRetire n) s
        = .next (conclude (noteRing n.val false (writeDoneHead n.val (retireOne n.val it r s)))))) ∧
  (∀ (s : State) (n : Nat) (it : RobItem) (r : Res), isControl s n = false → it.iv = [] → it.ent.chain ≠ [] →
    let w := fun (a : Nat) (b : List Byte) (t : State) => startWrite (ringInst s n) a b false (.ringWr n it.ent.slot) true t
    let g := s.ring n
    retireOne n it r s =
      (it.ent.chain.foldl (fun t h => w (g.base + 32 * h.1) (natLe 8 (h.2 % 2 ^ 63)) t)
        (it.ent.chain.foldl (fun t h => w (g.base + 32 * h.1 + 8) (natLe 8 (statusWord r)) t) s)).modRing n fun g =>
      let p := g.after g.doneHead g.dhLap it.ent.slots
      { g with rob := g.rob.drop 1,
               marks := (if ringWriting s n then g.marks else [])
                 ++ [{ seq := s.mem.nextAcc, slot := g.doneHead, lap := g.dhLap, retired := g.retired }],
               doneHead := p.1, dhLap := p.2, retired := (g.retired + 1) % 2 ^ 32,
               since := min 0xFFFF (g.since + 1), flags := if r.status = 0 then g.flags else g.flags ||| 2 }) ∧
  (∀ (c : List (Nat × Nat × List Byte)) (v : Option Res), (chainEntry c v).slots = 2 * c.length ∧
    (chainEntry c v).chain = c.map fun x => (x.1, x.2.1))

/-- R420, R503. With the read of the record at NEXT complete and V = 0 in it, bytes 0 to 23 and then bytes 24 to 31 of the oldest
record are written there; once both writes have been issued, NEXT advances modulo 256 and the interrupt may follow, or, where one of
them faulted, the record is dropped; a record that is not free, or whose read failed, is dropped: OVF is set and
DROPPED counts it, up to 0xFFFF. The end of the fault message's 10 µs sends one message where events came meanwhile. -/
def Obligations.FaultReports : Prop :=
  (∀ (s : State) (i : InstId) (id : Nat) (b : RdBuf) (r : FltRec) (rest : List FltRec),
    let v := s.inst i.val
    v.fltWr = none → v.fltRd = some id → s.buf? id = some b → v.fltRecs = r :: rest → b.res ≠ .pending →
    let t := dropBuf b.id (s.modInst i.val fun x => { x with fltRd := none })
    let a := v.dhBase.toNat * 0x10000 + 0x2000 + 32 * v.fltNext
    (b.res = .ok → bit (leAt b.data 31 1) 7 = false →
      exec (.faultRecordWrite i) s = .next (conclude (fltWritten i.val (conclude
        (startWrite i.val (a + 24) ((fltBytes r).drop 24) false (.fltWr i.val) true
          (startWrite i.val a ((fltBytes r).take 24) false (.fltWr i.val) true
            (t.modInst i.val fun x => { x with fltWr := some true }))))))) ∧
    ((b.res ≠ .ok ∨ bit (leAt b.data 31 1) 7 = true) →
      exec (.faultRecordWrite i) s = .next (conclude (fltKick i.val ((t.modInst i.val fun x =>
        { x with fltRecs := x.fltRecs.drop 1 }).modInst i.val fun x =>
          { x with fltOvf := true, fltDropped := min 0xFFFF (x.fltDropped + 1) }))))) ∧
  (∀ (s : State) (i : InstId), (s.mem.waiting.any fun a => a.own == .fltWr i.val) = false →
    let t := s.modInst i.val fun x => { x with fltRecs := x.fltRecs.drop 1, fltWr := none }
    ((s.inst i.val).fltWr = some true → exec (.faultRecordWrite i) s = .next (conclude (fltKick i.val (fltInterrupt i.val
        (t.modInst i.val fun x => { x with fltNext := (x.fltNext + 1) % 256 }))))) ∧
    ((s.inst i.val).fltWr = some false → exec (.faultRecordWrite i) s = .next (conclude (fltKick i.val
        (t.modInst i.val fun x => { x with fltOvf := true, fltDropped := min 0xFFFF (x.fltDropped + 1) }))))) ∧
  (∀ s : State, s.modes.msgHeld = true →
    let t : State := { s with modes := { s.modes with msgHeld := false, msgOwed := false } }
    exec .faultMsgHoldoff s = .next (if s.modes.msgOwed then conclude (faultMsg t) else t))

/-- R54, R70, R95, R444, R507, R518. A register write whose Integrity Code holds acts on its register: a scratch word and the fault
message's data take the value; RING_BASE_LO of a DISABLED ring sets SIZE and the low part of the base, and with a new value on a ring
that is not DISABLED only sets CFG_ERR. A bad code discards the write with RAP_ERR. An access to 0x91_0000 to 0x9F_FFFF or 0xB0_0000
and above completes with RAP_ERR, read data zero and RAP_UNMAPPED. A halted block answers with RAP_ERR and changes nothing else. -/
def Obligations.RegisterWrites : Prop :=
  (∀ (s : State) (a : BitVec 24) (v : Word) (ic : BitVec 16), s.portUp = true →
    (rapIcBad s a.toNat { data := v, ic := ic } = false →
      exec (.configRegisterWrite a v ic) s = .next (conclude (regWrite a.toNat v.toNat (s.answered .rap)))) ∧
    (rapIcBad s a.toNat { data := v, ic := ic } = true → exec (.configRegisterWrite a v ic) s = .next (conclude (icViolation
      { s with port := { s.port with rapErr := true, fault := s.port.fault ||| 0x4000 } })))) ∧
  (∀ (s : State) (k : Fin 16) (v : Word), regWrite (0x70 + 4 * k.val) v.toNat s
    = { s with glb := { s.glb with scratch := tset s.glb.scratch 0 k.val v } }) ∧
  (∀ (s : State) (v : Word), regWrite 0x28 v.toNat s = { s with modes := { s.modes with msgData := v } }) ∧
  (∀ (s : State) (i : InstId) (v : Word) (n : Nat), winRing s i.val = some n →
    let f := fun r : Ring => { r with size := fld v.toNat 0 4, base := setFld r.base 12 20 (fld v.toNat 12 20) }
    ((s.ring n).st = .disabled → f (s.ring n) ≠ s.ring n →
      regWrite (0x100024 + 0x10000 * i.val) v.toNat s = s.modRing n f) ∧
    ((s.ring n).st ≠ .disabled → f (s.ring n) ≠ s.ring n →
      regWrite (0x100024 + 0x10000 * i.val) v.toNat s = s.modRing n fun r => { r with cfgErr := true })) ∧
  (∀ (s : State) (a : BitVec 24), s.portUp = true → ((0x910000 ≤ a.toNat ∧ a.toNat ≤ 0x9FFFFF) ∨ 0xB00000 ≤ a.toNat) →
    (∀ v, s.takes a.toNat v = true → exec (.rapUnmappedAccess a (some v)) s = .next { s with port := { s.port with
      rapErr := true, rapData := 0, fault := s.port.fault ||| 0x1000000 } }) ∧
    exec (.rapUnmappedAccess a none) s = .next { s with port := { s.port with
      rapErr := true, rapData := 0, fault := s.port.fault ||| 0x1000000,
      rapRic := if s.port.icx.toNat.testBit 4 then rapCode a.toNat 0 else 0 } }) ∧
  (∀ (s : State) (a : BitVec 24) (v : Word) (ic : BitVec 16) (w : Option RapWord), powered s = true → s.modes.halted = true →
    ∀ c ∈ [Instr.configRegisterWrite a v ic, .rapUnmappedAccess a w],
    exec c s = .next { s with port := { s.port with rapErr := true, rapData := 0 } })

/-- R23, R29, R120, R158, R202, R236, R411, R412. Where no grant of a scheduler's round is left, its round boundary starts the next round,
in ascending order from the instance after the first of the last one; each instance takes its new weight and burst; its credit becomes 0
without work, at most its burst while the shaper or a limit holds it, else credit plus weight up to the burst; the lane scheduler's limiter
follows. The next grant is admitted, one of the lane scheduler where the limiter leaves its slot open. An admitted entry whose checks
fail goes to the reorder buffer with its verdict; one that passes gets the lowest free tag, goes to the reorder buffer unfinished and is
resolved; a saved segment goes on. A dispatcher mismatch that names one of two halves retires
that half; one that names the last half, or none, is a block-level fault. -/
def Obligations.DispatcherWork : Prop :=
  (∀ (s : State) (c : Sched), powered s = true → nextGrant s c = none →
    let t := (tkeys s.insts).foldl (fun t i => t.modInst i (roundInst s c i))
      ((s.modFab fun b => { b with rounds := b.rounds ||| schedBit c }).modTurn c (newRound s))
    exec (.schedulerRound c) s = .next
      (if c = .lane then { t with fab := { t.fab with bellows := { t.fab.bellows with limit := t.fab.bellows.pendLimit } } } else t)) ∧
  (∀ (s : State) (c : Sched) (i : Nat) (v : Inst), let w := roundInst s c i v
    w.weight = v.newWeight ∧ w.burst = v.newBurst ∧
    w.credit c = (if hasWork s i c = false then 0
      else if shpHolds v c || heldBack s i c then min (v.credit c) v.newBurst
      else min (v.credit c + v.newWeight) v.newBurst)) ∧
  (∀ (s : State) (c : Sched) (flip : Option Nat) (i : Nat) (w : Work) (u : Turn), nextGrant s c = some (i, w, u) →
    (c ≠ .lane → exec (.admission ⟨c, flip⟩) s = .next (conclude (admitWork i flip w (s.modTurn c fun _ => u)))) ∧
    (c = .lane → slotClosed (passSlot s) = false →
      exec (.admission ⟨c, flip⟩) s = .next (conclude (admitWork i flip w ((passSlot s).modTurn c fun _ => u))))) ∧
  (∀ (s : State) (i : Nat) (n : Nat) (e : Entry) (j : Job), admitWork i none (.entry n e) s = admitEntry n e i s ∧
    admitWork i none (.segment j) s = resumeSegment j s) ∧
  (∀ (s : State) (n i tag : Nat) (e : Entry),
    let t := chargeSlot i (schedOf (hOpc e.hdr)) (firstBytes (hOpc e.hdr) e.body) s
    (∀ v, e.verdict = some v → admitEntry n e i s = t.modRing n fun r =>
      { r with cache := r.cache.drop 1,
               rob := r.rob ++ [{ ent := e, fin := some (chainVerdict (e.headers.any fun h => hdrReserved (hOpc h.2) h.2 e.body) v) }] }) ∧
    (∀ v, e.verdict = none → entryChecks s e = some v → admitEntry n e i s = t.modRing n fun r =>
      { r with cache := r.cache.drop 1, rob := r.rob ++ [{ ent := e, fin := some v }] }) ∧
    (e.verdict = none → entryChecks s e = none → freeJobTag s = some tag → (ringJob n e tag i).egress = none →
      admitEntry n e i s = admitJob tag (State.modRing { t with jobs := t.jobs ++ [ringJob n e tag i] } n fun r =>
        { r with cache := r.cache.drop 1, rob := r.rob ++ [{ ent := e }] }))) ∧
  (∀ s : State, powered s = true →
    (s.fab.halfA = true → s.fab.halfB = true → exec (.dispatcherMismatch (some .a)) s = .next (conclude
      (let t : State := { s with fab := { s.fab with halfA := false } }; reportFault 7 (dspStatus t) 0 0xFF t))) ∧
    (s.fab.halfA = true → s.fab.halfB = true → exec (.dispatcherMismatch (some .b)) s = .next (conclude
      (let t : State := { s with fab := { s.fab with halfB := false } }; reportFault 7 (dspStatus t) 1 0xFF t))) ∧
    (s.fab.halfA = true → s.fab.halfB = false → exec (.dispatcherMismatch (some .a)) s
      = .next (conclude (blockFault 0 { s with fab := { s.fab with halfA := false } }))) ∧
    exec (.dispatcherMismatch none) s = .next (conclude (blockFault 0 s)))

/-- R251, R253 to R257, R476. A fetch that may start asks for the record of its handle and the tree nodes over it. Once its reads
have ended, a failed read or check, that of a lost node over it included, ends it with its fault bit, and an opened record is delivered: where an asker owns it and there is
room, it is loaded into the lowest free entry and the operations that waited are checked again. A due eviction marks the entry
EVICTING and unpins it. A seal whose operations have ended writes record and nodes and frees the entry, or gives up with the fault.
The sweep reads its next record, examines the one it has read, or completes. -/
def Obligations.VaultTransfers : Prop :=
  (∀ (s : State) (h : Handle), fetchStarts s h.toNat = true → (s.vault.misses.any fun m => m.1 = h.toNat) = true →
    (∀ m ∈ s.vault.misses, m.1 = h.toNat → askByCommand s h.toNat m.2 = true ∨ fetchAllowed s = true) →
    exec (.vaultFetch h) s = .next (conclude (startFetch h.toNat s))) ∧
  (∀ (s : State) (h : Handle) (f : Fetch), s.vault.fetches.find? (fun f => f.h = h.toNat) = some f → powered s = true →
    readsEnded s f.rids = true →
    exec (.vaultFetchComplete h) s = .next (conclude (vaultSettle
      (if readsFault s f.rids ≠ 0 then
        endAll f.h (ctxMiss 2) (dropFetch f (vaultFault (readsFault s f.rids) f.h (readsFault s f.rids + 1) s))
       else if topGood s f.h f.rids = false then endAll f.h (ctxMiss 1) (dropFetch f (recFault f.h (some (1, 2)) s))
       else let t := takeTop f.h f.rids s
        match openFetched t f.h (readsData t f.rids) with
        | .error x => endAll f.h (ctxMiss 1) (dropFetch f (recFault f.h x t))
        | .ok r => deliverRecord f r t)))) ∧
  (∀ (s : State) (f : Fetch) (r : Opened), askers s f.h = [recOwner r.hd] → s.ctxOf f.h = none → roomFor s (recOwner r.hd) = .here →
    deliverRecord f r s = releaseHandle f.h (loadRecord f.h r (dropFetch f s))) ∧
  (∀ (s : State) (h : Handle) (e : Nat), s.ctxOf h.toNat = some e → powered s = true → s.vault.en = true → evictDue s e = true →
    (s.vault.evicts.any fun v => v.h = h.toNat) = false →
    let p := vaultRead h.toNat false (s.modCtx e fun c => ({ c with st := .evicting, pin := false }).bump)
    exec (.contextEviction h) s = .next (conclude (p.1.modVault fun v =>
      { v with evicts := v.evicts ++ [{ h := h.toNat, delete := false, flush := false, rids := p.2 }] }))) ∧
  (∀ (s : State) (h : Handle) (v : Evict) (e : Nat), s.vault.evicts.find? (fun v => v.h = h.toNat) = some v →
    s.ctxOf h.toNat = some e → powered s = true → sealWaits s v e = false →
    let n := fun (i : Nat) => (readsData s v.rids).getD i []
    exec (.evictionSeal h) s = .next (conclude (vaultSettle
      (if readsFault s v.rids ≠ 0 then giveUpSeal v e (vaultFault (readsFault s v.rids) v.h (readsFault s v.rids + 1) s)
       else if topGood s v.h v.rids ∧ nodesGood (takeTop v.h v.rids s) v.h (n 0) (n 1) (n 2) ∧ (vaultKey s s.ldg.vkeyGen).isSome then
        sealEntry v e (n 0) (n 1) (n 2) (takeTop v.h v.rids s)
       else giveUpSeal v e (recFault v.h (some (1, 2)) s))))) ∧
  (∀ s : State, sweepRuns s = true →
    (∀ (h : Nat) (rids : List Nat), s.vault.resealRids = some (h, rids) → readsEnded s rids = true →
      (s.vault.fetches.any fun f => f.h = h) = false → exec .resealSweep s = .next (conclude (sweepRecord h rids s))) ∧
    (s.vault.resealRids = none → 2 ^ 24 ≤ s.vault.sweep → exec .resealSweep s = .next (conclude (sweepDone s))) ∧
    (s.vault.resealRids = none → sweepNext 1048576 s s.vault.sweep < 2 ^ 24 → s.vault.fetches = [] →
      exec .resealSweep s = .next (conclude (let h := sweepNext 1048576 s s.vault.sweep
        let p := vaultRead h true s
        p.1.modVault fun v => { v with sweep := h, resealRids := some (h, p.2) }))))

/-- R253, R265, R475. VLT_CTL sets AUTO_FETCH and FREE_MIN and may set the lock. EN = 1 on a Vault out of use with both bases set and no
initialisation running takes it into use; EN = 0 on one in use asks it off, at once where no fetch or eviction runs. INIT on a Vault
out of use raises the tree epoch, zeroes the root node, derives its keys again and starts the writes of all nodes. The initialisation
is complete once every node's write is answered. -/
def Obligations.VaultControl : Prop :=
  (∀ (s : State) (v : RapWord), s.takes 0x3008 v = true →
    let n := v.toNat
    let t := (s.answered .rap).modVault fun x =>
      { x with autoFetch := bit n 1, freeMin := fld n 8 8, lock := x.lock || bit n 31 }
    (bit n 0 = true → bit n 2 = false → s.vault.en = false → s.vault.recBase ≠ 0 → s.vault.treeBase ≠ 0 → s.vault.initBusy = false →
      exec (.vaultEnable v) s = .next (conclude (t.modVault fun x => { x with en := true }))) ∧
    (bit n 0 = false → bit n 2 = false → s.vault.en = true → s.vault.fetches = [] → s.vault.evicts = [] → s.vault.misses = [] →
      exec (.vaultDisable v) s = .next (conclude (t.modVault fun x => { x with en := false, offAsked := false }))) ∧
    (bit n 0 = false → bit n 2 = false → s.vault.en = true → s.vault.fetches ≠ [] →
      exec (.vaultDisable v) s = .next (conclude (t.modVault fun x => { x with offAsked := true }))) ∧
    (bit n 0 = false → bit n 2 = true → s.vault.en = false → s.vault.initBusy = false → (treeKey s).isSome = true →
      exec (.vaultInit v) s = .next (conclude ((deriveVault
        { t with ldg := { t.ldg with treeEpoch := (t.ldg.treeEpoch + 1) % 2 ^ 32 },
                 vigil := { t.vigil with treeRoot := zeroCtrs } }).modVault fun x =>
        { x with nodes := [], lost := false, initBusy := true, initNext := 0 })))) ∧
  (∀ s : State, powered s = true → s.vault.initBusy = true → initTotal ≤ s.vault.initNext → initWrites s = false →
    exec .vaultInitComplete s = .next { s with vault := { s.vault with initBusy := false } })

/-- R121, R148, R202, R204, R207 to R209, R211, R223, R389. An operation at a segment boundary hands out its slice with its engine
state advanced, a Comet job's stripe its own; its last segment ends the text and decides the tag; where it is to stop, it
ends with that outcome; a boundary whose writes are not all taken by the HMP only looks again; a state that fails its check on restoring
is a fault of the Forge. Once the writes are taken, the state reached is the one it would be replayed from. A computed operation whose
output is written and answered completes, one of an instance past its reset point leaves nothing. A Comet job whose stripes are done
gets the combined tag or is held against its own, unless the combiner's check fails. The
frame of a finished operation is committed; that of a failed one, or one oversize by now, is removed. -/
def Obligations.JobsProgress : Prop :=
  (∀ (s : State) (tag : Tag) (k : Fin 16) (j : Job), s.job? tag.val = some j → atBoundary s k.val j = true →
    (∀ l, j.boundaryForge k.val = some l → exec (.segmentBoundary tag ⟨k, false⟩) s = .next (conclude (forgeFault (s.phys l) 4 none s))) ∧
    (voided s j.inst = true → exec (.segmentBoundary tag ⟨k, true⟩) s
      = .next (placeWork (commitSegment tag.val k.val (conclude (abandonJob s j))))) ∧
    (voided s j.inst = false →
      (∀ r, j.stop = some r → j.segDone + 1 < j.segs → exec (.segmentBoundary tag ⟨k, true⟩) s
        = .next (placeWork (commitSegment tag.val k.val (conclude (s.modJob j.tag fun x => x.cut r))))) ∧
      (j.stop = none → j.waitsWrites k.val = true → exec (.segmentBoundary tag ⟨k, true⟩) s
        = .next (placeWork (commitSegment tag.val k.val (conclude s)))) ∧
      (j.stop = none → j.waitsWrites k.val = false →
        (∀ c, j.comet = some c → exec (.segmentBoundary tag ⟨k, true⟩) s
          = .next (placeWork (commitSegment tag.val k.val (conclude (passStripe k.val j c s))))) ∧
        (j.comet = none → isDigestOp j.opc = true → exec (.segmentBoundary tag ⟨k, true⟩) s
          = .next (placeWork (commitSegment tag.val k.val (conclude (passDigest j s))))) ∧
        (j.comet = none → isDigestOp j.opc = false → j.segDone + 1 < j.segs → exec (.segmentBoundary tag ⟨k, true⟩) s
          = .next (placeWork (commitSegment tag.val k.val (conclude (passText j s))))) ∧
        (j.comet = none → isDigestOp j.opc = false → j.segs ≤ j.segDone + 1 → exec (.segmentBoundary tag ⟨k, true⟩) s
          = .next (placeWork (commitSegment tag.val k.val (conclude (endText j s)))))))) ∧
  (∀ (s : State) (tag i : Nat) (j : Job), s.job? tag = some j →
    (unaccepted s j = true → commitSegment tag i s = s) ∧
    (unaccepted s j = false → j.waitsWrites i = true → j.comet = none → isDigestOp j.opc = false →
      commitSegment tag i s = yieldJob j (s.modJob tag fun x => { x with handed := false, back := (x.segDone, x.eng) }))) ∧
  (∀ (s : State) (tag : Tag) (j : Job) (r : Res), s.job? tag.val = some j → completes s j = true → j.res = some r →
    exec (.jobComplete tag) s = .next (conclude
      (if voided s j.inst then placeWork (resumeHeld (abandonJob s j)) else completeJob j r s))) ∧
  (∀ (s : State) (j : Job) (r : Res) (n slot : Nat), r.status ≠ 0 → j.verified = false → j.src = .ring n slot → j.egress = none →
    j.ctxEnt = none → scrubs j.opc r = false →
    completeJob j r s = placeWork (resumeHeld (clearWaiting (handBack j { r with result := 0 }
      ((dropReads j (countOutcome j false s)).modJob j.tag fun x =>
        { x with phase := .finished, res := some { r with result := 0 }, ctxEnt := none, reads := [], place := .none, comet := none,
                 pipe := none, dslot := none }))))) ∧
  (∀ (s : State) (tag : Tag) (j : Job) (c : Comet), s.job? tag.val = some j → stripesReady s j = true → j.comet = some c →
    let k := { j with comet := some { c with combined := true }, eng := { j.eng with dst := j.out.length } }
    let t := s.modJob j.tag fun _ => k
    let n := j.out.length
    (decrypts j.opc = true → exec (.cometCombine tag true) s = .next (conclude
      (closeJob k j.out n [] (if cometTag j c == j.sc.given then res 0 0 n else tagFail) t))) ∧
    (decrypts j.opc = false → fTagSep j.flags = false → exec (.cometCombine tag true) s = .next (conclude
      (closeJob k (j.out ++ cometTag j c) (n + (cometTag j c).length) [] (res 0 0 (n + (cometTag j c).length)) t))) ∧
    (decrypts j.opc = false → fTagSep j.flags = true → exec (.cometCombine tag true) s = .next (conclude
      (closeJob k j.out n (if cometTag j c = [] then [] else [(symTagAddr j.body, cometTag j c)]) (res 0 0 n) t))) ∧
    exec (.cometCombine tag false) s = .next (conclude (forgeFault (s.phys c.holder) 3 none s))) ∧
  (∀ (s : State) (tag : Tag) (j : Job) (p cls n : Nat) (r : Res), s.job? tag.val = some j → working s = true →
    j.phase = .finished → j.egress = some (p, cls, n) → j.res = some r →
    let tooBig := oversize s p cls j.out.length
    exec (.frameCommit tag) s = .next (conclude
      (if r.status = 0 ∧ tooBig = false then frameEnd j p cls r (commitFrame j p cls s)
       else frameEnd j p cls (if r.status = 0 then windowOversize else r) (relatch p (dropEgress j.tag s)))))

/-- R282, R283, R287 to R294. Once its bucket is read a lookup is decided: the matching entry names the frame's context, no match
fails it; a locked bucket is read again, five times at most; a failed read fails the frame. An event record goes into a slot whose
VALID is clear; once its two writes are issued the ring counts on, with the interrupt its lookup was to send; one whose slot was taken,
or whose writes faulted, is lost with EVT_OVF. The holdoff's end sends an interrupt that is
owed. EN on a DISABLED table checks and enables it, EN = 0 starts the stop, and the stop completes once nothing is in flight. -/
def Obligations.SaIndexTable : Prop :=
  (∀ (s : State) (id : Nat) (l : Lookup) (b : RdBuf) (i : Nat),
    s.sit.lookups.find? (fun l => decide (l.id = id) && !l.again) = some l → s.buf? l.rid = some b →
    frameInst s l.port l.frame = some i →
    let t := dropBuf b.id (s.modSit fun t => { t with lookups := t.lookups.filter fun x => x.id != id })
    (b.res = .ok → bit (leAt b.data 0 4) 28 = false → exec (.sitLookup id) s = .next (conclude (sitDecide i l b.data t))) ∧
    (b.res = .ok → bit (leAt b.data 0 4) 28 = true → l.reads < 5 → exec (.sitLookup id) s
      = .next (t.modSit fun t => { t with lookups := t.lookups ++ [{ l with again := true }] })) ∧
    (b.res = .ok → bit (leAt b.data 0 4) 28 = true → 5 ≤ l.reads →
      exec (.sitLookup id) s = .next (conclude (failFrame l.port l.frame (res 0x15 0) t))) ∧
    (∀ c x y, b.res = .xlate c x y → exec (.sitLookup id) s = .next (conclude (failFrame l.port l.frame (res 9 c) t)))) ∧
  (∀ (s : State) (i : Nat) (l : Lookup) (b : List Byte),
    (∀ e, sitMatch l b = some e → sitDecide i l b s = (parityEvent i l (badMask b) (lastHit i l e.1 e.2 s)).modSp l.port fun x =>
      { x with ing := x.ing.map fun f => if f.id = l.frame then { f with st := .named (fld (entWord e.2 0) 0 24) } else f }) ∧
    (sitMatch l b = none → badMask b = 0 → sitDecide i l b s = failFrame l.port l.frame (res 6 3) (missEvent i l s)) ∧
    (sitMatch l b = none → badMask b ≠ 0 →
      sitDecide i l b s = failFrame l.port l.frame (res 0x16 0) (parityEvent i l (badMask b) s))) ∧
  (∀ (s : State) (id : Nat) (l : Lookup) (i : Nat),
    s.sit.lookups.find? (fun l => decide (l.id = id) && l.again) = some l → frameInst s l.port l.frame = some i →
    exec (.sitLockRetry id) s = .next (conclude (sitRead i { l with reads := l.reads + 1, stamped := [] }
      (s.modSit fun t => { t with lookups := t.lookups.filter fun x => x.id != id })))) ∧
  (∀ (s : State) (vi : ViId) (k : Nat) (b : RdBuf) (e : SitEvt) (rest : List SitEvt),
    let i := vi.val
    let x := (s.inst i).sit
    x.wr = none → x.rdId = some k → s.buf? k = some b → x.events = e :: rest →
    let t := dropBuf b.id (s.modTable i fun x => { x with rdId := none })
    (b.res = .ok → bit (leAt b.data 15 1) 7 = false →
      let a := x.evtBase * 0x10000 + 16 * x.evtNext
      exec (.sitEventWrite vi) s = .next (conclude (sitWritten i (conclude
        (startWrite i (a + 8) (e.bytes.drop 8) false (.sitEvtWr i) true
          (startWrite i a (e.bytes.take 8) false (.sitEvtWr i) true
            (t.modTable i fun x => { x with wr := some true }))))))) ∧
    (b.res = .ok → bit (leAt b.data 15 1) 7 = true → exec (.sitEventWrite vi) s = .next (conclude (sitDrop i t)))) ∧
  (∀ (s : State) (vi : ViId) (e : SitEvt) (rest : List SitEvt),
    let i := vi.val
    (s.mem.waiting.any fun a => a.own == .sitEvtWr i) = false → (s.inst i).sit.events = e :: rest →
    ((s.inst i).sit.wr = some true → exec (.sitEventWrite vi) s = .next (conclude (sitKick i (sitInterrupt i e.vec
      (s.modTable i fun x => { x with events := rest, wr := none, evtNext := (x.evtNext + 1) % 2 ^ (6 + x.evtSize) }))))) ∧
    ((s.inst i).sit.wr = some false → exec (.sitEventWrite vi) s = .next (conclude (sitDrop i s)))) ∧
  (∀ (s : State) (i : Nat), sitDrop i s = sitKick i (s.modTable i fun x =>
    { x with events := x.events.drop 1, wr := none, evtOvf := true })) ∧
  (∀ s : State, exec .sitEventMemoryExpiry s = .next (s.modSit fun t => { t with mem := t.mem.drop 1 })) ∧
  (∀ (s : State) (vi : ViId), (s.inst vi.val).sit.holding = true →
    let t := s.modTable vi.val fun x => { x with holding := false, owed := none }
    (∀ v, (s.inst vi.val).sit.owed = some v →
      exec (.sitInterruptHoldoff vi) s = .next (conclude (sitInterrupt vi.val (some v) t))) ∧
    ((s.inst vi.val).sit.owed = none → exec (.sitInterruptHoldoff vi) s = .next t)) ∧
  (∀ (s : State) (vi : ViId) (v : RapWord), s.takes (pageBase vi.val + 0x4C) v = true →
    (bit v.toNat 0 = true → exec (.sitEnable vi v) s = .next (sitCtl vi.val v.toNat (s.answered .rap))) ∧
    (bit v.toNat 0 = false → exec (.sitStop vi v) s = .next (sitCtl vi.val v.toNat (s.answered .rap)))) ∧
  (∀ (s : State) (i : Nat), let t := (s.inst i).sit
    (t.st = .disabled → sitEn i true s = s.modTable i fun t =>
      if t.size < 4 ∨ 22 < t.size ∨ t.base = 0 ∨ (t.evtEn = true ∧ (t.evtBase = 0 ∨ 10 < t.evtSize)) then
        { t with st := .disabled, cfgErr := true }
      else { t with st := .enabled, evtNext := 0 }) ∧
    (t.st = .stopping → sitEn i true s = s.modTable i fun t => { t with st := .pendingEnable }) ∧
    ((t.st = .enabled ∨ t.st = .pendingEnable) → sitEn i false s = s.modTable i fun t => { t with st := .stopping })) ∧
  (∀ (s : State) (vi : ViId), sitBusy s vi.val = false →
    ((s.inst vi.val).sit.st = .stopping →
      exec (.sitStopComplete vi) s = .next (s.modTable vi.val fun t => { t with st := .disabled })) ∧
    ((s.inst vi.val).sit.st = .pendingEnable →
      exec (.sitStopComplete vi) s = .next (sitApply vi.val (s.modTable vi.val fun t => { t with st := .disabled }))))

/-- R50, R51, R70, R162, R380, R386, R391, R392, R402. A frame on a port in service meets the checks in order: one with a bad sideband
or no room, or one that comes late in a detach, is dropped whole, a beat with a bad Integrity Code or a length that does not agree fails it, and any other is counted and
goes on to its policer. With the release stage free, the head that may start is offered, or discarded whole where its word is bad.
The frame offered leaves with its counters. A watermark pair is taken where LOW < HIGH and the ceilings fit, else CFG_ERR. -/
def Obligations.StreamFrames : Prop :=
  (∀ (s : State) (port : PortId) (f : FrameIn), spUp s port.val = true → s.portUp = true →
    let p := port.val
    let c := f.cls.val
    let i := f.inst.val
    let kept := min f.data.length f.len.val
    let full := (f.late && decide (s.port.att = .detaching)) || !f.byp && decide (inOcc (s.sp p) c + cellsOf kept > ceiling (s.sp p) c)
    let badIc := s.port.icx.toNat.testBit (2 + p) && decide (f.ics ≠ wordCodes f.data 0 i)
    let t := spCount p 0 2 c kept (classCount p 1 c s)
    exec (.streamFrameEof port f) s = .next (conclude
      (if sidebandBad s f then portFault (2 ^ 22) (classCount p 4 c s)
       else if full then portFault (2 ^ (20 + p)) (classCount p 3 c s)
       else if badIc then frameOutcome p c i 0 f.colour.val (res 10 0) (icViolation (portFault (2 ^ (12 + p)) s))
       else if f.data.length < f.len.val then frameOutcome p c i 0 f.colour.val (res 2 1) t
       else if f.len.val < f.data.length then frameOutcome p c i 0 f.colour.val (res 3 1) t
       else acceptFrame p f t))) ∧
  (∀ (s : State) (p : Nat) (f : FrameIn), (s.pol f.inst.val p).st ≠ .enabled → f.byp = false → f.hintV = true →
    acceptFrame p f s = relatch p ((s.modStr fun x => { x with nextFrame := s.str.nextFrame + 1 }).modSp p fun x =>
      { x with ing := x.ing ++ [{ id := s.str.nextFrame, f := f, ics := wordCodes f.data 0 f.inst.val, colour := f.colour.val,
                                  prio := if f.cls.val = 7 then ctrlPrio (s.sp p) f.data else 0, st := .named f.hint.toNat }] })) ∧
  (∀ (s : State) (port : PortId) (f : EgFrame), egressFree s port.val = true →
    let t := countHolds port.val s
    nextStart t port.val = some f →
    exec (.egressFrameStart port none) s = .next (t.modSp port.val fun x =>
      { x with offered := f.bytes, offeredIc := outCodes t (2 + port.val) f.bytes 0 f.inst, eg := x.eg.map fun e => if e.seq = f.seq then { e with started := true } else e }) ∧
    (∀ n, storedGood (some n) f.bytes f.ics (fun b => wordCodes b 0 f.inst) = false →
      exec (.egressFrameStart port (some n)) s = .next (conclude (releaseFail port.val f t)))) ∧
  (∀ (s : State) (port : PortId) (f : EgFrame), spUp s port.val = true → (s.sp port.val).eg.find? (fun e => e.started) = some f →
    exec (.egressFrameDone port) s = .next (conclude (dropSeq port.val f.seq
      (spCount port.val 0 6 f.cls (f.bytes.length - 8) (classCount port.val 5 f.cls
        (s.modSp port.val fun x => { x with offered := [], offeredIc := [] })))))) ∧
  (∀ (s : State) (port : PortId) (cls : ClassId) (v : RapWord), s.takes (0x4020 + 0x400 * port.val + 4 * cls.val) v = true →
    let x := s.sp port.val
    let y : StreamSt := { x with wm := tset x.wm {} cls.val { low := fld v.toNat 0 13, high := fld v.toNat 16 13 } }
    let bad := decide (fld v.toNat 16 13 ≤ fld v.toNat 0 13) || decide (4096 < ((List.range 8).map fun k => ceiling y k).sum)
    exec (.watermarkWrite port cls v) s = .next
      (if bad then (s.answered .rap).modSp port.val fun z => { z with cfgErr := true }
       else relatch port.val ((s.answered .rap).modSp port.val fun _ => y)))

/-- R400, R401, R403, R404. An enable from EN = 0 with a valid administrative list fixes the change time: the base time where it lies
10 µs ahead, else the next whole cycle that does. CHANGE on an enabled gate does the same, and is refused with CFG_ERR while a
takeover is pending or where the list is invalid. EN = 0 drops list and takeover and opens every gate. At the change time the
administrative list is the operating list, its frames now oversize are discarded, and an edge takes the states of the schedule. -/
def Obligations.EgressGates : Prop :=
  (∀ (s : State) (port : PortId) (v : RapWord), s.takes (0x5000 + 0x100 * port.val) v = true → ¬ (fld v.toNat 16 12 = 0 ∨ 2048 < fld v.toNat 16 12) →
    let p := port.val
    let g := (s.sp p).gate
    let t := (s.answered .rap).modGate p fun x => { x with lostAct := fld v.toNat 2 2, ovh := fld v.toNat 8 8, line := fld v.toNat 16 12 }
    let at0 := changeTime (t.sp p).gate (now t)
    (bit v.toNat 0 = true → g.en = false → g.pending = none → adminOk g = true → exec (.gateEnable port v) s
      = .next (gateShow p ((t.modGate p fun x => { x with en := true }).modGate p fun x => { x with pending := some at0 }))) ∧
    (bit v.toNat 0 = true → g.en = false → adminOk g = false →
      exec (.gateEnable port v) s = .next (t.modGate p fun x => { x with cfgErr := true })) ∧
    (bit v.toNat 0 = true → bit v.toNat 1 = true → g.en = true → g.pending = none → adminOk g = true →
      exec (.gateChange port v) s = .next (t.modGate p fun x => { x with pending := some at0 })) ∧
    (bit v.toNat 0 = true → bit v.toNat 1 = true → g.en = true → (g.pending ≠ none ∨ adminOk g = false) →
      exec (.gateChange port v) s = .next (t.modGate p fun x => { x with cfgErr := true }))) ∧
  (∀ (s : State) (port : PortId) (v : RapWord), s.takes (0x5000 + 0x100 * port.val) v = true → bit v.toNat 0 = false →
    let p := port.val
    exec (.gateDisable port v) s = .next (conclude (gateShow p (((s.answered .rap).modGate p fun x =>
      { x with lostAct := fld v.toNat 2 2, ovh := fld v.toNat 8 8, line := fld v.toNat 16 12 }).modGate p fun x =>
      { x with en := false, pending := none, oper := [], operCycle := 0, operStart := 0 })))) ∧
  (∀ (g : Gate) (t : Nat), let base := g.baseSec * 1000000000 + g.baseNs
    (t + 10000 ≤ base → changeTime g t = base) ∧
    (base < t + 10000 → 0 < g.cycle → let at0 := changeTime g t
      t + 10000 ≤ at0 ∧ at0 < t + 10000 + g.cycle ∧ (at0 - base) % g.cycle = 0)) ∧
  (∀ (s : State) (port : PortId) (at0 : Nat), (s.sp port.val).gate.pending = some at0 → at0 ≤ now s →
    let t := s.modGate port.val fun g => { g with oper := adminList g, operCycle := g.cycle, operStart := at0, pending := none }
    exec (.gateTakeover port) s = .next (conclude (gateShow port.val
      (((t.sp port.val).eg.filter fun f => f.committed && !f.started && !f.stub && oversize t port.val f.cls f.len).foldl
        (fun t f => discardOversize port.val f t) t)))) ∧
  (∀ (s : State) (port : PortId),
    exec (.gateEdge port) s = .next (s.modGate port.val fun g => { g with cur := gatesNow s g }) ∧
    ((s.sp port.val).gate.en = false → gatesNow s (s.sp port.val).gate = 0xFF))

/-- R397 to R399, R413, R414, on the policer that POL_SEL selects. EN on a DISABLED one applies a valid staged set with full buckets,
else sets CFG_ERR; EN = 0 stops an ENABLED one; an enable while STOPPING waits and is applied at the stop's end. APPLY takes a valid
staged set with both buckets clipped. A shaper write with EN = 1 and RATE = 0 only sets CFG_ERR; another takes RATE and EN, forgives
a debt where asked, and fills the bucket when EN rises. A microsecond refills an enabled shaper. -/
def Obligations.PolicersAndShapers : Prop :=
  (∀ (s : State) (v : RapWord), s.takes 0x4804 v = true →
    let sel := s.str.polSel.toNat
    let t := now s
    let f := fun (en : Bool) => (s.answered .rap).modPol (fld sel 0 7) (fld sel 7 1) fun q =>
      let q1 := polEn t en { q with aware := bit v.toNat 1, redMark := bit v.toNat 2, cfgErr := q.cfgErr && !bit v.toNat 6 }
      if bit v.toNat 3 then polApply t q1 else q1
    (bit v.toNat 0 = true → exec (.policerEnable v) s = .next (f true)) ∧
    (bit v.toNat 0 = false → exec (.policerStop v) s = .next (f false)) ∧
    (bit v.toNat 3 = true → exec (.policerApply v) s = .next (f (bit v.toNat 0)))) ∧
  (∀ (t : Nat) (q : Policer),
    (q.st = .disabled → polEn t true q = (if stagedOk q then
        { q with st := .enabled, cir := q.sCir, pir := q.sPir, cbs := q.sCbs, pbs := q.sPbs, tc := q.sCbs * 8000,
                 tp := q.sPbs * 8000, last := t }
      else { q with cfgErr := true, st := .disabled })) ∧
    (q.st = .enabled → polEn t false q = { q with st := .stopping }) ∧
    (q.st = .stopping → polEn t true q = { q with st := .pendingEnable }) ∧
    (q.st = .pendingEnable → polEn t false q = { q with st := .stopping }) ∧
    (stagedOk q = true → polApply t q = { q with
      cir := q.sCir, pir := q.sPir, cbs := q.sCbs, pbs := q.sPbs, last := t,
      tc := min (min (q.cbs * 8000) (q.tc + q.cir * (t - q.last))) (q.sCbs * 8000),
      tp := min (min (q.pbs * 8000) (q.tp + q.pir * (t - q.last))) (q.sPbs * 8000) }) ∧
    (stagedOk q = false → polApply t q = { q with cfgErr := true })) ∧
  (∀ (s : State) (vi : ViId) (port : PortId),
    exec (.policerStopComplete vi port) s = .next (s.modPol vi.val port.val fun q =>
      if q.st = .stopping then { q with st := .disabled }
      else if q.st = .pendingEnable then polEn (now s) true { q with st := .disabled } else q)) ∧
  (∀ (s : State) (v : RapWord), s.takes 0x6004 v = true → s.glb.instSel ≤ 128 →
    exec (.shaperConfig v) s = .next ((s.answered .rap).modInst s.glb.instSel fun x =>
      let on := bit v.toNat 31
      if on = true ∧ fld v.toNat 0 22 = 0 then { x with shpErr := true }
      else { x with shpErr := x.shpErr && !bit v.toNat 29, shpRate := fld v.toNat 0 22, shpEn := on,
                    shpLevel := if on = true ∧ x.shpEn = false then (8 * shpCap x : Nat)
                                else if bit v.toNat 30 = true ∧ x.shpLevel < 0 then 0 else x.shpLevel })) ∧
  (∀ (s : State) (inst : InstId), exec (.shaperRefill inst) s = .next (s.modInst inst.val fun x =>
    if x.shpEn then { x with shpLevel := min (x.shpLevel + (x.shpRate : Nat)) (8 * shpCap x : Nat) } else x))

/-- R219, R319, R392 to R396, R517. The tenant window writes one entry for each combination counted, up to 64, and the rate window takes
each lane's figures. A privileged FIFO gives its oldest entry with VALID, or zero; an ordinary one gives its oldest, or its last again
with UNDERRUN. SPn_CNT_LO gives the low half of the selected counter and latches the high half; GLB_TIME_SEC_LO gives the seconds and
latches time and TIME_LOST for the path; a word of a measurement reads zero with EARLY_READ until the measurement is done. A RAP read whose word fails its check inside the
block returns RAP_ERR (R70), after what the read does. -/
def Obligations.WindowsAndReads : Prop :=
  (∀ (s : State) (vi : ViId), exec (.tenantEventWindow vi) s = .next (s.modInst vi.val fun x =>
    x.evtCounts.foldl (fun y e => if y.evts.length < 64 then { y with evts := y.evts ++ [e.1 + e.2 * 2 ^ 20] }
      else { y with evtOver := true }) { x with evtCounts := [] })) ∧
  (∀ (s : State) (rates : List LaneRate), powered s = true → exec (.laneRateWindow rates) s = .next
    ((List.range 36).foldl (fun t n => rateWindow n (rates.getD n { rate := 0, busy := 0 }) t) s)) ∧
  (∀ (s : State) (n : Nat) (r : LaneRate), forgePowered (s.forge (n / 4)) = true → s.fab.fifoEn = true → s.fab.fifo.length < 256 →
    rateWindow n r s = (s.modLane n fun x =>
      { x with rate := r.rate.toNat, code := s.fab.bellows.code, busy := r.busy.toNat }).modFab fun b =>
      { b with fifo := b.fifo ++ [r.rate.toNat + r.busy.toNat * 2 ^ 16 + n * 2 ^ 24] }) ∧
  (∀ (s : State) (f : State → State × Nat) (addr : Nat), s.portUp = true →
    pathRead .rap addr true f s = (f s).1.modPort (fun p => { p with
      rapErr := false, rapData := word (f s).2, rapRic := if p.icx.toNat.testBit 4 then rapCode addr (f s).2 else 0 }) ∧
    pathRead .rap addr false f s = conclude (icViolation (portFault (2 ^ 14) ((rapAnswer addr true 0 (f s).1).modPort
      fun p => { p with rapErr := true }))) ∧
    (∀ ok, addr ≤ 0xFFF → pathRead .i3c addr ok f s = (f s).1.modPort (fun p => { p with i3cOut := [word (f s).2] })) ∧
    (∀ ok, 0xFFF < addr → pathRead .i3c addr ok f s = (portFault (2 ^ 25) s).modPort (fun p => { p with i3cOut := [word 0] }))) ∧
  (∀ (s : State) (path : Path) (ok : Bool) (w : Nat) (rest : List Nat),
    (s.tam.fifo = w :: rest → exec (.privilegedFifoRead ⟨path, ok⟩ .tamper) s = .next (pathRead path 0x410 ok (fun s =>
      match s.tam.fifo with
      | [] => (s, 0)
      | w :: r => (s.modTam fun t => { t with fifo := r }, w % 2 ^ 31 + 2 ^ 31)) s)) ∧
    (s.ory.mailbox = w :: rest → privTake .mailbox s = (s.modOry fun o => { o with mailbox := rest }, w % 2 ^ 31 + 2 ^ 31)) ∧
    (s.ory.reply = [] → privTake .attest s = (s, 0))) ∧
  (∀ (s : State) (path : Path) (ok : Bool),
    exec (.privilegedFifoRead ⟨path, ok⟩ .mailbox) s = .next (pathRead path 0x508 ok (privTake .mailbox) s) ∧
    exec (.privilegedFifoRead ⟨path, ok⟩ .attest) s = .next (pathRead path 0x530 ok (privTake .attest) s)) ∧
  (∀ (s : State) (vi : ViId), s.portUp = true →
    (∀ w rest, (s.inst vi.val).evts = w :: rest → exec (.ordinaryFifoRead ⟨.tenant vi, true⟩) s
      = .next (rapAnswer (pageBase vi.val + 0x50) false w (s.modInst vi.val fun x => { x with evts := rest, evtLast := w }))) ∧
    ((s.inst vi.val).evts = [] → exec (.ordinaryFifoRead ⟨.tenant vi, true⟩) s
      = .next (rapAnswer (pageBase vi.val + 0x50) false (s.inst vi.val).evtLast (s.modInst vi.val fun x => { x with evtUnder := true })))) ∧
  (∀ s : State, s.portUp = true →
    (∀ w rest, s.fab.fifo = w :: rest → exec (.ordinaryFifoRead ⟨.laneSample, true⟩) s
      = .next (rapAnswer 0x2180 false w (s.modFab fun b => { b with fifo := rest, fifoLast := w }))) ∧
    (s.fab.fifo = [] → exec (.ordinaryFifoRead ⟨.laneSample, true⟩) s
      = .next (rapAnswer 0x2180 false s.fab.fifoLast (s.modFab fun b => { b with fifoUnder := true })))) ∧
  (∀ (s : State) (port : PortId), s.portUp = true →
    let sel := (s.sp port.val).cntSel.toNat
    let v := tget (s.sp port.val).cnt 0 (cntKey (fld sel 16 1) (fld sel 0 8) (fld sel 8 7))
    exec (.counterRead ⟨.rap, true⟩ port) s = .next (rapAnswer (0x4014 + 0x400 * port.val) false (v % 2 ^ 32)
      (s.modSp port.val fun x => { x with cntHiRap := word (v / 2 ^ 32) }))) ∧
  (∀ s : State, s.portUp = true →
    exec (.timeRead ⟨.rap, true⟩) s = .next (rapAnswer 0x40 false (now s / 1000000000 % 2 ^ 32)
      (s.modTime fun x => { x with latchRap := now s, lostRap := x.lost })) ∧
    exec (.timeRead ⟨.i3c, true⟩) s = .next ((s.modTime fun x => { x with latchI3c := now s, lostI3c := x.lost }).modPort fun p =>
      { p with i3cOut := [word (now s / 1000000000 % 2 ^ 32)] })) ∧
  (∀ (s : State) (m : Fin 4) (w : Fin 12), s.portUp = true →
    (s.dig.measDone.toNat.testBit m.val = true → exec (.measRead ⟨.rap, true⟩ m w) s
      = .next (rapAnswer (0x3440 + 0x30 * m.val + 4 * w.val) false (leAt (tget s.dig.meas [] m.val) (4 * w.val) 4) s)) ∧
    (s.dig.measDone.toNat.testBit m.val = false → exec (.measRead ⟨.rap, true⟩ m w) s
      = .next (rapAnswer (0x3440 + 0x30 * m.val + 4 * w.val) false 0 (s.modDig fun d => { d with early := true }))))

/-- R233 to R237. The step of a running Bellows acts on a high utilisation or a backlog that has risen twice, or on ten low periods,
and starts the next period; with demand high it wakes the lowest gated Forge where not all eight are active, else raises the code. A
draining Forge that holds no work is gated. One that has powered up is active again. A fault latches, opens the limiter from the next round, wakes every
Forge, requests code 0x18 and is recorded. -/
def Obligations.BellowsControl : Prop :=
  (∀ s : State, let b := s.fab.bellows
    powered s = true → b.started = true → b.en = true → b.faulted = false →
    let w := backlog s
    let rises := if b.lastBacklog < w then min 2 (b.rises + 1) else 0
    let low := if utilLow s b.code then min 10 (b.low + 1) else 0
    exec .bellowsStep s = .next
      ((if utilHigh s = true ∨ 2 ≤ rises then bellowsUp s else if 10 ≤ low then bellowsDown s else s).modBlw fun x =>
        { x with slots := 0, lastBacklog := w, rises := rises, low := low,
                 pwrEst := Config.powerEstimate b.slots % 2 ^ 10,
                 autoLimit := Config.powerLimit b.pmax b.tj (Config.powerEstimate b.slots % 2 ^ 10) b.code % 256,
                 pendLimit := min (Config.powerLimit b.pmax b.tj (Config.powerEstimate b.slots % 2 ^ 10) b.code % 256) b.manLimit })) ∧
  (∀ s : State,
    let t : State := { s with fab := { s.fab with forges := tmap s.fab.forges {} fun _ f => { f with draining := false } } }
    (∀ l rest, (activeForges s).length < 8 → gatedForges s = l :: rest →
      bellowsUp s = t.modForge (t.phys l) fun f => { f with waking := true }) ∧
    (8 ≤ (activeForges s).length → s.fab.bellows.code < s.fab.bellows.hi →
      bellowsUp s = srpRequest (max (min (s.fab.bellows.code + s.fab.bellows.inc) s.fab.bellows.hi) s.fab.bellows.lo) t)) ∧
  (∀ s : State, let b := s.fab.bellows
    let c := min (max (b.code - b.inc) b.lo) b.hi
    let late := s.port.fault.toNat.testBit 19
    (b.lo < b.code → late = false → (8 ≤ c ∨ utilLow s c = true) → bellowsDown s = srpRequest c s) ∧
    (b.lo < b.code → late = false → c < 8 → utilLow s c = false → bellowsDown s = s) ∧
    (b.code ≤ b.lo ∨ late = true → ∀ l, b.keep < (activeForges s).length → (activeForges s).getLast? = some l →
      bellowsDown s = s.modForge (s.phys l) fun f => { f with draining := true })) ∧
  (∀ (s : State) (m : ForgeId), let f := s.forge m.val
    (f.st = .active → f.draining = true → forgeBusy s f.logical = false →
      exec (.forgeGate m) s = .next (s.modForge m.val fun x => { x with st := .gated, draining := false })) ∧
    (f.st = .gated → f.waking = true → f.cmd = none →
      exec (.forgeWakeComplete m) s = .next (enterActive m.val f.logical s)) ∧
    (f.st = .gated → f.waking = true → f.cmd ≠ none →
      exec (.forgeWakeComplete m) s = .next (startRetire m.val (enterActive m.val f.logical s)))) ∧
  (∀ s : State, powered s = true → s.fab.bellows.faulted = false →
    let t := srpRequest 0x18 (wakeAll (s.modBlw fun b => { b with faulted := true, pendLimit := 0xFF }))
    exec .bellowsFault s = .next (conclude (reportFault 9 (blwStatus t) 0xFF 0xFF t)))

/-- R213, R214, R220, R225 to R227, R232, R239, R525, on a Forge that runs. A stage fault is counted, and the third of a lane within 1 ms
is a lane fault; so is a failed self-test. A rate check counts each lane's deviations in a row. The spare of a failover that passes
its test takes the logical Forge, and the faulted one is FAILED and counted. A retirement ends with its logical Forge taken, or
left without one; a restoration with the Forge taking a logical one that lacks it, else SPARE. A rotation step gives the lowest old
logical Forge that runs to the spare, wakes one where only gated ones are left, and with none left ends the rotation; a spare that
fails its test, or on taking over, is FAILED. -/
def Obligations.ForgeFaults : Prop :=
  (∀ (s : State) (lane : LaneId), forgeRuns s (lane.val / 4) = true →
    let n := lane.val
    let times := ((s.lane n).times.filter fun x => now s - x < 1000000) ++ [now s]
    (times.length < 3 → exec (.stageFault lane) s
      = .next (s.modLane n fun x => { x with faults := min 0xFF (x.faults + 1), times := times })) ∧
    (3 ≤ times.length → exec (.stageFault lane) s = .next (conclude (forgeFault (n / 4) 0 (some (n % 4))
      (s.modLane n fun x => { x with faults := min 0xFF (x.faults + 1), times := [] })))) ∧
    exec (.laneSelfTest lane .pass) s = .next s ∧
    exec (.laneSelfTest lane .mismatch) s = .next (conclude (forgeFault (n / 4) 1 (some (n % 4)) s)) ∧
    exec (.laneSelfTest lane .residue) s = .next (conclude (forgeFault (n / 4) 2 (some (n % 4)) s))) ∧
  (∀ (s : State) (m : ForgeId) (ref : BitVec 16) (rates : BitVec 64) (supply : BitVec 6) (temp : BitVec 8),
    forgeRuns s m.val = true →
    let refOut := refOutside s ref.toNat supply.toNat temp.toNat
    let t := (List.range 4).foldl (fun t k => rateLane m.val k (rateDeviates ref.toNat (fld rates.toNat (16 * k) 16)) t) s
    let u : State := { t with fab := { t.fab with
      refOut := if refOut then t.fab.refOut ||| BitVec.ofNat 9 (2 ^ m.val) else t.fab.refOut &&& ~~~(BitVec.ofNat 9 (2 ^ m.val)) } }
    exec (.rateCheck m ref ⟨rates, supply, temp⟩) s = .next (conclude
      (if (t.fab.refOut != 0) = (u.fab.refOut != 0) then u else detectorChange 11 .a (.level (u.fab.refOut != 0)) u))) ∧
  (∀ (s : State) (m b : Nat) (lane : Option Nat), let f := s.forge m
    (f.st = .retired ∨ f.st = .gated → forgeFault m b lane s = s) ∧
    (f.st = .active → f.failing = false → forgeFault m b lane s = activeFailed m (latchForge m b lane s)) ∧
    (f.st = .retiring → f.failing = false → forgeFault m b lane s = retiringFailed m (latchForge m b lane s))) ∧
  (∀ (s : State) (m : Nat), let l := (s.forge m).logical
    (∀ k, freeSpare s = some k → s.fab.rotation = none → activeFailed m s =
      ((s.modForge m fun f => { f with failing := true, draining := false }).modForge k fun f => { f with waking := true, logical := l })) ∧
    (freeSpare s = none → activeFailed m s = reportForge m (loseLogical l (forgeFailed m (countFailover m s))))) ∧
  (∀ (s : State) (m : ForgeId) (k : Nat), (s.forge m.val).failing = true → takingSpare s (s.forge m.val).logical = some k →
    exec (.forgeFailoverComplete m true) s = .next (conclude (reportForge m.val (countFailover m.val
      (forgeFailed m.val (takeLogical k (s.forge m.val).logical s))))) ∧
    exec (.forgeFailoverComplete m false) s = .next (conclude (spareFailed k (latchForge k 1 none s)))) ∧
  (∀ (s : State) (m : ForgeId), let f := s.forge m.val
    f.st = .retiring →
    let t := match takingSpare s f.logical with
      | some k => takeLogical k f.logical s
      | none => if s.phys f.logical = m.val then loseLogical f.logical s else s
    let u := settleMode (t.modForge m.val fun x => { x with st := .retired, logical := 0 })
    exec (.forgeRetireComplete m) s = .next (conclude
      (if f.pend then u.modForge m.val fun f => { f with st := .restoring, pend := false } else forgeCmdDone m.val (res 0 0) u))) ∧
  (∀ (s : State) (m : ForgeId), (s.forge m.val).st = .restoring →
    let t := (s.modForge m.val fun f => { f with mcode := mcodeVersion s, failing := false }).modFab fun b =>
      { b with rotation := b.rotation.map fun r => { r with loaded := m.val :: r.loaded } }
    exec (.forgeRestoreTestDone m false) s = .next (conclude (reportForge m.val (forgeCmdDone m.val (res 5 4) (forgeFailed m.val s)))) ∧
    (∀ l, (List.range 8).find? (fun l => decide (9 ≤ s.phys l)) = some l →
      exec (.forgeRestoreTestDone m true) s = .next (conclude (settleMode (forgeCmdDone m.val (res 0 0) (enterActive m.val l t))))) ∧
    ((List.range 8).find? (fun l => decide (9 ≤ s.phys l)) = none →
      exec (.forgeRestoreTestDone m true) s = .next (conclude (settleMode (forgeCmdDone m.val (res 0 0)
        (t.modForge m.val fun f => { f with st := .spare, logical := 0 })))))) ∧
  (∀ (s : State) (r : Rotation) (k : Nat), s.fab.rotation = some r → freeSpare s = some k →
    let t := loadSpare k r s
    let old := oldForges t { r with loaded := k :: r.loaded }
    exec (.microcodeRotationStep .testFail) s
      = .next (conclude (pauseRotation k (reportForge k (forgeFailed k (latchForge k 1 none s))))) ∧
    (old = [] → ∀ x, x ≠ .testFail → exec (.microcodeRotationStep x) s = .next (conclude (rotationDone r t))) ∧
    (∀ l rest, old = l :: rest → old.filter (logicalUp t) = [] →
      ∀ x, x ≠ .testFail → exec (.microcodeRotationStep x) s = .next (conclude (wakeForge l t))) ∧
    (∀ l rest, old.filter (logicalUp t) = l :: rest →
      exec (.microcodeRotationStep .handover) s = .next (conclude (becomeSpare (t.phys l) (takeLogical k l t))) ∧
      exec (.microcodeRotationStep .takeFail) s = .next (conclude (reportForge k (forgeFailed k (loseLogical l
        (becomeSpare (t.phys l) (latchForge k 1 none t))))))))

/-- R431 to R440, R447, R452, under main power with an intact fuse. A reading is classified, and a class other than normal is the event. A level source that rises waits for its debounce, or qualifies where
DEBOUNCE is 0; its expiry qualifies it; after REARM of inactivity it is ready again. The event that completes N of a source's window
raises the alarm: its entry, the count and the response with every lesser action. Detectors that disagree, a self-test without answer
and a bad fuse word are occurrences of DISAGREE and FUSEINT. A thaw written to a frozen block lets the scans go on. -/
def Obligations.TamperSources : Prop :=
  (∀ (s : State) (src : SrcId) (det : Detector) (lv : Bool) (me : Option PinReading), powered s = true →
    fuseIntact s src.val = true →
    let p := me.getD (.level lv)
    let k := src.val
    let on := readClass s k (tRec s k) p != 0
    (isReport k = false → (on = false ∨ (s.tsrc k).test ≠ some det) → exec (.tamperSourceChange src det lv me) s
      = .next (conclude (reactive k (fun x => x.reads s k (tRec s k) det p) s))) ∧
    (on = true → (s.tsrc k).test = some det → exec (.tamperSourceChange src det lv me) s
      = .next (conclude (reactive k (fun x => { x with test := none }) s))) ∧
    (isReport k = true → on = true → (s.tsrc k).test ≠ some det →
      exec (.tamperSourceChange src det lv me) s = .next (conclude (pathRecord k det s)))) ∧
  (∀ (s : State) (k : Nat) (r : TRec) (x : Src) (p : PinReading), let on := readClass s k r p != 0
    (x.reads s k r .a p).a = on ∧ (x.reads s k r .a p).b = x.b ∧ (x.reads s k r .b p).b = on ∧ (x.reads s k r .b p).a = x.a ∧
    (∀ a, readClass s k r (.level a) = if a then 1 else 0) ∧ (∀ mv, readClass s k r (.cell mv) = cellClass mv) ∧
    (∀ o, readClass s k r (.lid o) = lidClass r.polarity o)) ∧
  (∀ (s : State) (k : Nat), armed s k = true →
    ((s.tsrc k).ready = true → 0 < (tRec s k).debounce → sourceRise k s = s.modTsrc k fun x => { x with waiting := true }) ∧
    ((s.tsrc k).ready = true → (tRec s k).debounce = 0 → sourceRise k s
      = qualified k (s.tsrc k).cls (s.modTsrc k fun x => { x with waiting := false, ready := false })) ∧
    ((s.tsrc k).ready = false → sourceRise k s = bounce k s)) ∧
  (∀ (s : State) (src : SrcId), powered s = true →
    ((s.tsrc src.val).waiting = true → armed s src.val = true → exec (.tamperDebounceExpiry src) s = .next (conclude
      (qualified src.val (s.tsrc src.val).cls (s.modTsrc src.val fun x => { x with waiting := false, ready := false })))) ∧
    ((s.tsrc src.val).active = false →
      exec (.tamperRearmExpiry src) s = .next (s.modTsrc src.val fun x => { x with ready := true }))) ∧
  (∀ (s : State) (k cls : Nat), let r := tRec s k
    let c := (s.tsrc k).counts r (now s)
    let live := { s.ldg.live with tamper := tmod s.ldg.live.tamper 0 k fun n => (n + 1) % 2 ^ 32 }
    let t := (s.modTsrc k fun _ => c.1).modLdg fun l => { l with live := live }
    qualified k cls s =
      if c.2.2 then alarm k r.response cls
        (if inTest s then t else t.modLdg fun l => { l with saved := { l.saved with tamper := live.tamper } })
      else if c.2.1 then tEntry k 0 0 cls t else t) ∧
  (∀ (s : State) (k code cls : Nat), alarm k code cls s
    = respond code ((tEntry k 1 code cls s).modTam fun t => { t with alarms := min 0xFFFF (t.alarms + 1) })) ∧
  (∀ (s : State) (src : SrcId), powered s = true → fuseIntact s src.val = true → (s.tsrc src.val).test = none →
    detectorsDiffer src.val (s.tsrc src.val) = true →
    exec (.detectorDisagree src) s
      = .next (conclude (disagree src.val (s.modTsrc src.val fun x => { x with recA := 0, recB := 0, told := !isReport src.val })))) ∧
  (∀ (s : State) (src : SrcId) (det : Detector), powered s = true →
    (armed s src.val = true → (∀ k < 16, (s.tsrc k).test = none) →
      exec (.detectorSelfTest src det) s = .next (conclude (reactive src.val (fun x => { x with test := some det }) s))) ∧
    ((s.tsrc src.val).test = some det → exec (.detectorSelfTestTimeout src det) s
      = .next (conclude (selfTestFail src.val (reactive src.val (fun x => { x with test := none }) s))))) ∧
  (∀ s : State, exec (.fuseReread true) s = .next s ∧
    (powered s = true → exec (.fuseReread false) s = .next (conclude (if armed s 13 then qualified 13 0 s else s)))) ∧
  (∀ (s : State) (v : RapWord), s.takes 0x414 v = true → bit v.toNat 0 = true →
    exec (.freezeThaw v) s = .next (conclude (
      let t := (s.answered .rap).modTam fun t => { t with evtOvf := t.evtOvf && !bit v.toNat 5 }
      if s.tam.frozen then scanBells ((t.modTam fun t => { t with frozen := false }).modFab fun b => { b with rounds := 0 }) else t))) ∧
  (∀ (s : State) (reading : List (SrcId × PinReading)) (disagree failed : List SrcId), powered s = false →
    let n := (s.vigil.samples + 1) % 256
    exec (.vigilSample reading ⟨disagree, failed⟩) s = .next ((List.range 16).foldl (fun t k =>
      sampleSelfTest k (n = 0 && failed.any fun x => x.val = k)
        (sampleDisagree k (disagree.any fun x => x.val = k) (sampleSource k (readingOf reading k) t)))
      ((lfsrSample s).modVigil fun v => { v with samples := n })))

/-- R82, R377, R440 to R442, R444, R494, in a block that has not halted itself. The fault message and interrupt that follow a code are those of
the entry into Zeroised where it leads there. Code 0 acts as nothing; 1 notifies; 2 freezes as well; 3
purges the session keys before; 4 zeroises, 5 zeroises and halts. ZEROISE clears banks, contexts, HMAC slots and Vault root, pulls
ZEROISE_N, aborts every key operation and leads to Zeroised. A low that comes from outside does so once until it ends. A read-back
that fails, or that follows ZEROISE_HALT, halts the block; else the fill starts, and ends with ZFILL. -/
def Obligations.ZeroiseLine : Prop :=
  (∀ s : State, s.modes.halted = false →
    let tell := fun (t : State) => if s.modes.mode ≠ .zeroised ∧ t.modes.mode = .zeroised then t else raiseIbi (faultMsg t)
    let n := fun (k : Nat) => s.modTam fun t => { t with last := max t.last k }
    let frz := fun (t : State) => t.modTam fun t => { t with frozen := true }
    respond 0 s = n 0 ∧ respond 1 s = tell (n 1) ∧ respond 2 s = tell (frz (n 2)) ∧
    respond 3 s = tell (frz (purge (n 3))) ∧ respond 4 s = tell (frz (zeroise false (n 4))) ∧
    respond 5 s = tell (frz (zeroise true (n 5)))) ∧
  (∀ (s : State) (halt : Bool), ((∀ h, s.cruc.zRun ≠ .verify h) ∨ s.cruc.zLast ≠ 1) → s.modes.mode ≠ .boot → s.modes.mode ≠ .zeroised →
    let t := abortKeyOps 2 ((clearKeys true halt (s.modVigil fun v => { v with zpend := true })).modPort fun p => { p with zDriven := true })
    zeroise halt s = restoreCounters (stopDataRings (enterMode .zeroised
      (t.modModes fun m => { m with zFrom := m.mode, eclipseDone := false })))) ∧
  (∀ (s : State) (full halt : Bool), let t := clearKeys full halt s
    t.cruc.parents = [] ∧ t.cruc.system = [] ∧ t.cruc.ctxKeys = [] ∧ t.cruc.rootKey = [] ∧ t.ctx = [] ∧ t.dig.slots = [] ∧
    t.cruc.zFill = false ∧ t.cruc.zCount = min 0xFFFF (s.cruc.zCount + 1) ∧ (full = true → t.vigil.root = none)) ∧
  (∀ s : State, powered s = true → s.port.zExt = false →
    (s.port.zDriven = false → exec .zeroiseNLow s = .next (conclude (alarm 18 4 0 (s.modPort fun p => { p with zExt := true })))) ∧
    (s.port.zDriven = true → exec .zeroiseNLow s = .next (s.modPort fun p => { p with zExt := true }))) ∧
  (∀ s : State, exec .zeroiseNHigh s = .next (s.modPort fun p => { p with zExt := false })) ∧
  (∀ (s : State) (halt : Bool), s.cruc.zRun = .verify halt →
    exec (.zeroiseVerifyComplete false) s
      = .next (haltBlock (haltMode (s.modCruc fun c => { c with zFail := true, zRun := .idle }))) ∧
    (halt = true → exec (.zeroiseVerifyComplete true) s = .next (haltBlock (s.modCruc fun c => { c with zRun := .fill }))) ∧
    (halt = false → exec (.zeroiseVerifyComplete true) s = .next (conclude (drbgStart ((s.modCruc fun c =>
      { c with zRun := if s.anv.drbg = .stopped then .idle else .fill }).modPort fun p => { p with zDriven := false }))))) ∧
  (∀ s : State, (haltBlock s).modes.halted = true ∧ (haltBlock s).port.zDriven = true ∧ (haltBlock s).port.attAck = false ∧
    ∀ a ∈ (haltBlock s).mem.waiting, a.op = .read) ∧
  (∀ s : State, s.cruc.zRun = .fill → (s.anv.drbg = .running ∨ s.anv.drbg = .single) →
    exec .zeroiseFillComplete s = .next (s.modCruc fun c => { c with zRun := .idle, zFill := true }))

/-- R355 to R359. The next slot of a pass gets a fresh seed where it holds a key, a word that fails its check counts towards its bank's
failure, and the last slot ends the pass. A period that ends before its pass marks it late. A bank that fails is retired with its
cause bit and recorded; the second of one Boot is a block-level fault and clears the keys. -/
def Obligations.BanksAndBurnish : Prop :=
  (∀ (s : State) (bad : Option BankId), powered s = true → drbgUp s = true → s.cruc.stalled = false → s.cruc.passDone = false →
    let n := s.cruc.nextSlot
    let t := (match bad with
      | some b => wordFail b.val (remask n s)
      | none => remask n s).modCruc fun c => { c with nextSlot := n + 1 }
    exec (.burnishSlot bad) s = .next (conclude (if n + 1 < 528400 then t
      else (t.modCruc fun c =>
        { c with nextSlot := 0, passes := (c.passes + 1) % 2 ^ 24, passDone := !c.overrun, overrun := false }).modLdg fun l =>
          { l with live := { l.live with burnish := (l.live.burnish + 1) % 2 ^ 48 } }))) ∧
  (∀ (s : State) (n : Nat), n < 524288 →
    remask n s = drawn 16 (s.modCtxKey n fun k => if k.key = [] then k else { k with seed := drawBytes s 16 })) ∧
  (∀ s : State, powered s = true → s.cruc.stalled = false →
    (s.cruc.passDone = true → exec .burnishPeriodEnd s = .next (s.modCruc fun c => { c with passDone := false, nextSlot := 0 })) ∧
    (s.cruc.passDone = false → exec .burnishPeriodEnd s = .next (s.modCruc fun c => { c with late := true, overrun := true }))) ∧
  (∀ (s : State) (b : BankId), powered s = true →
    let up := s.cruc.bankUp &&& ~~~(BitVec.ofNat 5 (2 ^ b.val))
    (s.cruc.bankUp = 0x1F → exec (.bankWatchdog b) s = .next (conclude (
      let t := s.modCruc fun c => { c with bankUp := up, bankFault := c.bankFault ||| 2 ^ b.val ||| 2 ^ 6 ||| 0 }
      reportFault 2 (bankFaultReg t) b.val 0xFF t))) ∧
    (s.cruc.bankUp ≠ 0x1F → s.cruc.bankUp.toNat.testBit b.val = true →
      exec (.bankWatchdog b) s = .next (conclude (clearKeys false false (blockFault 1 (s.modCruc fun c =>
        { c with bankUp := up, bankFault := c.bankFault ||| 2 ^ b.val ||| 2 ^ 6 ||| 2 ^ 8 })))))) ∧
  (∀ (s : State) (b : Nat),
    let mine := (s.cruc.wordFails.filter fun x => decide (x.1 = b) && decide (now s - x.2 < 1000000)) ++ [(b, now s)]
    let t := s.modCruc fun c => { c with
      corrected := min 0xFFFF (c.corrected + 1), wordFails := (s.cruc.wordFails.filter fun x => x.1 != b) ++ mine }
    wordFail b s = if 4 ≤ mine.length then bankFail b 5 t else t)

/-- R322, R342, R499: a pipe or unit in service that fails is retired with its bit and its cause's bit, its operations move to another
in service, and the fault is recorded as source 3 or 4. Its self-test passed changes nothing, and one already retired stays so. -/
def Obligations.EngineFaults : Prop :=
  (∀ (s : State) (p : PipeId), exec (.pipeSelfTest p true) s = .next s ∧
    exec (.pipeSelfTest p false) s = .next (pipeFail p.val 8 s) ∧
    exec (.pipeFault p .residue) s = .next (pipeFail p.val 9 s) ∧ exec (.pipeFault p .watchdog) s = .next (pipeFail p.val 10 s)) ∧
  (∀ (s : State) (p cause : Nat), powered s = true → s.dig.pipeUp.toNat.testBit p = true →
    let d : State := s.modDig fun d => { d with
      pipeUp := d.pipeUp &&& ~~~(BitVec.ofNat 8 (2 ^ p)), fault := d.fault ||| word (2 ^ p) ||| word (2 ^ cause) }
    let t := leaveMeasured p (restageOn p (d.jobs.foldl (leavePipe p) d))
    let u := if t.dig.pipeUp != 0 then placeWork t
      else t.jobs.foldl (fun t j => if needsPipe j && (j.phase == .reading || j.mid) then endJob j.tag (res 5 4) t else t) t
    pipeFail p cause s = conclude (reportFault 3 u.dig.fault.toNat p 0xFF u)) ∧
  (∀ (s : State) (u : UnitId), exec (.anvilSelfTest u true) s = .next s ∧
    exec (.anvilSelfTest u false) s = .next (unitFail u.val 4 s) ∧
    exec (.anvilUnitFault u .residue) s = .next (unitFail u.val 5 s) ∧ exec (.anvilUnitFault u .watchdog) s = .next (unitFail u.val 6 s) ∧
    exec (.anvilUnitFault u .resultCheck) s = .next (unitFail u.val 7 s) ∧ exec (.anvilUnitFault u .pct) s = .next (unitFail u.val 8 s)) ∧
  (∀ (s : State) (u cause : Nat), powered s = true → s.anv.up.toNat.testBit u = true →
    let t := moveUnit u (s.modAnv fun a => { a with
      up := a.up &&& ~~~(BitVec.ofNat 4 (2 ^ u)), fault := a.fault ||| word (2 ^ u) ||| word (2 ^ cause) })
    unitFail u cause s = conclude (reportFault 4 t.anv.fault.toNat u 0xFF t)) ∧
  (∀ (s : State) (p u cause : Nat), (s.dig.pipeUp.toNat.testBit p = false → pipeFail p cause s = s) ∧
    (s.anv.up.toNat.testBit u = false → unitFail u cause s = s))

/-- R343 to R345. A conditioned block of a source in service is buffered, at most four, and a start or reseed that waits goes on. A
health failure sets its bit, and the fourth within 1 s retires the source: a running DRBG goes on with the other as SINGLE, a SINGLE
one stops. A reseed takes one block of each source, or two of the one that remains, and counts; without them it waits. -/
def Obligations.EntropyAndDrbg : Prop :=
  (∀ s : State, powered s = true → s.anv.aUp = true → s.anv.bUp = true → s.anv.drbg ≠ .starting → s.anv.wantReseed = false →
    exec (.entropyBlockReady .a) s = .next (s.modAnv fun a => { a with aBuf := min 4 (a.aBuf + 1) }) ∧
    exec (.entropyBlockReady .b) s = .next (s.modAnv fun a => { a with bBuf := min 4 (a.bBuf + 1) })) ∧
  (∀ (s : State) (src : EntSrc), powered s = true →
    let t := s.modAnv fun a => match src with
      | .a => if a.aUp then { a with aBuf := min 4 (a.aBuf + 1) } else a
      | .b => if a.bUp then { a with bBuf := min 4 (a.bBuf + 1) } else a
    exec (.entropyBlockReady src) s = .next (if (drbgTry t).anv.wantReseed then reseed (drbgTry t) else drbgTry t)) ∧
  (∀ s : State, s.anv.drbg = .starting → s.anv.aUp = true → s.anv.bUp = true →
    (2 ≤ s.anv.aBuf → 1 ≤ s.anv.bBuf →
      drbgTry s = drbgTo .running (s.modAnv fun x => { x with aBuf := x.aBuf - 2, bBuf := x.bBuf - 1, requests := 0 })) ∧
    ((s.anv.aBuf < 2 ∨ s.anv.bBuf = 0) → drbgTry s = s)) ∧
  (∀ (s : State) (kind : EntFail), powered s = true → s.anv.aUp = true →
    let k : Nat := match kind with
      | .rct => 0
      | .apt => 1
      | .start => 2
    let times := (s.anv.aFails.filter fun x => now s - x < 1000000000) ++ [now s]
    let t := s.modAnv fun x => { x with esFault := x.esFault ||| word (2 ^ k), aFails := times }
    exec (.entropyHealthFail .a kind) s = .next (conclude (if 4 ≤ times.length then retireSource true t else t))) ∧
  (∀ (s : State) (a : Bool),
    let t := s.modAnv fun x =>
      if a then { x with aUp := false, aBuf := 0, esFault := x.esFault ||| 8 } else { x with bUp := false, bBuf := 0, esFault := x.esFault ||| 0x80 }
    (s.anv.drbg = .running → retireSource a s = reseed (drbgTo .single t)) ∧
    (s.anv.drbg = .single → retireSource a s = drbgTo .stopped t)) ∧
  (∀ s : State, powered s = true → drbgUp s = true →
    let ok := fun (x y : Nat) => s.modAnv fun b => { b with
      aBuf := b.aBuf - x, bBuf := b.bBuf - y, wantReseed := false, requests := 0, reseeds := (b.reseeds + 1) % 2 ^ 32 }
    (s.anv.aUp = true → s.anv.bUp = true → 1 ≤ s.anv.aBuf → 1 ≤ s.anv.bBuf → exec .drbgReseed s = .next (ok 1 1)) ∧
    (s.anv.aUp = true → s.anv.bUp = false → 2 ≤ s.anv.aBuf → exec .drbgReseed s = .next (ok 2 0)) ∧
    (s.anv.aBuf = 0 → s.anv.bBuf = 0 → exec .drbgReseed s = .next (s.modAnv fun b => { b with wantReseed := true }))) ∧
  (∀ s : State, exec (.drbgKat true) s = .next s ∧
    (powered s = true → s.anv.drbg ≠ .stopped → exec (.drbgKat false) s
      = .next (conclude (drbgTo .stopped (s.modAnv fun a => { a with esFault := a.esFault ||| 0x100 })))))

/-- R36 to R38, R371, R460, R464, R474, R477, R481, R499, R501. A half of Orrery that fails retires: Yuham restarts on the partner, or
Orrery stops. A fault that names no half, and an uncontained fault, are block-level. Yuham back up drains the events, defers packets
measures itself and posts YUHAM_UP, and a commit that waited for it completes; a committed image that does not come up goes back and its packet is TIMEOUT. A timed packet that waits too long is
TIMEOUT, an OFFERED slot is emptied. A packet with an outcome completes once its writes are answered, and an entry whose structure
failed takes its place with its verdict. -/
def Obligations.OrreryEvents : Prop :=
  (∀ s : State, powered s = true → exec (.orreryFault none) s = .next (conclude (blockFault 4 s)) ∧
    exec .uncontainedFault s = .next (conclude (blockFault 4 s)) ∧
    (s.ory.halfA = true → s.ory.halfB = true → exec (.orreryFault (some .a)) s = .next (conclude (
      let t := restartYuham (s.modOry fun o => { o with halfA := false })
      reportFault 8 (oryStatus t) 0 0xFF t))) ∧
    (s.ory.halfA = true → s.ory.halfB = true → exec (.orreryFault (some .b)) s = .next (conclude (
      let t := restartYuham (s.modOry fun o => { o with halfB := false })
      reportFault 8 (oryStatus t) 1 0xFF t))) ∧
    (s.ory.halfA = false → s.ory.halfB = true → exec (.orreryFault (some .b)) s = .next (conclude (
      let t := (s.modOry fun o => { o with halfB := false }).modOry fun o => { o with st := .stopped }
      reportFault 8 (oryStatus t) 1 0xFF t)))) ∧
  (∀ s : State, powered s = true → s.ory.st = .restarting → s.ory.commit = none →
    let img := if s.ldg.yActive then s.ldg.yB else s.ldg.yA
    let m := if s.ldg.yRom then sha384 Config.romImage else imageDigest 0 img
    exec .yuhamRestartComplete s = .next (conclude (postMail 1 (b2n s.ldg.yActive) (deferPackets
      (drainEvents ((putMeas 0 m s).modOry fun o => { o with st := if s.ldg.yRom then .rom else .running })))))) ∧
  (∀ (s : State) (slot : Nat) (raise : Bool), powered s = true → s.ory.st = .restarting → s.ory.commit = some (slot, raise) →
    let img := if s.ldg.yActive then s.ldg.yB else s.ldg.yA
    let m := if s.ldg.yRom then sha384 Config.romImage else imageDigest 0 img
    let t := postMail 1 (b2n s.ldg.yActive) (deferPackets
      (drainEvents ((putMeas 0 m s).modOry fun o => { o with st := if s.ldg.yRom then .rom else .running })))
    exec .yuhamRestartComplete s = .next (conclude (packetDone slot (res 0 0 img.version)
      ((t.modLdg fun l => if raise then { l with yMin := img.svn } else l).modOry fun o => { o with commit := none })))) ∧
  (∀ (s : State) (slot : Nat) (raise : Bool), powered s = true → s.ory.st = .restarting → s.ory.commit = some (slot, raise) →
    let back := s.ory.packets.any fun p => decide (p.slot = slot) && decide (p.opc = 0x3A) && p.res.isNone
    exec .yuhamRunningTimeout s = .next (conclude (packetDone slot (res 0x23 0)
      (restartYuham (unflipYuham back (s.modOry fun o => { o with commit := none })))))) ∧
  (∀ (s : State) (slot : ParentId), powered s = true → (s.parent slot.val).st = .offered →
    exec (.offerTimeout slot) s = .next (recordSlot slot.val (freeSlot slot.val s))) ∧
  (∀ (s : State) (slot : SlotId) (p : Packet), cmdOn s = true →
    s.ory.packets.find? (fun p => p.slot = slot.val && (p.res.isNone || closeHeld s p)) = some p →
    (cmdHeld s p.opc = true → exec (.commandTimeout slot) s = .next (conclude (stopCmd slot.val (res 0x23 0) s))) ∧
    (cmdHeld s p.opc = false → p.opc ∈ [0x04, 0x05, 0x15, 0x28, 0x41] →
      exec (.commandTimeout slot) s = .next (conclude (failCmd slot.val (res 0x23 0) s)))) ∧
  (∀ (s : State) (slot : SlotId) (p : Packet) (r : Res), powered s = true → orreryUp s = true →
    s.ory.packets.find? (fun p => decide (p.slot = slot.val) && p.res.isSome) = some p → p.res = some r →
    cmdWriting s slot.val = false → closeHeld s p = false →
    exec (.commandPacketComplete slot) s = .next (conclude (
      let t := dropPacket p s
      let u := if loggedCmds.contains p.opc then logEvent 5 p.opc (p.p 0 + r.status * 2 ^ 64) t else t
      finishItem u.ory.ctrlRing p.slot r p.replyX [] u))) ∧
  (∀ (s : State) (slot : SlotId) (e : Entry), cmdOn s = true →
    s.ory.packets.find? (fun p => decide (p.slot = slot.val) && p.res.isSome) = none → badHead s slot.val = some e →
    s.port.att = .attached → cmdHeld s (hOpc e.hdr) = false →
    exec (.commandPacketComplete slot) s = .next (conclude (s.modRing s.ory.ctrlRing fun r =>
      { r with cache := r.cache.drop 1, rob := r.rob ++ [{ ent := e, fin := e.verdict.map (badVerdict e) }] }))) ∧
  (∀ s : State, powered s = true →
    (inTest s = false → exec .counterCheckpoint s = .next (calCheckpoint (s.modLdg fun l => { l with saved := l.live }))) ∧
    (inTest s = true → exec .counterCheckpoint s = .next s) ∧
    exec .calendarCheckpoint s = .next (calCheckpoint (s.modLdg fun l =>
      let h := (l.live.hours + 1) % 2 ^ 32
      { l with live := { l.live with hours := h }, saved := if inTest s then l.saved else { l.saved with hours := h } })))

/-- R418, R488, R493, R495, R498. ECLIPSE = 1 in Service or Degraded enters Eclipse, with the operations to stop and the rings' cached
entries dropped; once all is quiet ECLIPSE_DONE stands, and an end then leads back. RESUME is accepted with the Crucible root present
and no zeroise source, line or initialisation active, else CFG_ERR. GLB_RESET acts with the key 0xB007 alone. ARM records target and
time, and the COMMIT of the same target programs its fuse. XL_INV with GO removes the translations it names and clears DONE. -/
def Obligations.ModesAndLifecycle : Prop :=
  (∀ (s : State) (v : RapWord), s.takes 0x14 v = true →
    let t := (s.answered .rap).modModes fun m => { m with cfgErr := m.cfgErr && !bit v.toNat 3 }
    (bit v.toNat 0 = true → bit v.toNat 1 = false → (s.modes.mode = .service ∨ s.modes.mode = .degraded) →
      exec (.eclipseRequest v) s = .next (conclude (uncacheData (stopAllJobs (enterEclipse 1 t))))) ∧
    (bit v.toNat 0 = true → bit v.toNat 1 = false → s.modes.mode = .eclipse → s.modes.cause ≠ 1 →
      exec (.eclipseRequest v) s = .next (conclude (t.modModes fun m => { m with cfgErr := true }))) ∧
    (bit v.toNat 0 = false → bit v.toNat 1 = false → s.modes.mode = .eclipse → s.modes.cause = 1 → s.modes.endAsked = false →
      exec (.eclipseEnd v) s = .next (conclude
        (if s.modes.eclipseDone then leaveEclipse (backTo t s.modes.prior) t else t.modModes fun m => { m with endAsked := true })))) ∧
  (∀ s : State, s.modes.mode = .eclipse → quiesced s = true →
    (¬ (s.modes.cause = 1 ∧ s.modes.endAsked = true) →
      exec .eclipseQuiesceComplete s = .next (s.modModes fun m => { m with eclipseDone := true })) ∧
    (s.modes.cause = 1 → s.modes.endAsked = true →
      exec .eclipseQuiesceComplete s = .next (conclude (leaveEclipse (backTo s s.modes.prior) s)))) ∧
  (∀ (s : State) (v : RapWord), s.takes 0x14 v = true → bit v.toNat 1 = true → bit v.toNat 0 = false → s.modes.mode = .zeroised →
    let t := (s.answered .rap).modModes fun m => { m with cfgErr := m.cfgErr && !bit v.toNat 3 }
    (resumeOk t = true → exec (.resume v) s = .next (conclude (
      let u := t.modVigil fun v => { v with zpend := false }
      scanEnabled (reformatRings (enterMode (serviceOrDegraded u) u))))) ∧
    (resumeOk t = false → exec (.resume v) s = .next (conclude (t.modModes fun m => { m with cfgErr := true })))) ∧
  (∀ (s : State) (path : Path) (v : RapWord), s.pathTakes path 0x2C v = true →
    let key := decide (fld v.toNat 16 16 = 0xB007) && decide (fld v.toNat 0 16 = 0)
    exec (.glbReset path v) s = .next (if key then blockReset (s.answered path)
      else (s.answered path).modModes fun m => { m with cfgErr := true })) ∧
  (∀ (s : State) (v : RapWord), s.takes 0x30 v = true → bit v.toNat 2 = true → bit v.toNat 3 = false →
    let k := fld v.toNat 0 2
    exec (.lcArm v) s = .next ((s.answered .rap).modGlb fun g =>
      { g with lcTarget := k, lcCfgErr := g.lcCfgErr && !bit v.toNat 5, lcArmed := if k = 1 ∨ k = 2 then some (k, now s) else none })) ∧
  (∀ (s : State) (v : RapWord), s.takes 0x30 v = true → bit v.toNat 3 = true → s.glb.lcArmed = some (1, now s) →
    fld v.toNat 0 2 = 1 → s.life = .manufacture → s.modes.mode = .service →
    exec (.lcCommit v true) s = .next (blockReset { s.answered .rap with life := .deployed })) ∧
  (∀ (s : State) (v : RapWord), s.takes 0x30 v = true → bit v.toNat 3 = true → s.glb.lcArmed = some (2, now s) →
    fld v.toNat 0 2 = 2 → s.life ≠ .terminated → inTest s = false →
    let t := abortKeyOps 2 (clearKeys true false ((s.answered .rap).modPort fun p => { p with zDriven := true }))
    exec (.lcCommit v true) s = .next (blockReset { t with life := .terminated })) ∧
  (∀ (s : State) (v : RapWord) (n : Nat), s.takes 0x6014 v = true → bit v.toNat 30 = true → s.glb.instSel = n → n ≤ 128 → s.mem.invDone = true →
    let ctl := fld v.toNat 0 4 + fld v.toNat 8 21 * 2 ^ 8
    let t := ((s.answered .rap).modMem fun m => { m with invCtl := word ctl }).modMem fun m => { m with invDone := false }
    exec (.xlInvGo v) s = .next (if bit v.toNat 28 then bumpAsgen n (invalidate n (fun e => e.inst == n) t)
      else invalidate n (fun e => e.inst == n && pageMeets e.bits e.page (invRange s.mem.invLo.toNat ctl)) t)) ∧
  (∀ s : State, s.mem.invDone = false → invHeld s = false →
    exec .xlInvDone s = .next (s.modMem fun m => { m with invDone := true, invReqs := [] }))

/-- R482, R518. H2B_POST through the RAP, and B2H_POST through the I3C target, set FULL and raise the IBI or the fault message, or set
OVF where the mailbox is full; the acknowledges through the other path clear FULL. A word is taken from the path that posts its
direction while that is empty. ORY_ATTEST_CTL with GO clears the reply and starts the report, with its outcome in STATUS. -/
def Obligations.BoardMailbox : Prop :=
  (∀ (s : State) (ic : BitVec 16), s.portUp = true →
    let a := s.answered .rap
    (s.takes 0x300 { data := 1, ic := ic } = true → s.glb.h2bFull = false → exec (.h2bPost ⟨.rap, ic⟩) s = .next (conclude (raiseIbi (a.modGlb fun g => { g with h2bFull := true })))) ∧
    (s.takes 0x300 { data := 1, ic := ic } = true → s.glb.h2bFull = true → exec (.h2bPost ⟨.rap, ic⟩) s = .next (conclude (a.modGlb fun g => { g with mboxOvf := true }))) ∧
    (s.glb.b2hFull = false → exec (.b2hPost ⟨.i3c, ic⟩) s = .next (conclude (faultMsg (s.modGlb fun g => { g with b2hFull := true })))) ∧
    (s.glb.b2hFull = true → exec (.b2hPost ⟨.i3c, ic⟩) s = .next (conclude (s.modGlb fun g => { g with mboxOvf := true }))) ∧
    exec (.h2bAck ⟨.i3c, ic⟩) s = .next (conclude (s.modGlb fun g => { g with h2bFull := false })) ∧
    (s.takes 0x300 { data := 8, ic := ic } = true → exec (.b2hAck ⟨.rap, ic⟩) s = .next (conclude (a.modGlb fun g => { g with b2hFull := false })))) ∧
  (∀ (s : State) (i : Fin 32) (v : RapWord), s.portUp = true →
    let a := s.answered .rap
    (s.takes (0x200 + 4 * i.val) v = true → s.glb.h2bFull = false → exec (.mboxWordWrite .rap .h2b i v) s = .next (a.modGlb fun g => { g with h2b := tset g.h2b 0 i.val v.data })) ∧
    (s.takes (0x200 + 4 * i.val) v = true → s.glb.h2bFull = true → exec (.mboxWordWrite .rap .h2b i v) s = .next (a.modGlb fun g => { g with mboxOvf := true })) ∧
    (s.glb.b2hFull = false → exec (.mboxWordWrite .i3c .b2h i v) s = .next (s.modGlb fun g => { g with b2h := tset g.b2h 0 i.val v.data })) ∧
    (s.takes (0x280 + 4 * i.val) v = true → exec (.mboxWordWrite .rap .b2h i v) s = .next a) ∧
    exec (.mboxWordWrite .i3c .h2b i v) s = .next (portFault (2 ^ 25) s)) ∧
  (∀ (s : State) (path : Path) (v : RapWord), s.pathTakes path 0x50C v = true → orreryUp s = true → bit v.toNat 4 = true →
    let u := (s.answered path).modOry fun o => { o with verifier := fld v.toNat 0 3, attProv := bit v.toNat 3 }
    let t := u.modOry fun o => { o with reply := [] }
    let done := fun (kind : Nat) (x : List Byte) => t.modOry fun o =>
      { o with attStatus := 0, reply := replyWords (report u (fld v.toNat 0 3) kind (nonceBytes u) x) }
    let bad := t.modOry fun o => { o with attStatus := 8 }
    exec (.oryAttestGo path v) s = .next
      (if hasRoot u = false then bad else if bit v.toNat 3 then done 3 (provPair u).1
       else if (attestSecret u (fld v.toNat 0 3)).isNone then bad else done 0 []))

/-- R103, R149, R169 to R177, R179 to R195, R200 of an operation whose data has arrived and whose lane runs. PAD gives nothing, as OK.
SYM_ENC and SYM_DEC take up the AAD copy where asked and the enciphered or deciphered text, with the tag given; the stripes of a Comet
job work it off. A frame job takes up its frame as its context's kind builds or opens it; a received frame that fails its checks gives
nothing, and a bad key of the slot it selects comes first. A text of one segment ends at once, a longer one stands at its first
byte. At the end the tag is added, apart where asked, or compared in full: OK where it agrees, else AUTH_FAIL, with the deciphered
bytes written before the verdict (R197). A source list that ran out ends the job with its outcome. -/
def Obligations.LaneComputations : Prop :=
  (∀ (s : State) (tag : Tag) (j : Job), readyJob s tag.val 0x00 = some j →
    exec (.pad tag) s = .next (conclude (placeWork (computeJob j.tag [] [] (res 0 0) s)))) ∧
  (∀ (s : State) (tag : Tag) (j : Job) (dec : Bool), readyJob s tag.val (if dec then 0x11 else 0x10) = some j →
    let b := j.body
    let data := jobPart s j partData
    let given := if !dec then [] else if fTagSep j.flags then jobPart s j partTag else bytesAt data (symAad b + symText b) (symTag b)
    let m := symMade dec j.kind j.keyA j.keyB j.symIvOf (bytesAt data 0 (symAad b)) (bytesAt data (symAad b) (symText b)) (symDu b)
      (fAadCopy j.flags) given (symTag b)
    exec (if dec then .symDec tag else .symEnc tag) s = .next (conclude (placeWork
      (if j.comet.isSome && j.ends.isNone then
        s.modJob j.tag fun x => { x with out := m.out, sc := m.sc, phase := .computed, segs := 1 }
      else startText data.length m j s)))) ∧
  (∀ (s : State) (tag : Tag) (j : Job), readyJob s tag.val 0x20 = some j →
    exec (.macsecTx tag) s = .next (conclude (placeWork
      (startText (frameGot s j) (macsecTxMade j.adm j.keyA j.keySlot j.pn (jobFrame s j)) j s)))) ∧
  (∀ (s : State) (tag : Tag) (j : Job) (rx : Bool), readyJob s tag.val (if rx then 0x21 else 0x23) = some j →
    let g := match j.selects s with
      | some k => if k = j.keySlot then none else j.other
      | none => none
    exec (if rx then .macsecRx tag else .espIn tag) s = .next (conclude (placeWork
      (match (if rx then macsecRxMade j.adm j.keyOf (jobFrame s j) (frHdr j.body)
              else espInMade j.adm j.keyOf (jobFrame s j) (frHdr j.body)), g with
      | .ok x, none => startText (frameGot s j) x j s
      | .ok _, some r => computeJob j.tag [] [] (j.ends.getD r) s
      | .error r, g => computeJob j.tag [] [] (j.ends.getD (if r.status = 1 || r.status = 0x11 then g.getD r else r)) s)))) ∧
  (∀ (s : State) (tag : Tag) (j : Job), readyJob s tag.val 0x22 = some j →
    exec (.espOut tag) s = .next (conclude (placeWork
      (if j.kind / 2 = 0xA && s.anv.drbg == .stopped then computeJob j.tag [] [] (res 0x23 1) s
       else if j.kind / 2 = 0xA && !drbgUp s then s
       else match espOutMade j.adm j.keyA j.keySlot j.pn (frHdr j.body) (frNext j.body) (drawBytes s 16) (jobFrame s j) with
        | .error r => computeJob j.tag [] [] (j.ends.getD r) s
        | .ok m => startText (frameGot s j) m j (if j.kind / 2 = 0xA then drbgUse 16 s else s))))) ∧
  (∀ (s : State) (j : Job) (got : Nat) (m : Made),
    let e : Eng := { words := ((({ j with out := m.out, sc := m.sc } : Job).macSlot).map fun n => (s.hslot n).states.1).getD [] }
    let j2 : Job := { j with out := m.out, sc := m.sc, eng := e, back := (0, e), phase := .computed }
    (j.ends = none → startText got m j s
      = if j.segs ≤ 1 then endText { j2 with ends := m.ends } (s.modJob j.tag fun _ => { j2 with ends := m.ends })
        else s.modJob j.tag fun _ => { j2 with ends := m.ends }) ∧
    (∀ r, j.ends = some r → startText got m j s = closeJob { j2 with segs := 1 } (m.out.take (m.sc.outAt got))
      (m.out.take (m.sc.outAt got)).length [] r (s.modJob j.tag fun _ => j2))) ∧
  (∀ (s : State) (j : Job), decrypts j.opc = true →
    (j.textTag s = j.sc.given → endText j s
      = closeJob j j.out (if j.ends.isSome then j.eng.dst else j.out.length) []
          (j.ends.getD (res 0 0 (if j.egress.isSome then 0 else j.out.length)))
          (if isFrame j.opc then s.modJob j.tag fun x => { x with verified := true, pn := j.sc.num, keySlot := j.sc.slot } else s)) ∧
    (j.textTag s ≠ j.sc.given → endText j s = match j.macSlot with
      | some n => closeJob j j.out j.out.length [] (res 1 2)
          (s.modDig fun d => { d with slots := tmod d.slots {} n fun h => { h with failCnt := min 0xFFF (h.failCnt + 1) } })
      | none => closeJob j j.out j.out.length [] (res 1 1) s)) ∧
  (∀ (s : State) (j : Job), decrypts j.opc = false →
    let t := j.textTag s
    endText j s = if isSym j.opc && fTagSep j.flags
      then closeJob j j.out j.out.length (if t.isEmpty then [] else [(symTagAddr j.body, t)]) (res 0 0 j.out.length) s
      else closeJob j (j.out ++ t) (j.out.length + t.length) [] (res 0 0 (if j.egress.isSome then 0 else j.out.length + t.length)) s)

/-- R153, R154, R301, R302, R305, R312, R320, of an operation whose data has arrived and whose pipe is free. DIGEST, MAC and MAC_VERIFY
load the state that the message follows, the inner state of an HMAC slot among them; a message of one segment ends at once, a longer
one stands at its first byte. At the end DIGEST and MAC give the digest or the code; MAC_VERIFY writes nothing: OK where the codes
agree, else MAC, with one more failure on the HMAC slot it used. COMPARE is OK where both buffers agree, else COMPARE. -/
def Obligations.DigestComputations : Prop :=
  (∀ (s : State) (tag : Tag) (j : Job) (o : Nat) (c : Instr),
    (o, c) ∈ [(0x30, .digest tag), (0x31, .mac tag), (0x32, .macVerify tag)] → readyJob s tag.val o = some j →
    let b := j.body
    let msg := jobPart s j partData
    let e : Eng := { words := digestStart (dgAlg b) j.keyA (jobPart s j partCustom) (j.hslot.map fun n => (s.hslot n).states.1) }
    let j1 : Job := { j with
      phase := .computed
      sc := digestScript (dgAlg b) (dgLen b) msg
      eng := e
      back := (0, e)
      segs := digestSegs b msg.length }
    exec c s = .next (conclude (placeWork (if digestSegs b msg.length ≤ 1 then endDigest j1 (s.modJob j.tag fun _ => j1)
      else s.modJob j.tag fun _ => j1)))) ∧
  (∀ (s : State) (j : Job),
    let outer := (match j.hslot with
      | some n => (s.hslot n).states
      | none => hmacStates (algHash (dgAlg j.body)) j.keyA).2
    let out := digestEnd (dgAlg j.body) (dgLen j.body) j.sc outer j.eng
    let t := match j.hslot with
      | some n => s.modDig fun d => { d with slots := tmod d.slots {} n fun h => { h with failCnt := min 0xFFF (h.failCnt + 1) } }
      | none => s
    (j.opc ≠ 0x32 → endDigest j s = closeJob j out out.length [] (res 0 0 out.length) s) ∧
    (j.opc = 0x32 → endDigest j s = if out = jobPart s j partSecond then closeJob j [] 0 [] (res 0 0) s
      else closeJob j [] 0 [] (res 1 2) t)) ∧
  (∀ (s : State) (tag : Tag) (j : Job), readyJob s tag.val 0x33 = some j →
    exec (.compare tag) s = .next (conclude (placeWork (computeJob j.tag [] []
      (if jobPart s j partData == jobPart s j partSecond then res 0 0 else res 1 3) s))))

/-- R324, R325, R328 to R337, R341, R344, R345, of an operation whose data has arrived and to which its unit has come. One that needs
random bits waits for the DRBG, and is NO_ENTROPY where it has stopped. A private key that its envelope or range check fails is
WRAPPED_KEY; an operation on one draws its blinding. RSA_PRIV with IN not below the modulus, and RSA_PUB with a bad key or input, are
PARAM; a private result that its public exponent does not confirm retires the unit instead. VERIFY gives no output: OK, SIGNATURE, or
PUBLIC_KEY for a bad point. KEYGEN gives the public key and the private one wrapped under PARENT once its pair has passed its test. RANDOM
gives OUT_LEN bytes of one generate request. What a job that has ended kept in its unit is gone. -/
def Obligations.AnvilComputations : Prop :=
  (∀ (s : State) (tag : Tag) (j : Job), readyJob s tag.val 0x40 = some j → s.anv.drbg = .running →
    exec (.rsaPriv tag) s = .next (conclude (placeWork (wipeUnit tag.val (match privOf s j with
      | none => computeJob j.tag [] [] (res 1 4) s
      | some k => rsaPrivRun k j (drbgUse (blindBytes k) s)))))) ∧
  (∀ (s : State) (tag : Tag) (j : Job), readyJob s tag.val 0x40 = some j → s.anv.drbg = .stopped →
    exec (.rsaPriv tag) s = .next (conclude (placeWork (wipeUnit tag.val (computeJob j.tag [] [] (res 0x23 1) s))))) ∧
  (∀ (s : State) (k : List Byte) (j : Job), let x := rsaParts k
    let n := x.1 * x.2.1
    let m := beNat (avInput s j)
    let out := rsaPrivate (avInLen j.body) x.1 x.2.1 x.2.2.1 x.2.2.2.1 x.2.2.2.2 m
    rsaPrivRun k j s = if n ≤ m then computeJob j.tag [] [] (res 4 0x12) s
      else if powMod n (beNat out) (beNat (k.drop (k.length - 32))) = m then jobGives out j s
      else match j.place with
        | .unit u => unitFail u 7 s
        | _ => s) ∧
  (∀ (s : State) (tag : Tag) (j : Job), readyJob s tag.val 0x41 = some j →
    let key := jobPart s j partKey
    let k := key.length - 32
    let n := beNat (key.take k)
    let e := beNat (key.drop k)
    let m := beNat (avInput s j)
    exec (.rsaPub tag) s = .next (conclude (placeWork (wipeUnit tag.val
      (if n % 2 = 0 || n < 2 ^ (8 * k - 1) || e % 2 = 0 || e < 3 || m ≥ n then computeJob j.tag [] [] (res 4 0x12) s
       else jobGives (rsaPublic k n e m) j s))))) ∧
  (∀ (s : State) (tag : Tag) (j : Job), readyJob s tag.val 0x42 = some j → s.anv.drbg = .running →
    exec (.sign tag) s = .next (conclude (placeWork (wipeUnit tag.val (match privOf s j with
      | none => computeJob j.tag [] [] (res 1 4) s
      | some k => signRun k j (drbgUse (blindBytes k) s)))))) ∧
  (∀ (s : State) (tag : Tag) (j : Job), readyJob s tag.val 0x43 = some j →
    let pk := jobPart s j partKey
    exec (.verify tag) s = .next (conclude (placeWork (wipeUnit tag.val
      (if hybridPoint (avAlg j.body) pk then computeJob j.tag [] [] (res 4 0x12) s
       else if !pubPointOk (avAlg j.body) pk then computeJob j.tag [] [] (res 1 6) s
       else match sigVerifies j pk (avInput s j) (jobPart s j partSecond) with
        | none => computeJob j.tag [] [] (res 4 0x12) s
        | some ok => computeJob j.tag [] [] (if ok then res 0 0 else res 1 5) s))))) ∧
  (∀ (s : State) (tag : Tag) (j : Job), readyJob s tag.val 0x47 = some j → s.anv.drbg = .running → bit j.flags 4 = false →
    exec (.keygen tag) s = .next (conclude (placeWork (wipeUnit tag.val (keygenMake j s))))) ∧
  (∀ (s : State) (j : Job) (pub k : List Byte) (n : Nat), avAlg j.body ≠ 1 → genPair (avAlg j.body) s = some (pub, k, n) →
    keygenMake j s = keygenGive pub k j (drbgUse (blindBytes k) (drbgUse n s))) ∧
  (∀ (s t : State) (pub k : List Byte) (j : Job), pairOk (avAlg j.body) pub k = true →
    (countWrap (hIndex j.parent) s = some t → keygenGive pub k j s = computeJob j.tag pub
      [(avKey j.body, envMake j.keyA 4 (avAlg j.body) k (drawBytes t 12))] (res 0 0 pub.length) (drbgUse 12 t)) ∧
    (countWrap (hIndex j.parent) s = none → keygenGive pub k j s = computeJob j.tag [] [] (res 8 4) s)) ∧
  (∀ (s : State) (tag : Tag) (j : Job), readyJob s tag.val 0x48 = some j → s.anv.drbg = .running →
    let n := avOutLen j.body
    exec (.random tag) s = .next (conclude (placeWork (wipeUnit tag.val
      (computeJob j.tag (drawBytes s n) [] (res 0 0 (drawBytes s n).length)
        (drawn n (s.modAnv fun a => { a with requests := a.requests + 1 }))))))) ∧
  (∀ (s : State) (tag : Nat) (j : Job), s.job? tag = some j →
    wipeUnit tag s = if j.phase = .reading then s
      else (dropReads j s).modJob tag fun x => { x with reads := [], ops := [], keyA := [], keyB := [] })

/-- R156, R157, R270, R271, R331, R335, R354, R364, of an operation on context entry `e` whose data has arrived, whose replaced key no
other operation uses and whose new key stays above DEPTH 6. NEXT_KEY_DERIVE installs the derived material, NEXT_KEY_UNWRAP what the
envelope holds, else WRAPPED_KEY. A KEY_AGREE with a wrapped key installs what the shared secret derives, and an invalid peer is
PUBLIC_KEY; without one its key is fresh and its public key the output. KEM_ENCAPS gives the ciphertext, KEM_DECAPS opens it. -/
def Obligations.NextKeyJobs : Prop :=
  (∀ (s : State) (tag : Tag) (j : Job) (e : Nat), j.ctxEnt = some e → nextInUse s e = false → childDepth s j.parent < 6 →
    let need := materialLen (s.ctxAt e)
    (readyJob s tag.val 0x50 = some j → exec (.nextKeyDerive tag) s = .next (conclude (placeWork
      (jobGives [] j (installFor j e (kdf j.keyA 3 (kjLabel j.body) (jobPart s j partSecond) need) s))))) ∧
    (readyJob s tag.val 0x51 = some j → exec (.nextKeyUnwrap tag) s = .next (conclude (placeWork
      (match envOpen j.keyA 1 ((s.ctxAt e).keySize + 1) need (jobPart s j partSecond) with
      | none => computeJob j.tag [] [] (res 1 4) s
      | some m => jobGives [] j (installFor j e m s))))) ∧
    (s.anv.drbg = .running → readyJob s tag.val 0x44 = some j → avKeyLen j.body ≠ 0 → hybridPoint (avAlg j.body) (avInput s j) = false →
      exec (.keyAgree tag) s = .next (conclude (placeWork (wipeUnit tag.val
      (match privOf s j with
      | none => computeJob j.tag [] [] (res 1 4) s
      | some k =>
        let t := drbgUse (blindBytes k) s
        match agreeSecret (avAlg j.body) k (avInput t j) with
        | none => computeJob j.tag [] [] (res 1 6) t
        | some z => installSecret e z [] j t))))) ∧
    (s.anv.drbg = .running → readyJob s tag.val 0x44 = some j → avKeyLen j.body = 0 → hybridPoint (avAlg j.body) (avInput s j) = false →
      exec (.keyAgree tag) s = .next (conclude (placeWork (wipeUnit tag.val
        (match agreeFresh (avAlg j.body) s with
        | none => drbgUse (64 * (curveOf (avAlg j.body)).len) s
        | some (k, n) =>
          let t := drbgUse (blindBytes k) (drbgUse n s)
          match agreeSecret (avAlg j.body) k (avInput s j) with
          | none => computeJob j.tag [] [] (res 1 6) t
          | some z => installSecret e z (agreePublic (avAlg j.body) k) j t))))) ∧
    (s.anv.drbg = .running → readyJob s tag.val 0x44 = some j → hybridPoint (avAlg j.body) (avInput s j) = true →
      exec (.keyAgree tag) s = .next (conclude (placeWork (wipeUnit tag.val (computeJob j.tag [] [] (res 4 0x12) s))))) ∧
    (s.anv.drbg = .running → readyJob s tag.val 0x45 = some j →
      let x := kemEncaps (avAlg j.body) (avInput s j) (drawBytes s 32)
      exec (.kemEncaps tag) s = .next (conclude (placeWork (wipeUnit tag.val
        (if kemEkOk (avAlg j.body) (avInput s j) then installSecret e x.1 x.2 j (drbgUse 32 s)
         else computeJob j.tag [] [] (res 1 6) s))))) ∧
    (s.anv.drbg = .running → readyJob s tag.val 0x46 = some j → exec (.kemDecaps tag) s = .next (conclude (placeWork (wipeUnit tag.val
      (match privOf s j with
      | none => computeJob j.tag [] [] (res 1 4) s
      | some k => installSecret e (kemDecaps (avAlg j.body) k (avInput (drbgUse (blindBytes k) s) j)) [] j (drbgUse (blindBytes k) s))))))) ∧
  (∀ (s : State) (e : Nat) (secret out : List Byte) (j : Job), installSecret e secret out j s
    = computeJob j.tag out [] (res 0 0 out.length)
        (installFor j e (kdf secret 5 (avLabel j.body) [] (materialLen (s.ctxAt e))) s)) ∧
  (∀ (s : State) (tag : Tag) (j : Job) (e : Nat), j.ctxEnt = some e → nextInUse s e = true → readyJob s tag.val 0x50 = some j →
    exec (.nextKeyDerive tag) s = .next (conclude (placeWork s))) ∧
  (∀ (s : State) (tag : Tag) (j : Job) (e : Nat), j.ctxEnt = some e → nextInUse s e = false → 6 ≤ childDepth s j.parent →
    readyJob s tag.val 0x50 = some j → exec (.nextKeyDerive tag) s = .next (conclude (placeWork (computeJob j.tag [] [] (res 8 8) s))))

/-- R406 to R409, R427 to R430, for the packet that is served. CREATE of an UNUSED instance installs its key at the epoch given, sets the
resources and leaves it DISABLED; RESIZE sets the resources. RESET starts the reset, which hardware ends; RELEASE of a DISABLED instance
without keys frees it. ENABLE of a DISABLED instance enables it, and waits where a shut-down runs; DISABLE starts the stop, and with
ECLIPSE the quiescence, complete once nothing is in flight. A PAD is OK. -/
def Obligations.InstanceCommands : Prop :=
  (∀ (s t : State) (slot : SlotId) (p : Packet), s.serving slot.val 0x00 noReads = some (p, t) →
    exec (.controlPad slot) s = .next (conclude (endCmd p.slot okRes 0 t))) ∧
  (∀ (s t : State) (slot : SlotId) (p : Packet), s.serving slot.val 0x01 descRead = some (p, t) →
    let n := p.p 0
    let d := cmdDesc t p
    let g := descGroups true d
    descReservedSet d = false → descRangeOk t n d g = true → epochBad t n (fld d 0 32) = false → hasRoot t = true →
    ((t.inst n).st = .unused → iotlbOver t n (fld d 256 14) = false →
      let u := (recordSlot n (putInstKey n (fld d 0 32) t)).modLdg fun l =>
        { l with epochs := tset l.epochs (0, false) n (fld d 0 32, false) }
      exec (.instCreate slot) s = .next (conclude (endCmd p.slot okRes 0 ((bumpAsgen n (setResources n d g u)).modInst n fun v =>
        { v with st := .disabled, weight := v.newWeight, burst := v.newBurst })))) ∧
    ((t.inst n).st ≠ .unused → exec (.instCreate slot) s = .next (conclude (endCmd p.slot okRes 0 t)))) ∧
  (∀ (s t : State) (slot : SlotId) (p : Packet), s.serving slot.val 0x02 descRead = some (p, t) →
    let n := p.p 0
    let d := cmdDesc t p
    let g := descGroups false d
    descReservedSet d = false → descRangeOk t n d g = true → (t.inst n).st ≠ .unused → rangeHeld t n d g = false →
    (g 2 = true → pinnedOf t n ≤ fld d 128 19) → (g 7 = true → iotlbOver t n (fld d 256 14) = false) →
    exec (.instResize slot) s = .next (conclude (endCmd p.slot okRes 0 (setResources n d g t)))) ∧
  (∀ (s t : State) (slot : SlotId) (p : Packet), s.serving slot.val 0x03 noReads = some (p, t) → bit p.flags 0 = false → p.stage = 0 →
    let n := p.p 0
    ((t.inst n).st ≠ .unused → (t.inst n).st ≠ .resetting →
      exec (.instReset slot) s = .next (conclude (modPacket p.slot (fun q => { q with stage := 1, committed := true, waits := true })
        ((startReset n t).modInst n fun v => { v with cmd := some p.slot }))))) ∧
  (∀ (s t : State) (slot : SlotId) (p : Packet), s.serving slot.val 0x03 noReads = some (p, t) → bit p.flags 0 = true →
    let n := p.p 0
    ((t.inst n).st = .disabled → ownsKeys t n = false →
      exec (.instResetRelease slot) s = .next (conclude (endCmd p.slot okRes 0 (releaseInst n t)))) ∧
    ((t.inst n).st = .disabled → ownsKeys t n = true →
      exec (.instResetRelease slot) s = .next (conclude (failCmd p.slot (res 5 4) t)))) ∧
  (∀ (s t : State) (slot : SlotId) (p : Packet), s.serving slot.val 0x04 noReads = some (p, t) → p.stage = 0 →
    let n := p.p 0
    let wait := fun (q : Packet) => { q with stage := 1, committed := true, waits := true }
    ((t.inst n).st = .disabled → (t.inst n).resetHeld = false → exec (.instEnable slot) s = .next (conclude (endCmd p.slot okRes 0
      (t.modInst n fun v => { v with st := .enabled, resetHeld := false, pendBase := .unused })))) ∧
    ((t.inst n).st = .disabled → (t.inst n).resetHeld = true →
      exec (.instEnable slot) s = .next (conclude (modPacket p.slot wait (enableInst n t)))) ∧
    ((t.inst n).st = .stopping → exec (.instEnable slot) s = .next (conclude (modPacket p.slot wait
      ((t.modInst n fun x => { x with st := .pendingEnable, pendBase := .stopping }).modInst n fun v => { v with cmd := some p.slot }))))) ∧
  (∀ (s t : State) (slot : SlotId) (p : Packet), s.serving slot.val 0x05 noReads = some (p, t) →
    let n := p.p 0
    (bit p.flags 0 = false → p.stage = 0 → (t.inst n).st = .enabled →
      exec (.instDisable slot) s = .next (conclude (ownSequence n p.slot (startStop n t)))) ∧
    (bit p.flags 0 = true → p.stage = 0 → (t.inst n).st = .enabled →
      let u := modPacket p.slot (fun q => { q with stage := 1, committed := true, waits := true }) (startQuiet n t)
      exec (.instDisableEclipse slot) s = .next (conclude (if inFlight u n = 0 then endCmd p.slot okRes 0 u else u)))) ∧
  (∀ (s : State) (slot : SlotId) (n : Nat), powered s = true →
    (sequenceInst s slot.val (fun v => v.st == .resetting || (v.st == .pendingEnable && v.pendBase == .resetting)) = some n →
      instQuiet s n = true → exec (.instResetComplete slot) s = .next (conclude (shutDone n true s))) ∧
    (sequenceInst s slot.val (fun v => v.st == .stopping || (v.st == .pendingEnable && v.pendBase == .stopping)) = some n →
      instStopped s n = true → exec (.instStopComplete slot) s = .next (conclude (shutDone n false s)))) ∧
  (∀ (s : State) (n slot : Nat) (reset : Bool), (s.inst n).st ≠ .pendingEnable → (s.inst n).cmd = some slot →
    shutDone n reset s = packetDone slot okRes (s.modInst n fun v =>
      { v with st := .disabled, pendBase := .unused, cmd := none, resetHeld := v.resetHeld || reset }))

/-- R252, R256, R257, R268 to R272, R276 to R278, R466, R467, R521 to R523, for the packet that is served; a context is taken where it is
resident and not in eviction. CREATE whose block and parent pass their checks puts a fresh context with its keys into a free entry; a
CTX_LOAD without it completes on its owner's context, and asks the Vault for one that is not resident. CTX_EVICT, also with DELETE and
FLUSH, starts the seal. CTX_PIN sets or clears PIN. CTX_EXPORT writes the blob and leaves its context STALE, CTX_IMPORT of an opened
blob puts the context in and starts its seal, CTX_REKEY installs the key with BOTH or as the next one, or changes the numbers alone. -/
def Obligations.ContextCommands : Prop :=
  (∀ (s t : State) (slot : SlotId) (p : Packet),
    s.serving slot.val 0x10 (fun p => if bit p.flags 0 then [(p.p 1, 128)] else []) = some (p, t) → bit p.flags 0 = true →
    let d := createBlock t p
    let c := createCtx p t
    let par := fld d 512 32
    createReserved d = false → createParamBad d = false → hasRoot t = true → t.ctxOf p.ctx = none →
    (t.vault.en = false ∨ p.probed = true) → createChecks p c t = none →
    ((p.stage = 0 → bit d 704 = false ∧ bit d 706 = false) → ∀ a, sourceKey t c par (fld d 576 64) (if bit d 704 then some (cmdData t p 1) else none) = some a →
      halvesEqual c a = false → roomFor t c.owner = .here →
      let e := firstGap (tkeys t.ctx) 0
      let u := putMaterial e 0 a par (fillEntry e c t)
      (bit d 705 = false → exec (.ctxLoad slot) s = .next (conclude (resumeHandle p.ctx (endCmd p.slot okRes 0 u)))) ∧
      (bit d 705 = true → ∀ b, sourceKey t c par (fld d 640 64) (if bit d 706 then some (cmdData t p 2) else none) = some b →
        exec (.ctxLoad slot) s = .next (conclude (resumeHandle p.ctx (endCmd p.slot okRes 0 (putMaterial e 1 b par u))))))) ∧
  (∀ (s t : State) (slot : SlotId) (p : Packet),
    s.serving slot.val 0x10 (fun p => if bit p.flags 0 then [(p.p 1, 128)] else []) = some (p, t) → bit p.flags 0 = false →
    (∀ e, t.ctxOf p.ctx = some e → (t.ctxAt e).st ≠ .evicting → (t.ctxAt e).owner = p.p 0 →
      let u := modPacket p.slot (fun x => { x with waits := false }) t
      exec (.ctxLoad slot) s = .next (conclude (endCmd p.slot okRes 0 (if bit p.flags 1 then pinCtx e true u else u)))) ∧
    (t.ctxOf p.ctx = none → t.vault.en = true → exec (.ctxLoad slot) s = .next (conclude (addMiss p.ctx (p.p 0)
      (modPacket p.slot (fun x => { x with waits := true, aux := p.p 0 }) t))))) ∧
  (∀ (s t : State) (slot : SlotId) (p : Packet) (e : Nat), s.serving slot.val 0x11 noReads = some (p, t) → p.stage = 0 →
    t.ctxOf p.ctx = some e → (t.ctxAt e).st ≠ .evicting → t.vault.en = true →
    let go := fun (x : Packet) => { x with stage := 1, committed := true, waits := true }
    (fld p.flags 0 2 = 0 → exec (.ctxEvict slot) s = .next (conclude (startEvict p.ctx e false false (modPacket p.slot go t)))) ∧
    (bit p.flags 0 = true → exec (.ctxEvictDelete slot) s = .next (conclude (startEvict p.ctx e true false
      (modPacket p.slot go (modPacket p.slot (fun x => { x with waits := false }) t))))) ∧
    (bit p.flags 1 = true → bit p.flags 0 = false →
      exec (.ctxEvictFlush slot) s = .next (conclude (startEvict p.ctx e false true (modPacket p.slot go t))))) ∧
  (∀ (s t : State) (slot : SlotId) (p : Packet) (e : Nat), s.serving slot.val 0x12 noReads = some (p, t) →
    t.ctxOf p.ctx = some e → (t.ctxAt e).st ≠ .evicting →
    exec (.ctxPin slot) s = .next (conclude (endCmd p.slot okRes 0
      ((modPacket p.slot (fun x => { x with waits := false }) t).modCtx e fun c => { c with pin := !bit p.flags 0 })))) ∧
  (∀ (s t : State) (slot : SlotId) (p : Packet) (e : Nat), s.serving slot.val 0x13 noReads = some (p, t) →
    parentCheck t (p.p 0) mi [.transport] = none → t.ctxOf p.ctx = some e → (t.ctxAt e).st ≠ .evicting →
    ¬((t.ctxAt e).st = .stale ∧ (t.ctxAt e).cause = 2) → entryInUse t e = false →
    let u := modPacket p.slot (fun x => { x with waits := false }) t
    let i := hIndex (p.p 0)
    let n := (u.parent i).expSeq + 1
    let v := markStale e 2 (u.modParent i fun k => { k with expSeq := n })
    exec (.ctxExport slot) s = .next (conclude (cmdWrite p.slot (p.p 1) (exportBlob u e n (parentKey u (p.p 0)))
      (endCmd p.slot okRes n (modPacket p.slot (fun x => { x with committed := true }) v))))) ∧
  (∀ (s t : State) (slot : SlotId) (p : Packet), s.serving slot.val 0x14 (fun p => [(p.p 1, 256)]) = some (p, t) → p.stage = 0 →
    parentCheck t (p.p 0) mi [.transport] = none → parentCheck t (p.p 3) (p.p 2) [.inst, .parent] = none →
    t.vault.en = true → t.ctxOf p.ctx = none → p.probed = true → childDepth t (p.p 3) < 6 → roomFor t (p.p 2) = .here →
    exec (.ctxImport slot) s = .next (conclude
      (match openBlob (parentKey t (p.p 0)) (cmdData t p 0) with
      | none => failCmd p.slot wrappedFail t
      | some b => if leAt b.hd 24 8 ≤ (t.parent (hIndex (p.p 0))).impSeq then failCmd p.slot (replayRes 1) t
        else if halvesEqual (importedCtx p b t) (importedKeys p b t) then failCmd p.slot xtsEqual t else importCtx p b t))) ∧
  (∀ (t : State) (p : Packet) (b : Opened),
    let e := firstGap (tkeys t.ctx) 0
    let c := importedCtx p b t
    recHasKey c b.hd b.pt 0 = true → recHasKey c b.hd b.pt 1 = false →
    importCtx p b t = startEvict p.ctx e false true
      (modPacket p.slot (fun x => { x with stage := 1, committed := true, waits := true, wants := none })
        ((putCtxKey e 0 (bytesAt b.pt 64 32) c.keySize (p.p 3) (handleGen (fillEntry e c t) (p.p 3)) (childDepth (fillEntry e c t) (p.p 3))
          c.owner (fillEntry e c t)).modParent (hIndex (p.p 0)) fun k => { k with impSeq := leAt b.hd 24 8 }))) ∧
  (∀ (s t : State) (slot : SlotId) (p : Packet) (e : Nat), s.serving slot.val 0x15 noReads = some (p, t) →
    t.ctxOf p.ctx = some e → (t.ctxAt e).st ≠ .evicting →
    let u := modPacket p.slot (fun x => { x with waits := false }) t
    let c := u.ctxAt e
    let s0 := applyAttr p e u
    let kb := keyBytes c.keySize
    ¬(c.st = .stale ∧ c.cause = 2) → rekeyParamBad p c = false →
    (bit p.flags 8 = true → slotInUse u e (1 - c.role) = false →
      exec (.ctxRekey slot) s = .next (conclude (endCmd p.slot okRes 0 (applyNumbers p e (1 - c.role) s0)))) ∧
    (bit p.flags 8 = false → (bit p.flags 4 = true → p.stage ≠ 0) → parentCheck u (p.p 0) c.owner [.inst, .parent] = none →
      childDepth u (p.p 0) < 6 →
      ∀ m, sourceKey u c (p.p 0) (p.p 1) (if bit p.flags 4 then some (cmdData u p 0) else none) = some m → halvesEqual c m = false →
      (bit p.flags 3 = true → entryInUse u e = false → exec (.ctxRekey slot) s = .next (conclude
        (resumeHandle p.ctx (endCmd p.slot okRes 0 (applyNumbers p e c.role (installBoth p e m s0)))))) ∧
      (bit p.flags 3 = false → c.kind ≠ 5 → slotInUse u e (1 - c.role) = false → exec (.ctxRekey slot) s = .next (conclude
        (resumeHandle p.ctx (endCmd p.slot okRes 0 (applyNumbers p e (1 - c.role) (installNext e (m.take kb) (m.drop kb)
          (fld p.flags 0 2) (p.p 0) (handleGen u (p.p 0)) (childDepth u (p.p 0)) s0))))))))

/-- R309, R311, R350 to R352, R364 to R369, R375, for the packet that is served; `saved` says that no envelope is asked for, or that it
is written. KEY_DERIVE installs what its source derives, KEY_UNWRAP what the envelope holds, with KEM under the decapsulated secret, or
as an attestation secret; RESTORE puts an absent key back; each completes with the handle. An envelope that does not open is
WRAPPED_KEY. SAVE writes the envelope first. KEY_INVALIDATE invalidates everything under the key, and with DESTROY zeroises it.
HMAC_SLOT_LOAD closes its slot to admission, then fills it with both states under a mask of 128 drawn bytes, or empties it with CLEAR. -/
def Obligations.KeyCommands : Prop :=
  let saved := fun (p : Packet) (t : State) => (p.save = false ∨ p.stage ≠ 0) ∧ cmdWriting t p.slot = false
  let install := fun (p : Packet) (i parent depth : Nat) (key : List Byte) (t : State) =>
    let u := recordSlot i (installParent i { kind := .parent, owner := p.owner, depth := depth, bits := p.bits, parent := parent,
                                             pgen := if parent = 0 then 0 else handleGen t parent, wraps := resumeWraps t key, key := key } t)
    endCmd p.slot (okRes (parentHandle u i)) 0 u
  (∀ (s t : State) (slot : SlotId) (p : Packet) (i : Nat), s.serving slot.val 0x20 deriveRead = some (p, t) →
    parentCheck t p.srcKey p.owner [.inst, .parent] = none → childDepth t p.srcKey < 6 → takeParent t p.owner = some i →
    let under := parentKey t p.srcKey
    let key := kdf under 2 (natLe 8 (p.p 1)) (cmdData t p 0) (keyBytes p.bits)
    (saved p t → exec (.keyDerive slot) s = .next (conclude (install p i p.srcKey (childDepth t p.srcKey) key t))) ∧
    (p.save = true → p.stage = 0 → t.anv.drbg = .running → p.srcKey ≠ 0 → ∀ u, countWrap (hIndex p.srcKey) t = some u →
      exec (.keyDerive slot) s = .next (conclude (cmdWrite p.slot (p.p 4) (envMake under 2 (p.bits + 1) key (drawBytes u 12))
        (modPacket p.slot (fun x => { x with stage := 1 }) (drawn 12 u)))))) ∧
  (∀ (s t : State) (slot : SlotId) (p : Packet) (i : Nat), s.serving slot.val 0x21 (envRead 0) = some (p, t) →
    bit p.flags 1 = false → bit p.flags 3 = false → unwrapSource t p.srcKey p.owner = none → childDepth t p.srcKey < 6 →
    takeParent t p.owner = some i → saved p t → exec (.keyUnwrap slot) s = .next (conclude
      (match envOpen (parentKey t p.srcKey) 2 (p.bits + 1) (keyBytes p.bits) (cmdData t p 0) with
      | none => failCmd p.slot wrappedFail t
      | some key => install p i p.srcKey (childDepth t p.srcKey) key t))) ∧
  (∀ (s t : State) (slot : SlotId) (p : Packet), s.serving slot.val 0x21 (envRead 1088) = some (p, t) →
    bit p.flags 1 = true → bit p.flags 3 = false →
    let secret := kemDecaps kem768 (provPair t).2 ((cmdData t p 0).take 1088)
    (∀ i, bit p.flags 2 = false → takeParent t p.owner = some i → saved p t → exec (.keyUnwrapKem slot) s = .next (conclude
      (match envOpen secret 2 (p.bits + 1) (keyBytes p.bits) ((cmdData t p 0).drop 1088) with
      | none => failCmd p.slot wrappedFail t
      | some key => install p i p.srcKey 2 key t))) ∧
    (bit p.flags 2 = true → t.anv.drbg = .running → exec (.keyUnwrapKem slot) s = .next (conclude
      (match envOpen secret 5 (p.bits + 1) (keyBytes p.bits) ((cmdData t p 0).drop 1088) with
      | none => failCmd p.slot wrappedFail t
      | some key => endCmd p.slot okRes 0 (putSecret (fld (p.p 0) 40 3) p.bits key t))))) ∧
  (∀ (s t : State) (slot : SlotId) (p : Packet), s.serving slot.val 0x21 noReads = some (p, t) → bit p.flags 3 = true →
    restoreTarget t (p.p 2) = none → restoreSource t p.srcKey (p.p 2) = none →
    let i := hIndex (p.p 2)
    let k := t.parent i
    (p.reads = [] → exec (.keyUnwrapRestore slot) s = .next (conclude (cmdRead p.slot 0 (p.p 1) (44 + keyBytes k.bits) t))) ∧
    (p.reads ≠ [] → saved p t → exec (.keyUnwrapRestore slot) s = .next (conclude
      (match envOpen (parentKey t p.srcKey) 2 (k.bits + 1) (keyBytes k.bits) (cmdData t p 0) with
      | none => failCmd p.slot wrappedFail t
      | some key =>
        if keyPrint key = (tget t.ldg.slotTab {} i).fpr then
          endCmd p.slot (okRes (p.p 2)) 0 (recordSlot i (drawn 16 (t.modParent i fun x =>
            { x with absent := false, key := slotBytes key, seed := drawBytes t 16, parent := p.srcKey, pgen := handleGen t p.srcKey,
                     wraps := resumeWraps t key })))
        else failCmd p.slot wrappedFail t)))) ∧
  (∀ (s t : State) (slot : SlotId) (p : Packet), s.serving slot.val 0x22 noReads = some (p, t) →
    invalidateCheck t (p.p 0) (bit p.flags 0) = none →
    let i := hIndex (p.p 0)
    exec (.keyInvalidate slot) s = .next (conclude (endCmd p.slot okRes 0
      (if bit p.flags 0 then destroyKey i (invalidateUnder [i] t) else invalidateUnder [i] t)))) ∧
  (∀ (s t : State) (slot : SlotId) (p : Packet), s.serving slot.val 0x28 noReads = some (p, t) →
    let n := fld (p.p 0) 0 12
    let own := fld (p.p 0) 16 8
    let hash := fld (p.p 3) 8 2
    let u := modPacket p.slot (fun x => { x with stage := 1 }) (t.modHslot n fun h => { h with pending := true })
    (p.stage = 0 → ∀ x, hmacReads p = [x] → exec (.hmacSlotLoad slot) s = .next (conclude (cmdRead p.slot 0 x.1 x.2 u))) ∧
    (p.stage = 0 → hmacReads p = [] → ∀ q, livePacket u p.slot p.opc = some q → q.reads = [] → bit q.flags 0 = true →
      hslotInUse u (fld (q.p 0) 0 12) = false → exec (.hmacSlotLoad slot) s = .next (conclude (endCmd q.slot okRes 0
        (u.modHslot (fld (q.p 0) 0 12) fun h => { gen := (h.gen + 1) % 256 })))) ∧
    (p.stage ≠ 0 → bit p.flags 0 = false → parentCheck t (p.p 1) own [.inst, .parent] = none → childDepth t (p.p 1) < 6 →
      t.anv.drbg = .running → hslotInUse t n = false → exec (.hmacSlotLoad slot) s = .next (conclude
        (match hmacKey p t with
        | none => failCmd p.slot wrappedFail t
        | some key => endCmd p.slot okRes 0 (drawn 128 (t.modHslot n fun h =>
            ({ valid := true, hash := hash, owner := own, gen := (h.gen + 1) % 256, parent := p.p 1, pgen := handleGen t (p.p 1) } : HSlot).store
              (hmacStates hash key) (hmacMask hash (drawBytes t 128)))))))) ∧
  (∀ (h : HSlot) (st : List Nat × List Nat) (mask : List Nat), h.store st mask
    = { h with mask := mask, inner := List.zipWith (· ^^^ ·) st.1 (mask.take 8), outer := List.zipWith (· ^^^ ·) st.2 (mask.drop 8) })

/-- R368, R371, R373, R374, for the packet that is served. PLAIN and PROV_KEY write their report and complete with its length, where it
fits. OFFER writes the report of a fresh ephemeral seed, then places the seed as OFFERED with the report's digest. RESPOND and FINISH
check the peer's report; RESPOND agrees the transport key, writes its report and then installs the key; FINISH agrees it from the
seed of its slot and installs it there. A report that fails is MAC or MODE, a public value that fails PUBLIC_KEY; after either FINISH frees its slot, the seed with it (log
entry 187). -/
def Obligations.AttestCommands : Prop :=
  let sized := fun (p : Packet) (r : List Byte) (t u : State) => if fld (p.p 4) 0 16 < r.length then failCmd p.slot (res 4 0x11) t else u
  let peer := fun (p : Packet) (o : Option Res) (t u : State) => match o with | some r => failCmd p.slot r t | none => u
  (∀ (s t : State) (slot : SlotId) (p : Packet), s.serving slot.val 0x31 nonceRead = some (p, t) →
    (attestMode 0 p.flags = true → (attestSecret t p.verifier).isSome = true →
      let r := report t p.verifier 0 (cmdData t p 0) []
      r.length ≤ fld (p.p 4) 0 16 →
      exec (.attestPlain slot) s = .next (conclude (endCmd p.slot (okRes r.length) 0 (cmdWrite p.slot (p.p 2) r t)))) ∧
    (attestMode 3 p.flags = true →
      let r := report t p.verifier 3 (cmdData t p 0) (provPair t).1
      exec (.attestProvKey slot) s = .next (conclude (sized p r t (endCmd p.slot (okRes r.length) 0 (cmdWrite p.slot (p.p 2) r t))))) ∧
    (attestMode 1 p.flags = true → p.stage = 0 → (attestSecret t p.verifier).isSome = true → t.anv.drbg = .running →
      (takeParent t mi).isSome = true →
      let seed := drawBytes t 32
      let r := report t p.verifier 1 (cmdData t p 0) (offerPublic seed)
      exec (.attestOffer slot) s = .next (conclude (sized p r (drawn 32 t) (modPacket p.slot
        (fun x => { x with stage := 1, aux := r.length, keep := seed ++ sha384 r }) (cmdWrite p.slot (p.p 2) r (drawn 32 t)))))) ∧
    (attestMode 1 p.flags = true → p.stage ≠ 0 → cmdWriting t p.slot = false → ∀ i, takeParent t mi = some i →
      exec (.attestOffer slot) s = .next (conclude (endCmd p.slot (okRes p.aux) 0 (recordSlot i (drawn 16 (t.modParent i fun k =>
        { st := .offered, kind := .transport, owner := mi, depth := 1, bits := 2, gen := k.gen, use := k.use, key := p.keep.take 32,
          seed := drawBytes t 16, offer := p.keep.drop 32 }))))))) ∧
  (∀ (s t : State) (slot : SlotId) (p : Packet), s.serving slot.val 0x31 respondReads = some (p, t) → attestMode 2 p.flags = true →
    (∀ k, p.stage = 0 → attestSecret t p.verifier = some k → t.anv.drbg = .running → (takeParent t mi).isSome = true →
      let ra := cmdData t p 1
      let b := drawBytes t 64
      let ek := bytesAt ra 288 1184
      let z := x25519 (b.take 32) (bytesAt ra 256 32)
      let c := kemEncaps kem768 ek (b.drop 32)
      let r := report t p.verifier 2 ((sha384 ra).take 32) (x25519 (b.take 32) x25519Base ++ c.2)
      exec (.attestRespond slot) s = .next (conclude (peer p (peerCheck k ra 1 1216 (cmdData t p 0)) t
        (if allZero z || !kemEkOk kem768 ek then failCmd p.slot (res 1 6) t
         else sized p r (drawn 64 t) (modPacket p.slot (fun x =>
          { x with stage := 1, aux := r.length, keep := transportKey z c.1 (sha384 ra) (sha384 r) }) (cmdWrite p.slot (p.p 2) r (drawn 64 t))))))) ∧
    (∀ i, p.stage ≠ 0 → cmdWriting t p.slot = false → takeParent t mi = some i →
      let u := recordSlot i (installParent i { kind := .transport, owner := mi, depth := 1, bits := 2, key := p.keep } t)
      exec (.attestRespond slot) s = .next (conclude (endCmd p.slot (okRes p.aux) (parentHandle u i) u)))) ∧
  (∀ (s t : State) (slot : SlotId) (p : Packet) (k : List Byte), s.serving slot.val 0x31 (fun p => [(p.p 3, 1408)]) = some (p, t) →
    attestMode 4 p.flags = true → offerCheck t (p.p 1) = none → attestSecret t p.verifier = some k →
    let i := hIndex (p.p 1)
    let rb := cmdData t p 0
    let e := offerKeys (t.parent i).key
    let z := x25519 e.1 (bytesAt rb 256 32)
    let y := kemDecaps kem768 (kemGen kem768 e.2.1 e.2.2).2 (bytesAt rb 288 1088)
    let u := recordSlot i (installParent i { kind := .transport, owner := mi, depth := 1, bits := 2,
                                             key := transportKey z y (t.parent i).offer (sha384 rb) } t)
    exec (.attestFinish slot) s = .next (conclude (match peerCheck k rb 2 1120 ((t.parent i).offer.take 32) with
      | some r => failCmd p.slot r (recordSlot i (freeSlot i t))
      | none => if allZero z then failCmd p.slot (res 1 6) (recordSlot i (freeSlot i t)) else endCmd p.slot okRes (parentHandle u i) u)))

/-- R448, R449, R471 to R474, R476, R477, for the packet that is served. TAMPER_CFG and CALIBRATE put their records in force; with the
LEDGER option, and with LEDGER_WRITE of a configuration, the next copy is written. A checkpoint copies the counters. VAULT_ROTATE takes
the next generation and starts the sweep. IMAGE_STAGE of a signed image whose measurement and SVN pass puts it into the inactive slot;
IMAGE_COMMIT and IMAGE_ROLLBACK make the inactive image active, and Yuham restarts or the microcode rotates. A signature that fails is
SIGNATURE. -/
def Obligations.LedgerCommands : Prop :=
  let next := fun (p : Packet) (t : State) => modPacket p.slot (fun x => { x with committed := true, waits := true, stage := 1 }) t
  (∀ (s t : State) (slot : SlotId) (p : Packet), s.serving slot.val 0x30 (fun p => [(p.p 0, 144)]) = some (p, t) →
    let b := cmdData t p 0
    let body := mergedBody t 2 b
    let u := (applyTamper b t).modTam fun x => { x with locked := x.locked || bit p.flags 0 }
    tamperOk b = true → t.tam.locked = false →
    (bit p.flags 1 = false → exec (.tamperCfg slot) s = .next (conclude (endCmd p.slot okRes 0 u))) ∧
    (bit p.flags 1 = true → ledgerFull t body = false → exec (.tamperCfg slot) s = .next (conclude (writeConfig p.slot body u)))) ∧
  (∀ (s t : State) (slot : SlotId) (p : Packet), s.serving slot.val 0x48 (fun p => [(p.p 0, p.p 1)]) = some (p, t) →
    let b := cmdData t p 0
    let body := mergedBody t 3 (mergedCalib t b)
    calibOk b = true →
    (bit p.flags 0 = false → exec (.calibrate slot) s = .next (conclude (endCmd p.slot okRes 0 (applyCalib b t)))) ∧
    (bit p.flags 0 = true → ledgerFull t body = false →
      exec (.calibrate slot) s = .next (conclude (writeConfig p.slot body (applyCalib b t))))) ∧
  (∀ (s t : State) (slot : SlotId) (p : Packet), s.serving slot.val 0x50 configRead = some (p, t) → ledgerItem 0 p.flags = true →
    let img := cmdData t p 0
    p.reads ≠ [] → headerOk img = true → leAt img 32 4 = copyCrc img 0 → (goodRecords img).isSome = true → headerReserved img = false →
    t.ldg.seq < 0xFFFFFFFF → exec (.ledgerWriteConfig slot) s = .next (conclude (writeConfig p.slot (img.drop 64) t))) ∧
  (∀ (slot : Nat) (body : List Byte) (t : State), readBack t = true → writeConfig slot body t
    = endCmd slot (okRes (t.ldg.seq + 1)) 0 (putInactive (makeCopy t (t.ldg.seq + 1) body) (eraseFor (makeCopy t (t.ldg.seq + 1) body).length (drawn 1 t)))) ∧
  (∀ (s t : State) (slot : SlotId) (p : Packet), s.serving slot.val 0x50 noReads = some (p, t) →
    (ledgerItem 2 p.flags = true →
      exec (.ledgerWriteCheckpoint slot) s = .next (conclude (endCmd p.slot okRes 0 (checkpoint t)))) ∧
    (ledgerItem 1 p.flags = true → t.ldg.reseal = false →
      let g := (t.ldg.vkeyGen + 1) % 2 ^ 32
      exec (.vaultRotate slot) s = .next (conclude (endCmd p.slot (okRes g) 0 (logEvent 6 6 (g * 2 ^ 32)
        (deriveVault ((t.modLdg fun l => { l with vkeyGen := g, cursor := 0, reseal := true }).modVault fun v =>
          { v with sweep := 0, resealRids := none }))))))) ∧
  (∀ (s t : State) (slot : SlotId) (p : Packet), s.serving slot.val 0x38 imageRead = some (p, t) →
    let img := cmdData t p 0
    let k := leAt img 0 2 - 1
    let digest := sha384 (img.drop 3584)
    let u := putMeas 3 digest t
    p.reads ≠ [] → imageShapeOk img = true → leAt img 9 3 = 0 → allZero (bytesAt img 3469 115) = true →
    exec (.imageStage slot) s = .next (beginStage (livePacket s slot.val 0x38).isNone (conclude
      (if imageSigned img then
        if digest == bytesAt img 16 48 then
          if minSvn u k ≤ leAt img 8 1 then
            if readBack u then
              endCmd p.slot (okRes (leAt img 4 4)) (leAt img 8 1) (putImage k (!imageActive u k)
                { usable := true, version := leAt img 4 4, svn := leAt img 8 1, digest := digest, staged := true } (eraseFor img.length (drawn 1 u)))
            else failCmd p.slot timeoutRes (ledgerFail (putImage k (!imageActive u k) {} (eraseFor img.length (drawn 1 u))))
          else failCmd p.slot modeBad u
        else failCmd p.slot (res 1 5) u
      else failCmd p.slot (res 1 5) t)))) ∧
  (∀ (s t : State) (slot : SlotId) (p : Packet) (back : Bool),
    s.serving slot.val (if back then 0x3A else 0x39) noReads = some (p, t) → p.stage = 0 →
    let k := b2n (bit p.flags 0)
    let raise := !back && bit p.flags 1
    let i : Instr := if back then .imageRollback slot else .imageCommit slot
    canFlip t k back = true →
    (bit p.flags 0 = false → exec i s = .next (conclude (restartYuham ((next p (flipImage 0 t)).modOry fun o =>
      { o with commit := some (p.slot, raise) })))) ∧
    (bit p.flags 0 = true → (freeSpare t).isSome = true → exec i s = .next (conclude ((next p (flipImage 1 t)).modFab fun b =>
      { b with rotation := some { version := (spareImage t 1).version, raise := raise, svn := (spareImage t 1).svn, slot := p.slot } }))))

/-- R225, R226, R425, R426, R479 to R481, for the packet that is served. FORGE_RETIRE drains an ACTIVE Forge and wakes a GATED one first;
FORGE_RESTORE starts the restoration of a RETIRED or FAILED one, and is OK on one that serves. DIRTY_SWAP switches the active bitmap at
once and completes, with the one that was active, once no earlier write is out. CLOCK_SET sets the calendar with CAL, permits a leap with
STEP, and writes a calendar checkpoint. FENCE waits while an earlier data-plane write is out, then flushes and logs itself.
LOG_READ writes up to P2 entries from SEQ P0 on. -/
def Obligations.UpkeepCommands : Prop :=
  let wait := fun (p : Packet) (m : Nat) (t : State) =>
    modPacket p.slot (fun x => { x with committed := true, waits := true, stage := 1 }) (t.modForge m fun f => { f with cmd := some p.slot })
  (∀ (s t : State) (slot : SlotId) (p : Packet), s.serving slot.val 0x40 noReads = some (p, t) → p.stage = 0 →
    let m := p.p 0
    ((t.forge m).st = .active → (t.forge m).failing = false → lastForge t m = false →
      exec (.forgeRetire slot) s = .next (conclude (startRetire m (wait p m t)))) ∧
    ((t.forge m).st = .gated →
      exec (.forgeRetire slot) s = .next (conclude (wakeForge (t.forge m).logical (wait p m t))))) ∧
  (∀ (s t : State) (slot : SlotId) (p : Packet), s.serving slot.val 0x41 noReads = some (p, t) → p.stage = 0 →
    let m := p.p 0
    ((t.forge m).st = .retired ∨ (t.forge m).st = .failed →
      exec (.forgeRestore slot) s = .next (conclude (startRestore m (wait p m t)))) ∧
    ((t.forge m).st = .retiring →
      exec (.forgeRestore slot) s = .next (conclude ((wait p m t).modForge m fun f => { f with pend := true }))) ∧
    ((t.forge m).st = .active → exec (.forgeRestore slot) s = .next (conclude (endCmd p.slot okRes 0 t)))) ∧
  (∀ (s t : State) (slot : SlotId) (p : Packet), s.serving slot.val 0x58 noReads = some (p, t) →
    let n := p.p 0
    let v := t.inst n
    (p.stage = 0 → v.st ≠ .unused → v.dlEn = true → v.dlFault = false → exec (.dirtySwap slot) s = .next (conclude
      (modPacket p.slot (fun x => { x with stage := 1, committed := true, waits := true, marks := swapMarks t n, aux := b2n v.dlActive })
        (t.modInst n fun x => { x with dlActive := !x.dlActive, dlSet := [] })))) ∧
    (p.stage ≠ 0 → v.dlFault = false → marksOut t p.marks = false →
      exec (.dirtySwap slot) s = .next (conclude (endCmd p.slot (okRes p.aux) 0 t)))) ∧
  (∀ (s t : State) (slot : SlotId) (p : Packet), s.serving slot.val 0x60 noReads = some (p, t) →
    let u := t.modVigil fun v => { v with sec := (p.p 0 * 1000000000 + p.p 1) / 1000000000,
                                          frac := (p.p 0 * 1000000000 + p.p 1) % 1000000000 * 32768 / 1000000000 }
    let leap := fun (x : State) => if bit p.flags 1 then x.modTime fun c => { c with leap := some (p.p 0) } else x
    (bit p.flags 0 = true → exec (.clockSetCal slot) s = .next (conclude (endCmd p.slot okRes 0 (calCheckpoint (leap u))))) ∧
    (bit p.flags 0 = false → exec (.clockSetStep slot) s = .next (conclude (endCmd p.slot okRes 0 (calCheckpoint (leap t)))))) ∧
  (∀ (s t : State) (slot : SlotId) (p : Packet), s.serving slot.val 0x68 noReads = some (p, t) → p.stage = 0 →
    let n := p.p 0
    let u := modPacket p.slot (fun x => { x with stage := 1, waits := true, marks := fenceMarks t n }) t
    let v := checkpoint (if u.ory.evtBuf = [] ∧ u.ory.evtLost = 0 then u else drainEvents u)
    (marksOut u (fenceMarks t n) = true → exec (.fence slot) s = .next (conclude u)) ∧
    (marksOut u (fenceMarks t n) = false → exec (.fence slot) s = .next (conclude (endCmd p.slot (okRes v.ldg.nextSeq) 0 (logEvent 8 0 n v))))) ∧
  (∀ (s t : State) (slot : SlotId) (p : Packet) (a b : LogEnt), s.serving slot.val 0x70 noReads = some (p, t) →
    t.ldg.log.head? = some a → t.ldg.log.getLast? = some b →
    let out := (t.ldg.log.filter fun e => p.p 0 ≤ e.seq).take (p.p 2)
    exec (.logRead slot) s = .next (conclude (endCmd p.slot (okRes out.length) (a.seq + b.seq * 2 ^ 32)
      (cmdWrite p.slot (p.p 1) (out.flatMap logBytes) t))))

/-- R460, R461: an entry at the head of the control ring's cache that may start, on an attached port and with its command not held, is
taken into the reorder buffer as a packet. Where its check fails the packet has that outcome and the step does nothing more; where
it passes and its memory is to be read first, the reads are queued and the packet waits for them; with those of IMAGE_STAGE measurement 3
begins (R319). -/
def Obligations.PacketStart : Prop :=
  ∀ (s : State) (slot : SlotId) (e : Entry) (x : (SlotId → Instr) × Nat × (Packet → List (Nat × Nat)) × (State → State)),
    x ∈ [(Instr.instCreate, 0x01, descRead, fun t => t), (Instr.instResize, 0x02, descRead, fun t => t),
         (Instr.keyDerive, 0x20, deriveRead, fun t => t), (Instr.calibrate, 0x48, (fun p => [(p.p 0, p.p 1)]), fun t => t),
         (Instr.imageStage, 0x38, imageRead, beginStage true)] →
    cmdOn s = true → cmdHeld s x.2.1 = false → livePacket s slot.val x.2.1 = none → cmdHead s slot.val x.2.1 = some e →
    cmdMayStart s e = true → s.port.att = .attached →
    let t := startCmd e x.2.2.1 s
    (∀ r, cmdCheck s e = some r → exec (x.1 slot) s = .next (x.2.2.2 (conclude t)) ∧
      t = (takeCmd e s).modOry fun o => { o with packets := o.packets ++ [{ packetOf e with res := some r }] }) ∧
    (cmdCheck s e = none → ∀ q, livePacket t slot.val x.2.1 = some q → cmdReads t q = .wait →
      exec (x.1 slot) s = .next (x.2.2.2 (conclude t)))

/-- R85, R447, R453, R455, R486, R487, R489: the rise and the fall of main power, the loss of both supplies, the crystal's stop and return,
and the end of the start-up, in every state. Where main power is present already, or gone already, its rise or fall changes nothing;
both supplies cannot be lost while main power is present. The rise runs the steps of R486 in their order: the boot counted, the
fuses, pipes, units and banks, the DRBG, the derived keys, the Ledger's copies and their measurement, Yuham, the microcode and the
Forges, the instance of Orrery, the configuration, the event log, the calendar, and Orrery. -/
def Obligations.PowerFormsComplete : Prop :=
  (∀ s : State, powered s = true →
    (∃ t, exec .mainPgFall s = .next t ∧ powered t = false ∧ t.modes.mode = .vigil ∧ t.modes.stage = State.reset.modes.stage ∧
      t.life = s.life ∧ t.silver = s.silver ∧ t.jobs = [] ∧ t.rings = [] ∧ t.insts = [] ∧ t.ctx = []) ∧
    (∀ rep, exec (.mainPgRise rep) s = .next s) ∧ exec .bothSuppliesLost s = .next s) ∧
  (∀ (s : State) (rep : BootReport), powered s = false →
    let s0 := bootPins rep ((s.modTam fun t => { t with
      src := tmap (s.vigil.src.map fun p => (p.1, ({ ready := p.2.ready } : Src))) {} fun _ x => x }).modVigil fun v => { v with src := [] })
    let s1 := (countBoot (enterMode .boot s0)).modModes fun m => { m with stage := .awaitAttach }
    let s2 := bootBanks rep.banks (bootUnits rep.units (bootPipes rep.pipes (if rep.fusesOk then s1 else occurrence 13 s1)))
    let s3 := measureCopy (selectCopy (bootKeys rep.silverOk (bootDrbg s2)))
    let s4 := bootForges rep.forges (bootMicrocode (bootYuham s3))
    exec (.mainPgRise rep) s = .next (bootOrrery (bootCalendar (bootLog (bootConfig (s4.setInst mi miFromBoot))))) ∧
    exec .mainPgFall s = .next s ∧
    (∃ t, exec .bothSuppliesLost s = .next t ∧ t.vigil = { State.reset.vigil with retainLost := true, calGone := true, calLost := s.vigil.calLost } ∧
      t.life = s.life ∧ t.silver = s.silver ∧ t.ldg = s.ldg ∧ t.modes = s.modes)) ∧
  (∀ (s : State) (rep : BootReport),
    (s.modes.mode ≠ .boot ∨ s.modes.stage = .finished → exec (.startUpComplete rep) s = .next s) ∧
    (s.modes.mode = .boot → s.modes.stage = .awaitAttach → s.modes.halted = true → exec (.startUpComplete rep) s = .next s) ∧
    (s.modes.mode = .boot → s.modes.stage = .awaitAttach → s.modes.halted = false →
      exec (.startUpComplete rep) s = .next (conclude (reformatRings (selectMode (bootAttach rep.attach s))))) ∧
    (s.modes.mode = .boot → s.modes.stage = .atStart →
      let u := bootRun rep (bootPins rep s)
      (u.modes.halted = true ∨ u.modes.mode ≠ .boot → exec (.startUpComplete rep) s = .next u) ∧
      (u.modes.halted = false → u.modes.mode = .boot →
        exec (.startUpComplete rep) s = .next (conclude (reformatRings (selectMode (bootAttach rep.attach u))))))) ∧
  (∀ s : State, ∃ t, exec .xtalStop s = .next t ∧ t = { s with vigil := { s.vigil with xtalLost := true } }) ∧
  (∀ s : State, ∃ t, exec .xtalReturn s = .next t ∧ t = { s with vigil := { s.vigil with xtalLost := false } })

/-- R94 to R96, R131 to R134, R524, in every case. A write of RING_CTL acts on the notification ring that the page's window selects, and
on none where it selects none; FAULT, CFG_ERR and NR_OVF are cleared by a 1, and VEC, IRQ_EN and HOLDOFF are taken. ENABLE on a
DISABLED ring of SIZE 10 or below enables it at record 0 and decides the records owed; above it sets CFG_ERR. ENABLE = 0 on an ENABLED
ring disables it, its read dropped, where no ENABLED or STOPPING ring is bound; else it sets CFG_ERR. A clear of NR_OVF resumes the
records. The read before a record is served once it is complete, read again after one bad Integrity Code, and a fault after a second
or after a failed translation. The end of a holdoff sends what it owes, or ends it. -/
def Obligations.NotificationFormsComplete : Prop :=
  (∀ (s : State) (page : InstId) (v : RapWord), s.takes (pageBase page.val + 0x2C) v = true →
    (winNr s page.val = none →
      exec (.nrEnable page v) s = .next (s.answered .rap) ∧ exec (.nrDisable page v) s = .next (s.answered .rap) ∧
      exec (.nrOvfClear page v) s = .next (s.answered .rap)) ∧
    (∀ k, winNr s page.val = some k →
      (bit v.toNat 0 = true → ∃ t, exec (.nrEnable page v) s = .next t ∧ t = conclude (nrCtl k v.toNat (s.answered .rap))) ∧
      (bit v.toNat 0 = false → ∃ t, exec (.nrDisable page v) s = .next t ∧ t = conclude (nrCtl k v.toNat (s.answered .rap))) ∧
      (bit v.toNat 7 = true → ∃ t, exec (.nrOvfClear page v) s = .next t ∧ t = conclude (nrCtl k v.toNat (s.answered .rap))))) ∧
  (∀ (s : State) (k v : Nat),
    let u := s.modNr k fun r =>
      { r with fault := r.fault && !bit v 5, cfgErr := r.cfgErr && !bit v 6, ovf := r.ovf && !bit v 7, vec := fld v 8 3,
               irqEn := bit v 11, holdoff := fld v 12 8 }
    let w :=
      if bit v 0 then
        (if (s.nr k).enabled then u
         else if 10 < (s.nr k).size then u.modNr k fun x => { x with cfgErr := true }
         else resumeNotes k (u.modNr k fun x => { x with enabled := true, scan := 0, half := false, ovf := false }))
      else
        (if !(s.nr k).enabled then u
         else if nrBound s k then u.modNr k fun x => { x with cfgErr := true }
         else (unwriteRecs k (match (s.nr k).rdId with
            | some id => dropBuf id u
            | none => u)).modNr k fun x => { x with enabled := false, rdId := none, retry := false })
    nrCtl k v s = if (s.nr k).ovf && bit v 7 then resumeNotes k w else w) ∧
  (∀ (s : State) (k : NrId),
    ((s.nr k.val).rdId.bind s.buf? = none → exec (.notificationRecord k) s = .next s) ∧
    (∀ b, (s.nr k.val).rdId.bind s.buf? = some b →
      let u := dropBuf b.id (s.modNr k.val fun x => { x with rdId := none, retry := false })
      (b.res = .pending → exec (.notificationRecord k) s = .next s) ∧
      (b.res = .ok → ∃ t, exec (.notificationRecord k) s = .next t ∧ t = conclude (nrServe (u.nr k.val).rdFor k.val b.data u)) ∧
      (b.res = .ic → (s.nr k.val).retry = false →
        ∃ t, exec (.notificationRecord k) s = .next t ∧ t = conclude (nrRead k.val (u.modNr k.val fun x => { x with retry := true }))) ∧
      ((b.res = .ic ∧ (s.nr k.val).retry = true) ∨ (∃ c x y, b.res = .xlate c x y) →
        ∃ t, exec (.notificationRecord k) s = .next t ∧ t = conclude ((unwriteRecs k.val u).modNr k.val fun x =>
          { x with fault := true, enabled := false, rdId := none, retry := false })))) ∧
  (∀ (s : State) (k : NrId),
    (∀ v dp, (s.nr k.val).owed = some (v, dp) → ∃ t, exec (.interruptHoldoffExpiry k) s = .next t ∧
      t = conclude (sendVector (nrInst s k.val) v dp (s.modNr k.val fun x => { x with sent := some (now s), owed := none }))) ∧
    ((s.nr k.val).owed = none → ∃ t, exec (.interruptHoldoffExpiry k) s = .next t ∧ t = s.modNr k.val fun x => { x with sent := none }))

/-- R282, R283, R288 to R290, R292, R293, in every case. A lookup whose bucket has been read is decided, read again at most five times
while the bucket is locked, or failed with the status of its read. An event's record goes into a slot whose VALID is clear and the
event is dropped where it is not; the first of R292's memory ages out; the holdoff's end sends one interrupt that is owed. A write of
SIT_CTL acts on the table of its page, and a stopping table with nothing in flight is DISABLED, an enable that waits then applied. -/
def Obligations.SitFormsComplete : Prop :=
  (∀ (s : State) (id : Nat),
    (s.sit.lookups.find? (fun l => decide (l.id = id) && !l.again) = none → exec (.sitLookup id) s = .next s) ∧
    (s.sit.lookups.find? (fun l => decide (l.id = id) && l.again) = none → exec (.sitLockRetry id) s = .next s)) ∧
  (∀ (s : State) (id : Nat) (l : Lookup), s.sit.lookups.find? (fun l => decide (l.id = id) && !l.again) = some l →
    (s.buf? l.rid = none → exec (.sitLookup id) s = .next s) ∧
    (∀ b, s.buf? l.rid = some b →
      let u := dropBuf b.id (s.modSit fun t => { t with lookups := t.lookups.filter fun x => x.id != id })
      (b.res = .pending → exec (.sitLookup id) s = .next s) ∧
      (b.res ≠ .pending → frameInst s l.port l.frame = none → exec (.sitLookup id) s = .next u) ∧
      (∀ i, frameInst s l.port l.frame = some i →
        (b.res = .ic → ∃ t, exec (.sitLookup id) s = .next t ∧ t = conclude (failFrame l.port l.frame icError u)) ∧
        (∀ c x y, b.res = .xlate c x y →
          ∃ t, exec (.sitLookup id) s = .next t ∧ t = conclude (failFrame l.port l.frame (res 9 c) u)) ∧
        (b.res = .ok → ∃ t, exec (.sitLookup id) s = .next t ∧ t =
          if !bit (leAt b.data 0 4) 28 then conclude (sitDecide i l b.data u)
          else if l.reads < 5 then u.modSit fun t => { t with lookups := t.lookups ++ [{ l with again := true }] }
          else conclude (failFrame l.port l.frame (res 0x15 0) u))))) ∧
  (∀ (s : State) (id : Nat) (l : Lookup), s.sit.lookups.find? (fun l => decide (l.id = id) && l.again) = some l →
    let u := s.modSit fun t => { t with lookups := t.lookups.filter fun x => x.id != id }
    ∃ t, exec (.sitLockRetry id) s = .next t ∧ t = match frameInst s l.port l.frame with
      | none => u
      | some i => conclude (sitRead i { l with reads := l.reads + 1, stamped := [] } u)) ∧
  (∀ (s : State) (vi : ViId),
    let i := vi.val
    let x := (s.inst i).sit
    (x.wr ≠ none → ∃ t, exec (.sitEventWrite vi) s = .next t ∧ t = conclude (sitWritten i s)) ∧
    (x.wr = none → (x.rdId.bind s.buf? = none ∨ x.events = []) → exec (.sitEventWrite vi) s = .next s) ∧
    (x.wr = none → ∀ b e rest, x.rdId.bind s.buf? = some b → x.events = e :: rest →
      let u := dropBuf b.id (s.modTable i fun x => { x with rdId := none })
      (b.res = .pending → exec (.sitEventWrite vi) s = .next s) ∧
      (b.res = .ok → bit (leAt b.data 15 1) 7 = false →
        ∃ t, exec (.sitEventWrite vi) s = .next t ∧ t = conclude (sitWritten i (conclude (sitWrite i e u)))) ∧
      (b.res ≠ .pending → (b.res ≠ .ok ∨ bit (leAt b.data 15 1) 7 = true) →
        ∃ t, exec (.sitEventWrite vi) s = .next t ∧ t = conclude (sitDrop i u)))) ∧
  (∀ s : State, ∃ t, exec .sitEventMemoryExpiry s = .next t ∧ t = { s with sit := { s.sit with mem := s.sit.mem.drop 1 } }) ∧
  (∀ (s : State) (vi : ViId),
    let i := vi.val
    let u := s.modTable i fun x => { x with holding := false, owed := none }
    ((s.inst i).sit.holding = false → exec (.sitInterruptHoldoff vi) s = .next s) ∧
    ((s.inst i).sit.holding = true → (s.inst i).sit.owed = none → ∃ t, exec (.sitInterruptHoldoff vi) s = .next t ∧ t = u) ∧
    (∀ v, (s.inst i).sit.holding = true → (s.inst i).sit.owed = some v → ∃ t, exec (.sitInterruptHoldoff vi) s = .next t ∧
      t = conclude (sendVector i v true (u.modTable i fun x => { x with holding := true, owed := none })))) ∧
  (∀ (s : State) (vi : ViId) (v : RapWord), s.takes (pageBase vi.val + 0x4C) v = true →
    (bit v.toNat 0 = true → ∃ t, exec (.sitEnable vi v) s = .next t ∧ t = sitCtl vi.val v.toNat (s.answered .rap)) ∧
    (bit v.toNat 0 = false → ∃ t, exec (.sitStop vi v) s = .next t ∧ t = sitCtl vi.val v.toNat (s.answered .rap))) ∧
  (∀ (s : State) (vi : ViId),
    let off := s.modTable vi.val fun t => { t with st := .disabled }
    (sitBusy s vi.val = true ∨ (s.inst vi.val).sit.st = .disabled ∨ (s.inst vi.val).sit.st = .enabled →
      exec (.sitStopComplete vi) s = .next s) ∧
    (sitBusy s vi.val = false → (s.inst vi.val).sit.st = .stopping →
      ∃ t, exec (.sitStopComplete vi) s = .next t ∧ t = off) ∧
    (sitBusy s vi.val = false → (s.inst vi.val).sit.st = .pendingEnable →
      ∃ t, exec (.sitStopComplete vi) s = .next t ∧ t = sitApply vi.val off))

/-- R135. An enable of a submission ring, at once by a write of RING_CTL or at the end of the stop it waited for, leaves the ring DISABLED with
CFG_ERR where it would bind to a notification ring that is not ENABLED or not of its own instance; where the ring comes out of the
enable ENABLED and bound, that notification ring is ENABLED and of the ring's instance. ENABLE = 0 on an ENABLED notification ring to
which an ENABLED or STOPPING submission ring is bound leaves the notification ring ENABLED and the bound ring bound, and CFG_ERR is
set. -/
def Obligations.BindingOfRings : Prop :=
  let barred := fun (s : State) (n : Nat) => (s.ring n).nrEn = true ∧
    (nrOwner s (s.ring n).nrn ≠ ringOwner s n ∨ (s.nr (s.ring n).nrn).enabled = false)
  (∀ (s : State) (n : Nat),
    (barred s n → applyEnable n s = s.modRing n fun r => { r with st := .disabled, cfgErr := true }) ∧
    (∀ r, (applyEnable n s).ring n = r → r.st = .enabled → r.nrEn = true →
      nrOwner s r.nrn = ringOwner s n ∧ (s.nr r.nrn).enabled = true)) ∧
  (∀ (s : State) (page : InstId) (v : RapWord) (n : Nat), s.takes (pageBase page.val + 0x2C) v = true → winRing s page.val = some n →
    let t := ringConfig n v.toNat ((s.answered .rap).modRing n fun r =>
      { r with fault := r.fault && !bit v.toNat 5, cfgErr := r.cfgErr && !bit v.toNat 6 })
    bit v.toNat 0 = true → (s.ring n).st = .disabled → enableHeld t n = false → barred t n →
    exec (.ringEnable page v) s = .next (conclude (t.modRing n fun r => { r with st := .disabled, cfgErr := true }))) ∧
  (∀ (s : State) (n : RingId), ringQuiet s n.val = true → (s.ring n.val).st = .pendingEnable →
    let r := s.ring n.val
    let t := endNote n.val ((writeDoneHead n.val s).modRing n.val fun x => { x with
      st := .disabled, endFlags := 0, chained := false, flags := if x.nrEn then x.flags ||| x.endFlags else x.flags })
    barred t n.val →
    exec (.ringStopComplete n) s = .next (conclude (t.modRing n.val fun r => { r with st := .disabled, cfgErr := true }))) ∧
  (∀ (s : State) (page : InstId) (v : RapWord) (k n : Nat), s.takes (pageBase page.val + 0x2C) v = true → winNr s page.val = some k →
    bit v.toNat 0 = false → (s.nr k).enabled = true → (s.nr k).ovf = false →
    (n, s.ring n) ∈ s.rings → ((s.ring n).st = .enabled ∨ (s.ring n).st = .stopping) → (s.ring n).nrEn = true → (s.ring n).nrn = k →
    ∃ t, exec (.nrDisable page v) s = .next (conclude t) ∧ (t.nr k).enabled = true ∧ (t.nr k).cfgErr = true ∧ t.ring n = s.ring n)

/-- Every command of the table, with every operand and in every state, answers a next state; none ends in a fault or a refusal. The
specification gives each an effect, and where it leaves a value open the command goes on with a free value. -/
def Obligations.NoCommandStops : Prop := ∀ (c : Instr) (s : State), ∃ t, exec c s = .next t
end

