-- ==== Sys2Proof/Laws/Tables.lean ====
section
/-! SUPPORT. The sparse tables: what reads back after a write, and the canonical form that every write keeps. -/

namespace Sys2Proof.Machine

set_option linter.unusedSectionVars false

variable {α : Type} [DecidableEq α]

/-! ### Reading back -/

theorem tget_tdel_self (t : Tbl α) (d : α) (k : Nat) : tget (tdel t k) d k = d := by
  induction t with
  | nil => rfl
  | cons p r ih =>
    obtain ⟨j, v⟩ := p
    by_cases h : j = k <;> simp [tdel, tget, h, ih]

theorem tget_tdel_other (t : Tbl α) (d : α) {k i : Nat} (h : i ≠ k) : tget (tdel t k) d i = tget t d i := by
  induction t with
  | nil => rfl
  | cons p r ih =>
    obtain ⟨j, v⟩ := p
    by_cases hj : j = k
    · subst hj
      simp [tdel, tget, ih, h.symm]
    · by_cases hi : j = i
      · subst hi
        simp [tdel, tget, h]
      · simp [tdel, tget, hj, hi, ih]

theorem tget_tput_self (t : Tbl α) (d : α) (k : Nat) (v : α) : tget (tput t k v) d k = v := by
  induction t with
  | nil => simp [tput, tget]
  | cons p r ih =>
    obtain ⟨j, w⟩ := p
    by_cases h : j = k
    · simp [tput, tget, h]
    · by_cases h2 : k < j <;> simp [tput, tget, h, h2, ih]

theorem tget_tput_other (t : Tbl α) (d : α) {k i : Nat} (v : α) (h : i ≠ k) : tget (tput t k v) d i = tget t d i := by
  induction t with
  | nil => simp [tput, tget, h.symm]
  | cons p r ih =>
    obtain ⟨j, w⟩ := p
    by_cases hj : j = k
    · subst hj
      simp [tput, tget, h.symm]
    · by_cases h2 : k < j
      · simp [tput, tget, hj, h2, h.symm]
      · by_cases hi : j = i
        · subst hi
          simp [tput, tget, h, h2]
        · simp [tput, tget, hj, h2, hi, ih]

/-- The entry just written reads back. -/
@[simp] theorem tget_tset_self (t : Tbl α) (d : α) (k : Nat) (v : α) : tget (tset t d k v) d k = v := by
  unfold tset
  split
  · next h => rw [tget_tdel_self, h]
  · exact tget_tput_self t d k v

/-- Every other entry reads as before. -/
theorem tget_tset_other (t : Tbl α) (d : α) {k i : Nat} (v : α) (h : i ≠ k) : tget (tset t d k v) d i = tget t d i := by
  unfold tset
  split
  · exact tget_tdel_other t d h
  · exact tget_tput_other t d v h

/-- A changed entry reads as changed. -/
@[simp] theorem tget_tmod_self (t : Tbl α) (d : α) (k : Nat) (f : α → α) : tget (tmod t d k f) d k = f (tget t d k) := by
  simp [tmod]

/-- A change of one entry leaves the others. -/
theorem tget_tmod_other (t : Tbl α) (d : α) {k i : Nat} (f : α → α) (h : i ≠ k) : tget (tmod t d k f) d i = tget t d i := by
  simp [tmod, tget_tset_other t d _ h]

/-! ### The canonical form -/

/-- Every key of the table is above `k`. -/
def tabove {β : Type} (t : Tbl β) (k : Nat) : Prop := ∀ p ∈ t, k < p.1

theorem twf_cons (d : α) (j : Nat) (v : α) (r : Tbl α) :
    twf ((j, v) :: r) d = true ↔ v ≠ d ∧ tabove r j ∧ twf r d = true := by
  induction r generalizing j v with
  | nil => simp [twf, tabove]
  | cons p q ih =>
    obtain ⟨k, w⟩ := p
    simp only [twf, Bool.and_eq_true, decide_eq_true_eq, ih k w, tabove, List.mem_cons, forall_eq_or_imp]
    constructor
    · rintro ⟨⟨h1, h2⟩, h3, h4, h5⟩
      exact ⟨h2, ⟨h1, fun p hp => Nat.lt_trans h1 (h4 p hp)⟩, h3, h4, h5⟩
    · rintro ⟨h2, ⟨h1, _⟩, h3, h4, h5⟩
      exact ⟨⟨h1, h2⟩, h3, h4, h5⟩

theorem tabove_tdel {t : Tbl α} {j : Nat} (h : tabove t j) (k : Nat) : tabove (tdel t k) j := by
  induction t with
  | nil => exact h
  | cons p r ih =>
    have hr : tabove r j := fun q hq => h q (List.mem_cons_of_mem _ hq)
    by_cases hk : p.1 = k
    · simpa [tdel, hk] using ih hr
    · intro q hq
      simp only [tdel, hk, if_false, List.mem_cons] at hq
      rcases hq with rfl | hq
      · exact h _ List.mem_cons_self
      · exact ih hr q hq

theorem tabove_tput {t : Tbl α} {j : Nat} (h : tabove t j) {k : Nat} (hk : j < k) (v : α) : tabove (tput t k v) j := by
  induction t with
  | nil => simpa [tput, tabove] using hk
  | cons p r ih =>
    have hr : tabove r j := fun q hq => h q (List.mem_cons_of_mem _ hq)
    have hp : j < p.1 := h p List.mem_cons_self
    intro q hq
    simp only [tput] at hq
    split at hq
    · rcases List.mem_cons.mp hq with rfl | hq
      · exact hk
      · exact hr q hq
    · split at hq
      · rcases List.mem_cons.mp hq with rfl | hq
        · exact hk
        · rcases List.mem_cons.mp hq with rfl | hq
          · exact hp
          · exact hr q hq
      · rcases List.mem_cons.mp hq with rfl | hq
        · exact hp
        · exact ih hr q hq

theorem twf_tdel {t : Tbl α} {d : α} (h : twf t d = true) (k : Nat) : twf (tdel t k) d = true := by
  induction t with
  | nil => rfl
  | cons p r ih =>
    obtain ⟨j, v⟩ := p
    obtain ⟨h1, h2, h3⟩ := (twf_cons d j v r).mp h
    by_cases hj : j = k
    · simpa [tdel, hj] using ih h3
    · rw [show tdel ((j, v) :: r) k = (j, v) :: tdel r k by simp [tdel, hj]]
      exact (twf_cons d j v _).mpr ⟨h1, tabove_tdel h2 k, ih h3⟩

theorem twf_tput {t : Tbl α} {d : α} (h : twf t d = true) (k : Nat) {v : α} (hv : v ≠ d) : twf (tput t k v) d = true := by
  induction t with
  | nil => simp [tput, twf, hv]
  | cons p r ih =>
    obtain ⟨j, w⟩ := p
    obtain ⟨h1, h2, h3⟩ := (twf_cons d j w r).mp h
    by_cases hj : j = k
    · subst hj
      rw [show tput ((j, w) :: r) j v = (j, v) :: r by simp [tput]]
      exact (twf_cons d j v r).mpr ⟨hv, h2, h3⟩
    · by_cases hk : k < j
      · rw [show tput ((j, w) :: r) k v = (k, v) :: (j, w) :: r by simp [tput, hj, hk]]
        refine (twf_cons d k v _).mpr ⟨hv, ?_, h⟩
        intro q hq
        rcases List.mem_cons.mp hq with rfl | hq
        · exact hk
        · exact Nat.lt_trans hk (h2 q hq)
      · rw [show tput ((j, w) :: r) k v = (j, w) :: tput r k v by simp [tput, hj, hk]]
        exact (twf_cons d j w _).mpr ⟨h1, tabove_tput h2 (by omega) v, ih h3⟩

/-- A write keeps the canonical form. -/
theorem twf_tset {t : Tbl α} {d : α} (h : twf t d = true) (k : Nat) (v : α) : twf (tset t d k v) d = true := by
  unfold tset
  split
  · exact twf_tdel h k
  · next hv => exact twf_tput h k hv

/-- A change of an entry keeps the canonical form. -/
theorem twf_tmod {t : Tbl α} {d : α} (h : twf t d = true) (k : Nat) (f : α → α) : twf (tmod t d k f) d = true :=
  twf_tset h k _

theorem tabove_tmap {t : Tbl α} {j : Nat} (h : tabove t j) (d : α) (f : Nat → α → α) : tabove (tmap t d f) j := by
  intro q hq
  simp only [tmap, List.mem_filter, List.mem_map] at hq
  obtain ⟨⟨p, hp, rfl⟩, _⟩ := hq
  exact h p hp

/-- A change of every entry keeps the canonical form. -/
theorem twf_tmap {t : Tbl α} {d : α} (h : twf t d = true) (f : Nat → α → α) : twf (tmap t d f) d = true := by
  induction t with
  | nil => rfl
  | cons p r ih =>
    obtain ⟨j, v⟩ := p
    obtain ⟨_, h2, h3⟩ := (twf_cons d j v r).mp h
    by_cases hv : f j v = d
    · rw [show tmap ((j, v) :: r) d f = tmap r d f by simp [tmap, hv]]
      exact ih h3
    · rw [show tmap ((j, v) :: r) d f = (j, f j v) :: tmap r d f by simp [tmap, hv]]
      exact (twf_cons d j _ _).mpr ⟨hv, tabove_tmap h2 d f, ih h3⟩

end Sys2Proof.Machine
end

