-- ==== Sys2Proof/Laws/State.lean ====
section
/-! SUPPORT. What each part of the state reads as after an update of that part. -/

namespace Sys2Proof.Machine

@[simp] theorem State.inst_setInst (s : State) (i : Nat) (v : Inst) : (s.setInst i v).inst i = v := by
  simp [State.inst, State.setInst]
@[simp] theorem State.inst_modInst (s : State) (i : Nat) (f : Inst → Inst) : (s.modInst i f).inst i = f (s.inst i) := by
  simp [State.modInst]
@[simp] theorem State.ring_setRing (s : State) (n : Nat) (v : Ring) : (s.setRing n v).ring n = v := by
  simp [State.ring, State.setRing]
@[simp] theorem State.ring_modRing (s : State) (n : Nat) (f : Ring → Ring) : (s.modRing n f).ring n = f (s.ring n) := by
  simp [State.modRing]
@[simp] theorem State.nr_setNr (s : State) (n : Nat) (v : Notif) : (s.setNr n v).nr n = v := by
  simp [State.nr, State.setNr]
@[simp] theorem State.nr_modNr (s : State) (n : Nat) (f : Notif → Notif) : (s.modNr n f).nr n = f (s.nr n) := by
  simp [State.modNr]
@[simp] theorem State.ctxAt_setCtx (s : State) (e : Nat) (c : Ctx) : (s.setCtx e c).ctxAt e = c := by
  simp [State.ctxAt, State.setCtx]
@[simp] theorem State.ctxAt_modCtx (s : State) (e : Nat) (f : Ctx → Ctx) : (s.modCtx e f).ctxAt e = f (s.ctxAt e) := by
  simp [State.modCtx]
@[simp] theorem State.forge_modForge (s : State) (m : Nat) (f : Forge → Forge) : (s.modForge m f).forge m = f (s.forge m) := by
  simp [State.forge, State.modForge, State.modFab]
@[simp] theorem State.lane_modLane (s : State) (n : Nat) (f : Lane → Lane) : (s.modLane n f).lane n = f (s.lane n) := by
  simp [State.lane, State.modLane, State.modFab]
@[simp] theorem State.pol_modPol (s : State) (v p : Nat) (f : Policer → Policer) : (s.modPol v p f).pol v p = f (s.pol v p) := by
  simp [State.pol, State.modPol, State.modStr]

theorem State.inst_setInst_other (s : State) {i j : Nat} (v : Inst) (h : j ≠ i) : (s.setInst i v).inst j = s.inst j :=
  tget_tset_other _ _ _ h
theorem State.inst_modInst_other (s : State) {i j : Nat} (f : Inst → Inst) (h : j ≠ i) : (s.modInst i f).inst j = s.inst j :=
  tget_tset_other _ _ _ h
theorem State.ring_setRing_other (s : State) {n m : Nat} (v : Ring) (h : m ≠ n) : (s.setRing n v).ring m = s.ring m :=
  tget_tset_other _ _ _ h
theorem State.ring_modRing_other (s : State) {n m : Nat} (f : Ring → Ring) (h : m ≠ n) : (s.modRing n f).ring m = s.ring m :=
  tget_tset_other _ _ _ h
theorem State.nr_modNr_other (s : State) {n m : Nat} (f : Notif → Notif) (h : m ≠ n) : (s.modNr n f).nr m = s.nr m :=
  tget_tset_other _ _ _ h


/-! ### modPort -/

@[simp] theorem State.modPort_port (s : State) (f : PortSt → PortSt) : (s.modPort f).port = f s.port := rfl
@[simp] theorem State.modPort_pending (s : State) (f : PortSt → PortSt) : (s.modPort f).pending = s.pending := rfl
@[simp] theorem State.modPort_freeCtr (s : State) (f : PortSt → PortSt) : (s.modPort f).freeCtr = s.freeCtr := rfl
@[simp] theorem State.modPort_life (s : State) (f : PortSt → PortSt) : (s.modPort f).life = s.life := rfl
@[simp] theorem State.modPort_silver (s : State) (f : PortSt → PortSt) : (s.modPort f).silver = s.silver := rfl
@[simp] theorem State.modPort_modes (s : State) (f : PortSt → PortSt) : (s.modPort f).modes = s.modes := rfl
@[simp] theorem State.modPort_glb (s : State) (f : PortSt → PortSt) : (s.modPort f).glb = s.glb := rfl
@[simp] theorem State.modPort_time (s : State) (f : PortSt → PortSt) : (s.modPort f).time = s.time := rfl
@[simp] theorem State.modPort_mem (s : State) (f : PortSt → PortSt) : (s.modPort f).mem = s.mem := rfl
@[simp] theorem State.modPort_rings (s : State) (f : PortSt → PortSt) : (s.modPort f).rings = s.rings := rfl
@[simp] theorem State.modPort_notifs (s : State) (f : PortSt → PortSt) : (s.modPort f).notifs = s.notifs := rfl
@[simp] theorem State.modPort_jobs (s : State) (f : PortSt → PortSt) : (s.modPort f).jobs = s.jobs := rfl
@[simp] theorem State.modPort_fab (s : State) (f : PortSt → PortSt) : (s.modPort f).fab = s.fab := rfl
@[simp] theorem State.modPort_ctx (s : State) (f : PortSt → PortSt) : (s.modPort f).ctx = s.ctx := rfl
@[simp] theorem State.modPort_vault (s : State) (f : PortSt → PortSt) : (s.modPort f).vault = s.vault := rfl
@[simp] theorem State.modPort_dig (s : State) (f : PortSt → PortSt) : (s.modPort f).dig = s.dig := rfl
@[simp] theorem State.modPort_anv (s : State) (f : PortSt → PortSt) : (s.modPort f).anv = s.anv := rfl
@[simp] theorem State.modPort_cruc (s : State) (f : PortSt → PortSt) : (s.modPort f).cruc = s.cruc := rfl
@[simp] theorem State.modPort_str (s : State) (f : PortSt → PortSt) : (s.modPort f).str = s.str := rfl
@[simp] theorem State.modPort_sit (s : State) (f : PortSt → PortSt) : (s.modPort f).sit = s.sit := rfl
@[simp] theorem State.modPort_insts (s : State) (f : PortSt → PortSt) : (s.modPort f).insts = s.insts := rfl
@[simp] theorem State.modPort_tam (s : State) (f : PortSt → PortSt) : (s.modPort f).tam = s.tam := rfl
@[simp] theorem State.modPort_vigil (s : State) (f : PortSt → PortSt) : (s.modPort f).vigil = s.vigil := rfl
@[simp] theorem State.modPort_ory (s : State) (f : PortSt → PortSt) : (s.modPort f).ory = s.ory := rfl
@[simp] theorem State.modPort_ldg (s : State) (f : PortSt → PortSt) : (s.modPort f).ldg = s.ldg := rfl

/-! ### modModes -/

@[simp] theorem State.modModes_modes (s : State) (f : ModeSt → ModeSt) : (s.modModes f).modes = f s.modes := rfl
@[simp] theorem State.modModes_pending (s : State) (f : ModeSt → ModeSt) : (s.modModes f).pending = s.pending := rfl
@[simp] theorem State.modModes_freeCtr (s : State) (f : ModeSt → ModeSt) : (s.modModes f).freeCtr = s.freeCtr := rfl
@[simp] theorem State.modModes_life (s : State) (f : ModeSt → ModeSt) : (s.modModes f).life = s.life := rfl
@[simp] theorem State.modModes_silver (s : State) (f : ModeSt → ModeSt) : (s.modModes f).silver = s.silver := rfl
@[simp] theorem State.modModes_glb (s : State) (f : ModeSt → ModeSt) : (s.modModes f).glb = s.glb := rfl
@[simp] theorem State.modModes_time (s : State) (f : ModeSt → ModeSt) : (s.modModes f).time = s.time := rfl
@[simp] theorem State.modModes_port (s : State) (f : ModeSt → ModeSt) : (s.modModes f).port = s.port := rfl
@[simp] theorem State.modModes_mem (s : State) (f : ModeSt → ModeSt) : (s.modModes f).mem = s.mem := rfl
@[simp] theorem State.modModes_rings (s : State) (f : ModeSt → ModeSt) : (s.modModes f).rings = s.rings := rfl
@[simp] theorem State.modModes_notifs (s : State) (f : ModeSt → ModeSt) : (s.modModes f).notifs = s.notifs := rfl
@[simp] theorem State.modModes_jobs (s : State) (f : ModeSt → ModeSt) : (s.modModes f).jobs = s.jobs := rfl
@[simp] theorem State.modModes_fab (s : State) (f : ModeSt → ModeSt) : (s.modModes f).fab = s.fab := rfl
@[simp] theorem State.modModes_ctx (s : State) (f : ModeSt → ModeSt) : (s.modModes f).ctx = s.ctx := rfl
@[simp] theorem State.modModes_vault (s : State) (f : ModeSt → ModeSt) : (s.modModes f).vault = s.vault := rfl
@[simp] theorem State.modModes_dig (s : State) (f : ModeSt → ModeSt) : (s.modModes f).dig = s.dig := rfl
@[simp] theorem State.modModes_anv (s : State) (f : ModeSt → ModeSt) : (s.modModes f).anv = s.anv := rfl
@[simp] theorem State.modModes_cruc (s : State) (f : ModeSt → ModeSt) : (s.modModes f).cruc = s.cruc := rfl
@[simp] theorem State.modModes_str (s : State) (f : ModeSt → ModeSt) : (s.modModes f).str = s.str := rfl
@[simp] theorem State.modModes_sit (s : State) (f : ModeSt → ModeSt) : (s.modModes f).sit = s.sit := rfl
@[simp] theorem State.modModes_insts (s : State) (f : ModeSt → ModeSt) : (s.modModes f).insts = s.insts := rfl
@[simp] theorem State.modModes_tam (s : State) (f : ModeSt → ModeSt) : (s.modModes f).tam = s.tam := rfl
@[simp] theorem State.modModes_vigil (s : State) (f : ModeSt → ModeSt) : (s.modModes f).vigil = s.vigil := rfl
@[simp] theorem State.modModes_ory (s : State) (f : ModeSt → ModeSt) : (s.modModes f).ory = s.ory := rfl
@[simp] theorem State.modModes_ldg (s : State) (f : ModeSt → ModeSt) : (s.modModes f).ldg = s.ldg := rfl

/-! ### modGlb -/

@[simp] theorem State.modGlb_glb (s : State) (f : GlbSt → GlbSt) : (s.modGlb f).glb = f s.glb := rfl
@[simp] theorem State.modGlb_pending (s : State) (f : GlbSt → GlbSt) : (s.modGlb f).pending = s.pending := rfl
@[simp] theorem State.modGlb_freeCtr (s : State) (f : GlbSt → GlbSt) : (s.modGlb f).freeCtr = s.freeCtr := rfl
@[simp] theorem State.modGlb_life (s : State) (f : GlbSt → GlbSt) : (s.modGlb f).life = s.life := rfl
@[simp] theorem State.modGlb_silver (s : State) (f : GlbSt → GlbSt) : (s.modGlb f).silver = s.silver := rfl
@[simp] theorem State.modGlb_modes (s : State) (f : GlbSt → GlbSt) : (s.modGlb f).modes = s.modes := rfl
@[simp] theorem State.modGlb_time (s : State) (f : GlbSt → GlbSt) : (s.modGlb f).time = s.time := rfl
@[simp] theorem State.modGlb_port (s : State) (f : GlbSt → GlbSt) : (s.modGlb f).port = s.port := rfl
@[simp] theorem State.modGlb_mem (s : State) (f : GlbSt → GlbSt) : (s.modGlb f).mem = s.mem := rfl
@[simp] theorem State.modGlb_rings (s : State) (f : GlbSt → GlbSt) : (s.modGlb f).rings = s.rings := rfl
@[simp] theorem State.modGlb_notifs (s : State) (f : GlbSt → GlbSt) : (s.modGlb f).notifs = s.notifs := rfl
@[simp] theorem State.modGlb_jobs (s : State) (f : GlbSt → GlbSt) : (s.modGlb f).jobs = s.jobs := rfl
@[simp] theorem State.modGlb_fab (s : State) (f : GlbSt → GlbSt) : (s.modGlb f).fab = s.fab := rfl
@[simp] theorem State.modGlb_ctx (s : State) (f : GlbSt → GlbSt) : (s.modGlb f).ctx = s.ctx := rfl
@[simp] theorem State.modGlb_vault (s : State) (f : GlbSt → GlbSt) : (s.modGlb f).vault = s.vault := rfl
@[simp] theorem State.modGlb_dig (s : State) (f : GlbSt → GlbSt) : (s.modGlb f).dig = s.dig := rfl
@[simp] theorem State.modGlb_anv (s : State) (f : GlbSt → GlbSt) : (s.modGlb f).anv = s.anv := rfl
@[simp] theorem State.modGlb_cruc (s : State) (f : GlbSt → GlbSt) : (s.modGlb f).cruc = s.cruc := rfl
@[simp] theorem State.modGlb_str (s : State) (f : GlbSt → GlbSt) : (s.modGlb f).str = s.str := rfl
@[simp] theorem State.modGlb_sit (s : State) (f : GlbSt → GlbSt) : (s.modGlb f).sit = s.sit := rfl
@[simp] theorem State.modGlb_insts (s : State) (f : GlbSt → GlbSt) : (s.modGlb f).insts = s.insts := rfl
@[simp] theorem State.modGlb_tam (s : State) (f : GlbSt → GlbSt) : (s.modGlb f).tam = s.tam := rfl
@[simp] theorem State.modGlb_vigil (s : State) (f : GlbSt → GlbSt) : (s.modGlb f).vigil = s.vigil := rfl
@[simp] theorem State.modGlb_ory (s : State) (f : GlbSt → GlbSt) : (s.modGlb f).ory = s.ory := rfl
@[simp] theorem State.modGlb_ldg (s : State) (f : GlbSt → GlbSt) : (s.modGlb f).ldg = s.ldg := rfl

/-! ### modTime -/

@[simp] theorem State.modTime_time (s : State) (f : TimeSt → TimeSt) : (s.modTime f).time = f s.time := rfl
@[simp] theorem State.modTime_pending (s : State) (f : TimeSt → TimeSt) : (s.modTime f).pending = s.pending := rfl
@[simp] theorem State.modTime_freeCtr (s : State) (f : TimeSt → TimeSt) : (s.modTime f).freeCtr = s.freeCtr := rfl
@[simp] theorem State.modTime_life (s : State) (f : TimeSt → TimeSt) : (s.modTime f).life = s.life := rfl
@[simp] theorem State.modTime_silver (s : State) (f : TimeSt → TimeSt) : (s.modTime f).silver = s.silver := rfl
@[simp] theorem State.modTime_modes (s : State) (f : TimeSt → TimeSt) : (s.modTime f).modes = s.modes := rfl
@[simp] theorem State.modTime_glb (s : State) (f : TimeSt → TimeSt) : (s.modTime f).glb = s.glb := rfl
@[simp] theorem State.modTime_port (s : State) (f : TimeSt → TimeSt) : (s.modTime f).port = s.port := rfl
@[simp] theorem State.modTime_mem (s : State) (f : TimeSt → TimeSt) : (s.modTime f).mem = s.mem := rfl
@[simp] theorem State.modTime_rings (s : State) (f : TimeSt → TimeSt) : (s.modTime f).rings = s.rings := rfl
@[simp] theorem State.modTime_notifs (s : State) (f : TimeSt → TimeSt) : (s.modTime f).notifs = s.notifs := rfl
@[simp] theorem State.modTime_jobs (s : State) (f : TimeSt → TimeSt) : (s.modTime f).jobs = s.jobs := rfl
@[simp] theorem State.modTime_fab (s : State) (f : TimeSt → TimeSt) : (s.modTime f).fab = s.fab := rfl
@[simp] theorem State.modTime_ctx (s : State) (f : TimeSt → TimeSt) : (s.modTime f).ctx = s.ctx := rfl
@[simp] theorem State.modTime_vault (s : State) (f : TimeSt → TimeSt) : (s.modTime f).vault = s.vault := rfl
@[simp] theorem State.modTime_dig (s : State) (f : TimeSt → TimeSt) : (s.modTime f).dig = s.dig := rfl
@[simp] theorem State.modTime_anv (s : State) (f : TimeSt → TimeSt) : (s.modTime f).anv = s.anv := rfl
@[simp] theorem State.modTime_cruc (s : State) (f : TimeSt → TimeSt) : (s.modTime f).cruc = s.cruc := rfl
@[simp] theorem State.modTime_str (s : State) (f : TimeSt → TimeSt) : (s.modTime f).str = s.str := rfl
@[simp] theorem State.modTime_sit (s : State) (f : TimeSt → TimeSt) : (s.modTime f).sit = s.sit := rfl
@[simp] theorem State.modTime_insts (s : State) (f : TimeSt → TimeSt) : (s.modTime f).insts = s.insts := rfl
@[simp] theorem State.modTime_tam (s : State) (f : TimeSt → TimeSt) : (s.modTime f).tam = s.tam := rfl
@[simp] theorem State.modTime_vigil (s : State) (f : TimeSt → TimeSt) : (s.modTime f).vigil = s.vigil := rfl
@[simp] theorem State.modTime_ory (s : State) (f : TimeSt → TimeSt) : (s.modTime f).ory = s.ory := rfl
@[simp] theorem State.modTime_ldg (s : State) (f : TimeSt → TimeSt) : (s.modTime f).ldg = s.ldg := rfl

/-! ### modMem -/

@[simp] theorem State.modMem_mem (s : State) (f : MemSt → MemSt) : (s.modMem f).mem = f s.mem := rfl
@[simp] theorem State.modMem_pending (s : State) (f : MemSt → MemSt) : (s.modMem f).pending = s.pending := rfl
@[simp] theorem State.modMem_freeCtr (s : State) (f : MemSt → MemSt) : (s.modMem f).freeCtr = s.freeCtr := rfl
@[simp] theorem State.modMem_life (s : State) (f : MemSt → MemSt) : (s.modMem f).life = s.life := rfl
@[simp] theorem State.modMem_silver (s : State) (f : MemSt → MemSt) : (s.modMem f).silver = s.silver := rfl
@[simp] theorem State.modMem_modes (s : State) (f : MemSt → MemSt) : (s.modMem f).modes = s.modes := rfl
@[simp] theorem State.modMem_glb (s : State) (f : MemSt → MemSt) : (s.modMem f).glb = s.glb := rfl
@[simp] theorem State.modMem_time (s : State) (f : MemSt → MemSt) : (s.modMem f).time = s.time := rfl
@[simp] theorem State.modMem_port (s : State) (f : MemSt → MemSt) : (s.modMem f).port = s.port := rfl
@[simp] theorem State.modMem_rings (s : State) (f : MemSt → MemSt) : (s.modMem f).rings = s.rings := rfl
@[simp] theorem State.modMem_notifs (s : State) (f : MemSt → MemSt) : (s.modMem f).notifs = s.notifs := rfl
@[simp] theorem State.modMem_jobs (s : State) (f : MemSt → MemSt) : (s.modMem f).jobs = s.jobs := rfl
@[simp] theorem State.modMem_fab (s : State) (f : MemSt → MemSt) : (s.modMem f).fab = s.fab := rfl
@[simp] theorem State.modMem_ctx (s : State) (f : MemSt → MemSt) : (s.modMem f).ctx = s.ctx := rfl
@[simp] theorem State.modMem_vault (s : State) (f : MemSt → MemSt) : (s.modMem f).vault = s.vault := rfl
@[simp] theorem State.modMem_dig (s : State) (f : MemSt → MemSt) : (s.modMem f).dig = s.dig := rfl
@[simp] theorem State.modMem_anv (s : State) (f : MemSt → MemSt) : (s.modMem f).anv = s.anv := rfl
@[simp] theorem State.modMem_cruc (s : State) (f : MemSt → MemSt) : (s.modMem f).cruc = s.cruc := rfl
@[simp] theorem State.modMem_str (s : State) (f : MemSt → MemSt) : (s.modMem f).str = s.str := rfl
@[simp] theorem State.modMem_sit (s : State) (f : MemSt → MemSt) : (s.modMem f).sit = s.sit := rfl
@[simp] theorem State.modMem_insts (s : State) (f : MemSt → MemSt) : (s.modMem f).insts = s.insts := rfl
@[simp] theorem State.modMem_tam (s : State) (f : MemSt → MemSt) : (s.modMem f).tam = s.tam := rfl
@[simp] theorem State.modMem_vigil (s : State) (f : MemSt → MemSt) : (s.modMem f).vigil = s.vigil := rfl
@[simp] theorem State.modMem_ory (s : State) (f : MemSt → MemSt) : (s.modMem f).ory = s.ory := rfl
@[simp] theorem State.modMem_ldg (s : State) (f : MemSt → MemSt) : (s.modMem f).ldg = s.ldg := rfl

/-! ### modVault -/

@[simp] theorem State.modVault_vault (s : State) (f : VaultSt → VaultSt) : (s.modVault f).vault = f s.vault := rfl
@[simp] theorem State.modVault_pending (s : State) (f : VaultSt → VaultSt) : (s.modVault f).pending = s.pending := rfl
@[simp] theorem State.modVault_freeCtr (s : State) (f : VaultSt → VaultSt) : (s.modVault f).freeCtr = s.freeCtr := rfl
@[simp] theorem State.modVault_life (s : State) (f : VaultSt → VaultSt) : (s.modVault f).life = s.life := rfl
@[simp] theorem State.modVault_silver (s : State) (f : VaultSt → VaultSt) : (s.modVault f).silver = s.silver := rfl
@[simp] theorem State.modVault_modes (s : State) (f : VaultSt → VaultSt) : (s.modVault f).modes = s.modes := rfl
@[simp] theorem State.modVault_glb (s : State) (f : VaultSt → VaultSt) : (s.modVault f).glb = s.glb := rfl
@[simp] theorem State.modVault_time (s : State) (f : VaultSt → VaultSt) : (s.modVault f).time = s.time := rfl
@[simp] theorem State.modVault_port (s : State) (f : VaultSt → VaultSt) : (s.modVault f).port = s.port := rfl
@[simp] theorem State.modVault_mem (s : State) (f : VaultSt → VaultSt) : (s.modVault f).mem = s.mem := rfl
@[simp] theorem State.modVault_rings (s : State) (f : VaultSt → VaultSt) : (s.modVault f).rings = s.rings := rfl
@[simp] theorem State.modVault_notifs (s : State) (f : VaultSt → VaultSt) : (s.modVault f).notifs = s.notifs := rfl
@[simp] theorem State.modVault_jobs (s : State) (f : VaultSt → VaultSt) : (s.modVault f).jobs = s.jobs := rfl
@[simp] theorem State.modVault_fab (s : State) (f : VaultSt → VaultSt) : (s.modVault f).fab = s.fab := rfl
@[simp] theorem State.modVault_ctx (s : State) (f : VaultSt → VaultSt) : (s.modVault f).ctx = s.ctx := rfl
@[simp] theorem State.modVault_dig (s : State) (f : VaultSt → VaultSt) : (s.modVault f).dig = s.dig := rfl
@[simp] theorem State.modVault_anv (s : State) (f : VaultSt → VaultSt) : (s.modVault f).anv = s.anv := rfl
@[simp] theorem State.modVault_cruc (s : State) (f : VaultSt → VaultSt) : (s.modVault f).cruc = s.cruc := rfl
@[simp] theorem State.modVault_str (s : State) (f : VaultSt → VaultSt) : (s.modVault f).str = s.str := rfl
@[simp] theorem State.modVault_sit (s : State) (f : VaultSt → VaultSt) : (s.modVault f).sit = s.sit := rfl
@[simp] theorem State.modVault_insts (s : State) (f : VaultSt → VaultSt) : (s.modVault f).insts = s.insts := rfl
@[simp] theorem State.modVault_tam (s : State) (f : VaultSt → VaultSt) : (s.modVault f).tam = s.tam := rfl
@[simp] theorem State.modVault_vigil (s : State) (f : VaultSt → VaultSt) : (s.modVault f).vigil = s.vigil := rfl
@[simp] theorem State.modVault_ory (s : State) (f : VaultSt → VaultSt) : (s.modVault f).ory = s.ory := rfl
@[simp] theorem State.modVault_ldg (s : State) (f : VaultSt → VaultSt) : (s.modVault f).ldg = s.ldg := rfl

/-! ### modDig -/

@[simp] theorem State.modDig_dig (s : State) (f : DigestSt → DigestSt) : (s.modDig f).dig = f s.dig := rfl
@[simp] theorem State.modDig_pending (s : State) (f : DigestSt → DigestSt) : (s.modDig f).pending = s.pending := rfl
@[simp] theorem State.modDig_freeCtr (s : State) (f : DigestSt → DigestSt) : (s.modDig f).freeCtr = s.freeCtr := rfl
@[simp] theorem State.modDig_life (s : State) (f : DigestSt → DigestSt) : (s.modDig f).life = s.life := rfl
@[simp] theorem State.modDig_silver (s : State) (f : DigestSt → DigestSt) : (s.modDig f).silver = s.silver := rfl
@[simp] theorem State.modDig_modes (s : State) (f : DigestSt → DigestSt) : (s.modDig f).modes = s.modes := rfl
@[simp] theorem State.modDig_glb (s : State) (f : DigestSt → DigestSt) : (s.modDig f).glb = s.glb := rfl
@[simp] theorem State.modDig_time (s : State) (f : DigestSt → DigestSt) : (s.modDig f).time = s.time := rfl
@[simp] theorem State.modDig_port (s : State) (f : DigestSt → DigestSt) : (s.modDig f).port = s.port := rfl
@[simp] theorem State.modDig_mem (s : State) (f : DigestSt → DigestSt) : (s.modDig f).mem = s.mem := rfl
@[simp] theorem State.modDig_rings (s : State) (f : DigestSt → DigestSt) : (s.modDig f).rings = s.rings := rfl
@[simp] theorem State.modDig_notifs (s : State) (f : DigestSt → DigestSt) : (s.modDig f).notifs = s.notifs := rfl
@[simp] theorem State.modDig_jobs (s : State) (f : DigestSt → DigestSt) : (s.modDig f).jobs = s.jobs := rfl
@[simp] theorem State.modDig_fab (s : State) (f : DigestSt → DigestSt) : (s.modDig f).fab = s.fab := rfl
@[simp] theorem State.modDig_ctx (s : State) (f : DigestSt → DigestSt) : (s.modDig f).ctx = s.ctx := rfl
@[simp] theorem State.modDig_vault (s : State) (f : DigestSt → DigestSt) : (s.modDig f).vault = s.vault := rfl
@[simp] theorem State.modDig_anv (s : State) (f : DigestSt → DigestSt) : (s.modDig f).anv = s.anv := rfl
@[simp] theorem State.modDig_cruc (s : State) (f : DigestSt → DigestSt) : (s.modDig f).cruc = s.cruc := rfl
@[simp] theorem State.modDig_str (s : State) (f : DigestSt → DigestSt) : (s.modDig f).str = s.str := rfl
@[simp] theorem State.modDig_sit (s : State) (f : DigestSt → DigestSt) : (s.modDig f).sit = s.sit := rfl
@[simp] theorem State.modDig_insts (s : State) (f : DigestSt → DigestSt) : (s.modDig f).insts = s.insts := rfl
@[simp] theorem State.modDig_tam (s : State) (f : DigestSt → DigestSt) : (s.modDig f).tam = s.tam := rfl
@[simp] theorem State.modDig_vigil (s : State) (f : DigestSt → DigestSt) : (s.modDig f).vigil = s.vigil := rfl
@[simp] theorem State.modDig_ory (s : State) (f : DigestSt → DigestSt) : (s.modDig f).ory = s.ory := rfl
@[simp] theorem State.modDig_ldg (s : State) (f : DigestSt → DigestSt) : (s.modDig f).ldg = s.ldg := rfl

/-! ### modAnv -/

@[simp] theorem State.modAnv_anv (s : State) (f : AnvilSt → AnvilSt) : (s.modAnv f).anv = f s.anv := rfl
@[simp] theorem State.modAnv_pending (s : State) (f : AnvilSt → AnvilSt) : (s.modAnv f).pending = s.pending := rfl
@[simp] theorem State.modAnv_freeCtr (s : State) (f : AnvilSt → AnvilSt) : (s.modAnv f).freeCtr = s.freeCtr := rfl
@[simp] theorem State.modAnv_life (s : State) (f : AnvilSt → AnvilSt) : (s.modAnv f).life = s.life := rfl
@[simp] theorem State.modAnv_silver (s : State) (f : AnvilSt → AnvilSt) : (s.modAnv f).silver = s.silver := rfl
@[simp] theorem State.modAnv_modes (s : State) (f : AnvilSt → AnvilSt) : (s.modAnv f).modes = s.modes := rfl
@[simp] theorem State.modAnv_glb (s : State) (f : AnvilSt → AnvilSt) : (s.modAnv f).glb = s.glb := rfl
@[simp] theorem State.modAnv_time (s : State) (f : AnvilSt → AnvilSt) : (s.modAnv f).time = s.time := rfl
@[simp] theorem State.modAnv_port (s : State) (f : AnvilSt → AnvilSt) : (s.modAnv f).port = s.port := rfl
@[simp] theorem State.modAnv_mem (s : State) (f : AnvilSt → AnvilSt) : (s.modAnv f).mem = s.mem := rfl
@[simp] theorem State.modAnv_rings (s : State) (f : AnvilSt → AnvilSt) : (s.modAnv f).rings = s.rings := rfl
@[simp] theorem State.modAnv_notifs (s : State) (f : AnvilSt → AnvilSt) : (s.modAnv f).notifs = s.notifs := rfl
@[simp] theorem State.modAnv_jobs (s : State) (f : AnvilSt → AnvilSt) : (s.modAnv f).jobs = s.jobs := rfl
@[simp] theorem State.modAnv_fab (s : State) (f : AnvilSt → AnvilSt) : (s.modAnv f).fab = s.fab := rfl
@[simp] theorem State.modAnv_ctx (s : State) (f : AnvilSt → AnvilSt) : (s.modAnv f).ctx = s.ctx := rfl
@[simp] theorem State.modAnv_vault (s : State) (f : AnvilSt → AnvilSt) : (s.modAnv f).vault = s.vault := rfl
@[simp] theorem State.modAnv_dig (s : State) (f : AnvilSt → AnvilSt) : (s.modAnv f).dig = s.dig := rfl
@[simp] theorem State.modAnv_cruc (s : State) (f : AnvilSt → AnvilSt) : (s.modAnv f).cruc = s.cruc := rfl
@[simp] theorem State.modAnv_str (s : State) (f : AnvilSt → AnvilSt) : (s.modAnv f).str = s.str := rfl
@[simp] theorem State.modAnv_sit (s : State) (f : AnvilSt → AnvilSt) : (s.modAnv f).sit = s.sit := rfl
@[simp] theorem State.modAnv_insts (s : State) (f : AnvilSt → AnvilSt) : (s.modAnv f).insts = s.insts := rfl
@[simp] theorem State.modAnv_tam (s : State) (f : AnvilSt → AnvilSt) : (s.modAnv f).tam = s.tam := rfl
@[simp] theorem State.modAnv_vigil (s : State) (f : AnvilSt → AnvilSt) : (s.modAnv f).vigil = s.vigil := rfl
@[simp] theorem State.modAnv_ory (s : State) (f : AnvilSt → AnvilSt) : (s.modAnv f).ory = s.ory := rfl
@[simp] theorem State.modAnv_ldg (s : State) (f : AnvilSt → AnvilSt) : (s.modAnv f).ldg = s.ldg := rfl

/-! ### modCruc -/

@[simp] theorem State.modCruc_cruc (s : State) (f : CrucSt → CrucSt) : (s.modCruc f).cruc = f s.cruc := rfl
@[simp] theorem State.modCruc_pending (s : State) (f : CrucSt → CrucSt) : (s.modCruc f).pending = s.pending := rfl
@[simp] theorem State.modCruc_freeCtr (s : State) (f : CrucSt → CrucSt) : (s.modCruc f).freeCtr = s.freeCtr := rfl
@[simp] theorem State.modCruc_life (s : State) (f : CrucSt → CrucSt) : (s.modCruc f).life = s.life := rfl
@[simp] theorem State.modCruc_silver (s : State) (f : CrucSt → CrucSt) : (s.modCruc f).silver = s.silver := rfl
@[simp] theorem State.modCruc_modes (s : State) (f : CrucSt → CrucSt) : (s.modCruc f).modes = s.modes := rfl
@[simp] theorem State.modCruc_glb (s : State) (f : CrucSt → CrucSt) : (s.modCruc f).glb = s.glb := rfl
@[simp] theorem State.modCruc_time (s : State) (f : CrucSt → CrucSt) : (s.modCruc f).time = s.time := rfl
@[simp] theorem State.modCruc_port (s : State) (f : CrucSt → CrucSt) : (s.modCruc f).port = s.port := rfl
@[simp] theorem State.modCruc_mem (s : State) (f : CrucSt → CrucSt) : (s.modCruc f).mem = s.mem := rfl
@[simp] theorem State.modCruc_rings (s : State) (f : CrucSt → CrucSt) : (s.modCruc f).rings = s.rings := rfl
@[simp] theorem State.modCruc_notifs (s : State) (f : CrucSt → CrucSt) : (s.modCruc f).notifs = s.notifs := rfl
@[simp] theorem State.modCruc_jobs (s : State) (f : CrucSt → CrucSt) : (s.modCruc f).jobs = s.jobs := rfl
@[simp] theorem State.modCruc_fab (s : State) (f : CrucSt → CrucSt) : (s.modCruc f).fab = s.fab := rfl
@[simp] theorem State.modCruc_ctx (s : State) (f : CrucSt → CrucSt) : (s.modCruc f).ctx = s.ctx := rfl
@[simp] theorem State.modCruc_vault (s : State) (f : CrucSt → CrucSt) : (s.modCruc f).vault = s.vault := rfl
@[simp] theorem State.modCruc_dig (s : State) (f : CrucSt → CrucSt) : (s.modCruc f).dig = s.dig := rfl
@[simp] theorem State.modCruc_anv (s : State) (f : CrucSt → CrucSt) : (s.modCruc f).anv = s.anv := rfl
@[simp] theorem State.modCruc_str (s : State) (f : CrucSt → CrucSt) : (s.modCruc f).str = s.str := rfl
@[simp] theorem State.modCruc_sit (s : State) (f : CrucSt → CrucSt) : (s.modCruc f).sit = s.sit := rfl
@[simp] theorem State.modCruc_insts (s : State) (f : CrucSt → CrucSt) : (s.modCruc f).insts = s.insts := rfl
@[simp] theorem State.modCruc_tam (s : State) (f : CrucSt → CrucSt) : (s.modCruc f).tam = s.tam := rfl
@[simp] theorem State.modCruc_vigil (s : State) (f : CrucSt → CrucSt) : (s.modCruc f).vigil = s.vigil := rfl
@[simp] theorem State.modCruc_ory (s : State) (f : CrucSt → CrucSt) : (s.modCruc f).ory = s.ory := rfl
@[simp] theorem State.modCruc_ldg (s : State) (f : CrucSt → CrucSt) : (s.modCruc f).ldg = s.ldg := rfl

/-! ### modStr -/

@[simp] theorem State.modStr_str (s : State) (f : StreamsSt → StreamsSt) : (s.modStr f).str = f s.str := rfl
@[simp] theorem State.modStr_pending (s : State) (f : StreamsSt → StreamsSt) : (s.modStr f).pending = s.pending := rfl
@[simp] theorem State.modStr_freeCtr (s : State) (f : StreamsSt → StreamsSt) : (s.modStr f).freeCtr = s.freeCtr := rfl
@[simp] theorem State.modStr_life (s : State) (f : StreamsSt → StreamsSt) : (s.modStr f).life = s.life := rfl
@[simp] theorem State.modStr_silver (s : State) (f : StreamsSt → StreamsSt) : (s.modStr f).silver = s.silver := rfl
@[simp] theorem State.modStr_modes (s : State) (f : StreamsSt → StreamsSt) : (s.modStr f).modes = s.modes := rfl
@[simp] theorem State.modStr_glb (s : State) (f : StreamsSt → StreamsSt) : (s.modStr f).glb = s.glb := rfl
@[simp] theorem State.modStr_time (s : State) (f : StreamsSt → StreamsSt) : (s.modStr f).time = s.time := rfl
@[simp] theorem State.modStr_port (s : State) (f : StreamsSt → StreamsSt) : (s.modStr f).port = s.port := rfl
@[simp] theorem State.modStr_mem (s : State) (f : StreamsSt → StreamsSt) : (s.modStr f).mem = s.mem := rfl
@[simp] theorem State.modStr_rings (s : State) (f : StreamsSt → StreamsSt) : (s.modStr f).rings = s.rings := rfl
@[simp] theorem State.modStr_notifs (s : State) (f : StreamsSt → StreamsSt) : (s.modStr f).notifs = s.notifs := rfl
@[simp] theorem State.modStr_jobs (s : State) (f : StreamsSt → StreamsSt) : (s.modStr f).jobs = s.jobs := rfl
@[simp] theorem State.modStr_fab (s : State) (f : StreamsSt → StreamsSt) : (s.modStr f).fab = s.fab := rfl
@[simp] theorem State.modStr_ctx (s : State) (f : StreamsSt → StreamsSt) : (s.modStr f).ctx = s.ctx := rfl
@[simp] theorem State.modStr_vault (s : State) (f : StreamsSt → StreamsSt) : (s.modStr f).vault = s.vault := rfl
@[simp] theorem State.modStr_dig (s : State) (f : StreamsSt → StreamsSt) : (s.modStr f).dig = s.dig := rfl
@[simp] theorem State.modStr_anv (s : State) (f : StreamsSt → StreamsSt) : (s.modStr f).anv = s.anv := rfl
@[simp] theorem State.modStr_cruc (s : State) (f : StreamsSt → StreamsSt) : (s.modStr f).cruc = s.cruc := rfl
@[simp] theorem State.modStr_sit (s : State) (f : StreamsSt → StreamsSt) : (s.modStr f).sit = s.sit := rfl
@[simp] theorem State.modStr_insts (s : State) (f : StreamsSt → StreamsSt) : (s.modStr f).insts = s.insts := rfl
@[simp] theorem State.modStr_tam (s : State) (f : StreamsSt → StreamsSt) : (s.modStr f).tam = s.tam := rfl
@[simp] theorem State.modStr_vigil (s : State) (f : StreamsSt → StreamsSt) : (s.modStr f).vigil = s.vigil := rfl
@[simp] theorem State.modStr_ory (s : State) (f : StreamsSt → StreamsSt) : (s.modStr f).ory = s.ory := rfl
@[simp] theorem State.modStr_ldg (s : State) (f : StreamsSt → StreamsSt) : (s.modStr f).ldg = s.ldg := rfl

/-! ### modSit -/

@[simp] theorem State.modSit_sit (s : State) (f : SitShared → SitShared) : (s.modSit f).sit = f s.sit := rfl
@[simp] theorem State.modSit_pending (s : State) (f : SitShared → SitShared) : (s.modSit f).pending = s.pending := rfl
@[simp] theorem State.modSit_freeCtr (s : State) (f : SitShared → SitShared) : (s.modSit f).freeCtr = s.freeCtr := rfl
@[simp] theorem State.modSit_life (s : State) (f : SitShared → SitShared) : (s.modSit f).life = s.life := rfl
@[simp] theorem State.modSit_silver (s : State) (f : SitShared → SitShared) : (s.modSit f).silver = s.silver := rfl
@[simp] theorem State.modSit_modes (s : State) (f : SitShared → SitShared) : (s.modSit f).modes = s.modes := rfl
@[simp] theorem State.modSit_glb (s : State) (f : SitShared → SitShared) : (s.modSit f).glb = s.glb := rfl
@[simp] theorem State.modSit_time (s : State) (f : SitShared → SitShared) : (s.modSit f).time = s.time := rfl
@[simp] theorem State.modSit_port (s : State) (f : SitShared → SitShared) : (s.modSit f).port = s.port := rfl
@[simp] theorem State.modSit_mem (s : State) (f : SitShared → SitShared) : (s.modSit f).mem = s.mem := rfl
@[simp] theorem State.modSit_rings (s : State) (f : SitShared → SitShared) : (s.modSit f).rings = s.rings := rfl
@[simp] theorem State.modSit_notifs (s : State) (f : SitShared → SitShared) : (s.modSit f).notifs = s.notifs := rfl
@[simp] theorem State.modSit_jobs (s : State) (f : SitShared → SitShared) : (s.modSit f).jobs = s.jobs := rfl
@[simp] theorem State.modSit_fab (s : State) (f : SitShared → SitShared) : (s.modSit f).fab = s.fab := rfl
@[simp] theorem State.modSit_ctx (s : State) (f : SitShared → SitShared) : (s.modSit f).ctx = s.ctx := rfl
@[simp] theorem State.modSit_vault (s : State) (f : SitShared → SitShared) : (s.modSit f).vault = s.vault := rfl
@[simp] theorem State.modSit_dig (s : State) (f : SitShared → SitShared) : (s.modSit f).dig = s.dig := rfl
@[simp] theorem State.modSit_anv (s : State) (f : SitShared → SitShared) : (s.modSit f).anv = s.anv := rfl
@[simp] theorem State.modSit_cruc (s : State) (f : SitShared → SitShared) : (s.modSit f).cruc = s.cruc := rfl
@[simp] theorem State.modSit_str (s : State) (f : SitShared → SitShared) : (s.modSit f).str = s.str := rfl
@[simp] theorem State.modSit_insts (s : State) (f : SitShared → SitShared) : (s.modSit f).insts = s.insts := rfl
@[simp] theorem State.modSit_tam (s : State) (f : SitShared → SitShared) : (s.modSit f).tam = s.tam := rfl
@[simp] theorem State.modSit_vigil (s : State) (f : SitShared → SitShared) : (s.modSit f).vigil = s.vigil := rfl
@[simp] theorem State.modSit_ory (s : State) (f : SitShared → SitShared) : (s.modSit f).ory = s.ory := rfl
@[simp] theorem State.modSit_ldg (s : State) (f : SitShared → SitShared) : (s.modSit f).ldg = s.ldg := rfl

/-! ### modTam -/

@[simp] theorem State.modTam_tam (s : State) (f : TamperSt → TamperSt) : (s.modTam f).tam = f s.tam := rfl
@[simp] theorem State.modTam_pending (s : State) (f : TamperSt → TamperSt) : (s.modTam f).pending = s.pending := rfl
@[simp] theorem State.modTam_freeCtr (s : State) (f : TamperSt → TamperSt) : (s.modTam f).freeCtr = s.freeCtr := rfl
@[simp] theorem State.modTam_life (s : State) (f : TamperSt → TamperSt) : (s.modTam f).life = s.life := rfl
@[simp] theorem State.modTam_silver (s : State) (f : TamperSt → TamperSt) : (s.modTam f).silver = s.silver := rfl
@[simp] theorem State.modTam_modes (s : State) (f : TamperSt → TamperSt) : (s.modTam f).modes = s.modes := rfl
@[simp] theorem State.modTam_glb (s : State) (f : TamperSt → TamperSt) : (s.modTam f).glb = s.glb := rfl
@[simp] theorem State.modTam_time (s : State) (f : TamperSt → TamperSt) : (s.modTam f).time = s.time := rfl
@[simp] theorem State.modTam_port (s : State) (f : TamperSt → TamperSt) : (s.modTam f).port = s.port := rfl
@[simp] theorem State.modTam_mem (s : State) (f : TamperSt → TamperSt) : (s.modTam f).mem = s.mem := rfl
@[simp] theorem State.modTam_rings (s : State) (f : TamperSt → TamperSt) : (s.modTam f).rings = s.rings := rfl
@[simp] theorem State.modTam_notifs (s : State) (f : TamperSt → TamperSt) : (s.modTam f).notifs = s.notifs := rfl
@[simp] theorem State.modTam_jobs (s : State) (f : TamperSt → TamperSt) : (s.modTam f).jobs = s.jobs := rfl
@[simp] theorem State.modTam_fab (s : State) (f : TamperSt → TamperSt) : (s.modTam f).fab = s.fab := rfl
@[simp] theorem State.modTam_ctx (s : State) (f : TamperSt → TamperSt) : (s.modTam f).ctx = s.ctx := rfl
@[simp] theorem State.modTam_vault (s : State) (f : TamperSt → TamperSt) : (s.modTam f).vault = s.vault := rfl
@[simp] theorem State.modTam_dig (s : State) (f : TamperSt → TamperSt) : (s.modTam f).dig = s.dig := rfl
@[simp] theorem State.modTam_anv (s : State) (f : TamperSt → TamperSt) : (s.modTam f).anv = s.anv := rfl
@[simp] theorem State.modTam_cruc (s : State) (f : TamperSt → TamperSt) : (s.modTam f).cruc = s.cruc := rfl
@[simp] theorem State.modTam_str (s : State) (f : TamperSt → TamperSt) : (s.modTam f).str = s.str := rfl
@[simp] theorem State.modTam_sit (s : State) (f : TamperSt → TamperSt) : (s.modTam f).sit = s.sit := rfl
@[simp] theorem State.modTam_insts (s : State) (f : TamperSt → TamperSt) : (s.modTam f).insts = s.insts := rfl
@[simp] theorem State.modTam_vigil (s : State) (f : TamperSt → TamperSt) : (s.modTam f).vigil = s.vigil := rfl
@[simp] theorem State.modTam_ory (s : State) (f : TamperSt → TamperSt) : (s.modTam f).ory = s.ory := rfl
@[simp] theorem State.modTam_ldg (s : State) (f : TamperSt → TamperSt) : (s.modTam f).ldg = s.ldg := rfl

/-! ### modVigil -/

@[simp] theorem State.modVigil_vigil (s : State) (f : VigilSt → VigilSt) : (s.modVigil f).vigil = f s.vigil := rfl
@[simp] theorem State.modVigil_pending (s : State) (f : VigilSt → VigilSt) : (s.modVigil f).pending = s.pending := rfl
@[simp] theorem State.modVigil_freeCtr (s : State) (f : VigilSt → VigilSt) : (s.modVigil f).freeCtr = s.freeCtr := rfl
@[simp] theorem State.modVigil_life (s : State) (f : VigilSt → VigilSt) : (s.modVigil f).life = s.life := rfl
@[simp] theorem State.modVigil_silver (s : State) (f : VigilSt → VigilSt) : (s.modVigil f).silver = s.silver := rfl
@[simp] theorem State.modVigil_modes (s : State) (f : VigilSt → VigilSt) : (s.modVigil f).modes = s.modes := rfl
@[simp] theorem State.modVigil_glb (s : State) (f : VigilSt → VigilSt) : (s.modVigil f).glb = s.glb := rfl
@[simp] theorem State.modVigil_time (s : State) (f : VigilSt → VigilSt) : (s.modVigil f).time = s.time := rfl
@[simp] theorem State.modVigil_port (s : State) (f : VigilSt → VigilSt) : (s.modVigil f).port = s.port := rfl
@[simp] theorem State.modVigil_mem (s : State) (f : VigilSt → VigilSt) : (s.modVigil f).mem = s.mem := rfl
@[simp] theorem State.modVigil_rings (s : State) (f : VigilSt → VigilSt) : (s.modVigil f).rings = s.rings := rfl
@[simp] theorem State.modVigil_notifs (s : State) (f : VigilSt → VigilSt) : (s.modVigil f).notifs = s.notifs := rfl
@[simp] theorem State.modVigil_jobs (s : State) (f : VigilSt → VigilSt) : (s.modVigil f).jobs = s.jobs := rfl
@[simp] theorem State.modVigil_fab (s : State) (f : VigilSt → VigilSt) : (s.modVigil f).fab = s.fab := rfl
@[simp] theorem State.modVigil_ctx (s : State) (f : VigilSt → VigilSt) : (s.modVigil f).ctx = s.ctx := rfl
@[simp] theorem State.modVigil_vault (s : State) (f : VigilSt → VigilSt) : (s.modVigil f).vault = s.vault := rfl
@[simp] theorem State.modVigil_dig (s : State) (f : VigilSt → VigilSt) : (s.modVigil f).dig = s.dig := rfl
@[simp] theorem State.modVigil_anv (s : State) (f : VigilSt → VigilSt) : (s.modVigil f).anv = s.anv := rfl
@[simp] theorem State.modVigil_cruc (s : State) (f : VigilSt → VigilSt) : (s.modVigil f).cruc = s.cruc := rfl
@[simp] theorem State.modVigil_str (s : State) (f : VigilSt → VigilSt) : (s.modVigil f).str = s.str := rfl
@[simp] theorem State.modVigil_sit (s : State) (f : VigilSt → VigilSt) : (s.modVigil f).sit = s.sit := rfl
@[simp] theorem State.modVigil_insts (s : State) (f : VigilSt → VigilSt) : (s.modVigil f).insts = s.insts := rfl
@[simp] theorem State.modVigil_tam (s : State) (f : VigilSt → VigilSt) : (s.modVigil f).tam = s.tam := rfl
@[simp] theorem State.modVigil_ory (s : State) (f : VigilSt → VigilSt) : (s.modVigil f).ory = s.ory := rfl
@[simp] theorem State.modVigil_ldg (s : State) (f : VigilSt → VigilSt) : (s.modVigil f).ldg = s.ldg := rfl

/-! ### modOry -/

@[simp] theorem State.modOry_ory (s : State) (f : OrrerySt → OrrerySt) : (s.modOry f).ory = f s.ory := rfl
@[simp] theorem State.modOry_pending (s : State) (f : OrrerySt → OrrerySt) : (s.modOry f).pending = s.pending := rfl
@[simp] theorem State.modOry_freeCtr (s : State) (f : OrrerySt → OrrerySt) : (s.modOry f).freeCtr = s.freeCtr := rfl
@[simp] theorem State.modOry_life (s : State) (f : OrrerySt → OrrerySt) : (s.modOry f).life = s.life := rfl
@[simp] theorem State.modOry_silver (s : State) (f : OrrerySt → OrrerySt) : (s.modOry f).silver = s.silver := rfl
@[simp] theorem State.modOry_modes (s : State) (f : OrrerySt → OrrerySt) : (s.modOry f).modes = s.modes := rfl
@[simp] theorem State.modOry_glb (s : State) (f : OrrerySt → OrrerySt) : (s.modOry f).glb = s.glb := rfl
@[simp] theorem State.modOry_time (s : State) (f : OrrerySt → OrrerySt) : (s.modOry f).time = s.time := rfl
@[simp] theorem State.modOry_port (s : State) (f : OrrerySt → OrrerySt) : (s.modOry f).port = s.port := rfl
@[simp] theorem State.modOry_mem (s : State) (f : OrrerySt → OrrerySt) : (s.modOry f).mem = s.mem := rfl
@[simp] theorem State.modOry_rings (s : State) (f : OrrerySt → OrrerySt) : (s.modOry f).rings = s.rings := rfl
@[simp] theorem State.modOry_notifs (s : State) (f : OrrerySt → OrrerySt) : (s.modOry f).notifs = s.notifs := rfl
@[simp] theorem State.modOry_jobs (s : State) (f : OrrerySt → OrrerySt) : (s.modOry f).jobs = s.jobs := rfl
@[simp] theorem State.modOry_fab (s : State) (f : OrrerySt → OrrerySt) : (s.modOry f).fab = s.fab := rfl
@[simp] theorem State.modOry_ctx (s : State) (f : OrrerySt → OrrerySt) : (s.modOry f).ctx = s.ctx := rfl
@[simp] theorem State.modOry_vault (s : State) (f : OrrerySt → OrrerySt) : (s.modOry f).vault = s.vault := rfl
@[simp] theorem State.modOry_dig (s : State) (f : OrrerySt → OrrerySt) : (s.modOry f).dig = s.dig := rfl
@[simp] theorem State.modOry_anv (s : State) (f : OrrerySt → OrrerySt) : (s.modOry f).anv = s.anv := rfl
@[simp] theorem State.modOry_cruc (s : State) (f : OrrerySt → OrrerySt) : (s.modOry f).cruc = s.cruc := rfl
@[simp] theorem State.modOry_str (s : State) (f : OrrerySt → OrrerySt) : (s.modOry f).str = s.str := rfl
@[simp] theorem State.modOry_sit (s : State) (f : OrrerySt → OrrerySt) : (s.modOry f).sit = s.sit := rfl
@[simp] theorem State.modOry_insts (s : State) (f : OrrerySt → OrrerySt) : (s.modOry f).insts = s.insts := rfl
@[simp] theorem State.modOry_tam (s : State) (f : OrrerySt → OrrerySt) : (s.modOry f).tam = s.tam := rfl
@[simp] theorem State.modOry_vigil (s : State) (f : OrrerySt → OrrerySt) : (s.modOry f).vigil = s.vigil := rfl
@[simp] theorem State.modOry_ldg (s : State) (f : OrrerySt → OrrerySt) : (s.modOry f).ldg = s.ldg := rfl

/-! ### modLdg -/

@[simp] theorem State.modLdg_ldg (s : State) (f : LedgerSt → LedgerSt) : (s.modLdg f).ldg = f s.ldg := rfl
@[simp] theorem State.modLdg_pending (s : State) (f : LedgerSt → LedgerSt) : (s.modLdg f).pending = s.pending := rfl
@[simp] theorem State.modLdg_freeCtr (s : State) (f : LedgerSt → LedgerSt) : (s.modLdg f).freeCtr = s.freeCtr := rfl
@[simp] theorem State.modLdg_life (s : State) (f : LedgerSt → LedgerSt) : (s.modLdg f).life = s.life := rfl
@[simp] theorem State.modLdg_silver (s : State) (f : LedgerSt → LedgerSt) : (s.modLdg f).silver = s.silver := rfl
@[simp] theorem State.modLdg_modes (s : State) (f : LedgerSt → LedgerSt) : (s.modLdg f).modes = s.modes := rfl
@[simp] theorem State.modLdg_glb (s : State) (f : LedgerSt → LedgerSt) : (s.modLdg f).glb = s.glb := rfl
@[simp] theorem State.modLdg_time (s : State) (f : LedgerSt → LedgerSt) : (s.modLdg f).time = s.time := rfl
@[simp] theorem State.modLdg_port (s : State) (f : LedgerSt → LedgerSt) : (s.modLdg f).port = s.port := rfl
@[simp] theorem State.modLdg_mem (s : State) (f : LedgerSt → LedgerSt) : (s.modLdg f).mem = s.mem := rfl
@[simp] theorem State.modLdg_rings (s : State) (f : LedgerSt → LedgerSt) : (s.modLdg f).rings = s.rings := rfl
@[simp] theorem State.modLdg_notifs (s : State) (f : LedgerSt → LedgerSt) : (s.modLdg f).notifs = s.notifs := rfl
@[simp] theorem State.modLdg_jobs (s : State) (f : LedgerSt → LedgerSt) : (s.modLdg f).jobs = s.jobs := rfl
@[simp] theorem State.modLdg_fab (s : State) (f : LedgerSt → LedgerSt) : (s.modLdg f).fab = s.fab := rfl
@[simp] theorem State.modLdg_ctx (s : State) (f : LedgerSt → LedgerSt) : (s.modLdg f).ctx = s.ctx := rfl
@[simp] theorem State.modLdg_vault (s : State) (f : LedgerSt → LedgerSt) : (s.modLdg f).vault = s.vault := rfl
@[simp] theorem State.modLdg_dig (s : State) (f : LedgerSt → LedgerSt) : (s.modLdg f).dig = s.dig := rfl
@[simp] theorem State.modLdg_anv (s : State) (f : LedgerSt → LedgerSt) : (s.modLdg f).anv = s.anv := rfl
@[simp] theorem State.modLdg_cruc (s : State) (f : LedgerSt → LedgerSt) : (s.modLdg f).cruc = s.cruc := rfl
@[simp] theorem State.modLdg_str (s : State) (f : LedgerSt → LedgerSt) : (s.modLdg f).str = s.str := rfl
@[simp] theorem State.modLdg_sit (s : State) (f : LedgerSt → LedgerSt) : (s.modLdg f).sit = s.sit := rfl
@[simp] theorem State.modLdg_insts (s : State) (f : LedgerSt → LedgerSt) : (s.modLdg f).insts = s.insts := rfl
@[simp] theorem State.modLdg_tam (s : State) (f : LedgerSt → LedgerSt) : (s.modLdg f).tam = s.tam := rfl
@[simp] theorem State.modLdg_vigil (s : State) (f : LedgerSt → LedgerSt) : (s.modLdg f).vigil = s.vigil := rfl
@[simp] theorem State.modLdg_ory (s : State) (f : LedgerSt → LedgerSt) : (s.modLdg f).ory = s.ory := rfl

/-! ### modFab -/

@[simp] theorem State.modFab_fab (s : State) (f : FabricSt → FabricSt) : (s.modFab f).fab = f s.fab := rfl
@[simp] theorem State.modFab_pending (s : State) (f : FabricSt → FabricSt) : (s.modFab f).pending = s.pending := rfl
@[simp] theorem State.modFab_freeCtr (s : State) (f : FabricSt → FabricSt) : (s.modFab f).freeCtr = s.freeCtr := rfl
@[simp] theorem State.modFab_life (s : State) (f : FabricSt → FabricSt) : (s.modFab f).life = s.life := rfl
@[simp] theorem State.modFab_silver (s : State) (f : FabricSt → FabricSt) : (s.modFab f).silver = s.silver := rfl
@[simp] theorem State.modFab_modes (s : State) (f : FabricSt → FabricSt) : (s.modFab f).modes = s.modes := rfl
@[simp] theorem State.modFab_glb (s : State) (f : FabricSt → FabricSt) : (s.modFab f).glb = s.glb := rfl
@[simp] theorem State.modFab_time (s : State) (f : FabricSt → FabricSt) : (s.modFab f).time = s.time := rfl
@[simp] theorem State.modFab_port (s : State) (f : FabricSt → FabricSt) : (s.modFab f).port = s.port := rfl
@[simp] theorem State.modFab_mem (s : State) (f : FabricSt → FabricSt) : (s.modFab f).mem = s.mem := rfl
@[simp] theorem State.modFab_rings (s : State) (f : FabricSt → FabricSt) : (s.modFab f).rings = s.rings := rfl
@[simp] theorem State.modFab_notifs (s : State) (f : FabricSt → FabricSt) : (s.modFab f).notifs = s.notifs := rfl
@[simp] theorem State.modFab_jobs (s : State) (f : FabricSt → FabricSt) : (s.modFab f).jobs = s.jobs := rfl
@[simp] theorem State.modFab_ctx (s : State) (f : FabricSt → FabricSt) : (s.modFab f).ctx = s.ctx := rfl
@[simp] theorem State.modFab_vault (s : State) (f : FabricSt → FabricSt) : (s.modFab f).vault = s.vault := rfl
@[simp] theorem State.modFab_dig (s : State) (f : FabricSt → FabricSt) : (s.modFab f).dig = s.dig := rfl
@[simp] theorem State.modFab_anv (s : State) (f : FabricSt → FabricSt) : (s.modFab f).anv = s.anv := rfl
@[simp] theorem State.modFab_cruc (s : State) (f : FabricSt → FabricSt) : (s.modFab f).cruc = s.cruc := rfl
@[simp] theorem State.modFab_str (s : State) (f : FabricSt → FabricSt) : (s.modFab f).str = s.str := rfl
@[simp] theorem State.modFab_sit (s : State) (f : FabricSt → FabricSt) : (s.modFab f).sit = s.sit := rfl
@[simp] theorem State.modFab_insts (s : State) (f : FabricSt → FabricSt) : (s.modFab f).insts = s.insts := rfl
@[simp] theorem State.modFab_tam (s : State) (f : FabricSt → FabricSt) : (s.modFab f).tam = s.tam := rfl
@[simp] theorem State.modFab_vigil (s : State) (f : FabricSt → FabricSt) : (s.modFab f).vigil = s.vigil := rfl
@[simp] theorem State.modFab_ory (s : State) (f : FabricSt → FabricSt) : (s.modFab f).ory = s.ory := rfl
@[simp] theorem State.modFab_ldg (s : State) (f : FabricSt → FabricSt) : (s.modFab f).ldg = s.ldg := rfl

/-! ### modInst -/

@[simp] theorem State.modInst_pending (s : State) (i : Nat) (f : Inst → Inst) : (s.modInst i f).pending = s.pending := rfl
@[simp] theorem State.modInst_freeCtr (s : State) (i : Nat) (f : Inst → Inst) : (s.modInst i f).freeCtr = s.freeCtr := rfl
@[simp] theorem State.modInst_life (s : State) (i : Nat) (f : Inst → Inst) : (s.modInst i f).life = s.life := rfl
@[simp] theorem State.modInst_silver (s : State) (i : Nat) (f : Inst → Inst) : (s.modInst i f).silver = s.silver := rfl
@[simp] theorem State.modInst_modes (s : State) (i : Nat) (f : Inst → Inst) : (s.modInst i f).modes = s.modes := rfl
@[simp] theorem State.modInst_glb (s : State) (i : Nat) (f : Inst → Inst) : (s.modInst i f).glb = s.glb := rfl
@[simp] theorem State.modInst_time (s : State) (i : Nat) (f : Inst → Inst) : (s.modInst i f).time = s.time := rfl
@[simp] theorem State.modInst_port (s : State) (i : Nat) (f : Inst → Inst) : (s.modInst i f).port = s.port := rfl
@[simp] theorem State.modInst_mem (s : State) (i : Nat) (f : Inst → Inst) : (s.modInst i f).mem = s.mem := rfl
@[simp] theorem State.modInst_rings (s : State) (i : Nat) (f : Inst → Inst) : (s.modInst i f).rings = s.rings := rfl
@[simp] theorem State.modInst_notifs (s : State) (i : Nat) (f : Inst → Inst) : (s.modInst i f).notifs = s.notifs := rfl
@[simp] theorem State.modInst_jobs (s : State) (i : Nat) (f : Inst → Inst) : (s.modInst i f).jobs = s.jobs := rfl
@[simp] theorem State.modInst_fab (s : State) (i : Nat) (f : Inst → Inst) : (s.modInst i f).fab = s.fab := rfl
@[simp] theorem State.modInst_ctx (s : State) (i : Nat) (f : Inst → Inst) : (s.modInst i f).ctx = s.ctx := rfl
@[simp] theorem State.modInst_vault (s : State) (i : Nat) (f : Inst → Inst) : (s.modInst i f).vault = s.vault := rfl
@[simp] theorem State.modInst_dig (s : State) (i : Nat) (f : Inst → Inst) : (s.modInst i f).dig = s.dig := rfl
@[simp] theorem State.modInst_anv (s : State) (i : Nat) (f : Inst → Inst) : (s.modInst i f).anv = s.anv := rfl
@[simp] theorem State.modInst_cruc (s : State) (i : Nat) (f : Inst → Inst) : (s.modInst i f).cruc = s.cruc := rfl
@[simp] theorem State.modInst_str (s : State) (i : Nat) (f : Inst → Inst) : (s.modInst i f).str = s.str := rfl
@[simp] theorem State.modInst_sit (s : State) (i : Nat) (f : Inst → Inst) : (s.modInst i f).sit = s.sit := rfl
@[simp] theorem State.modInst_tam (s : State) (i : Nat) (f : Inst → Inst) : (s.modInst i f).tam = s.tam := rfl
@[simp] theorem State.modInst_vigil (s : State) (i : Nat) (f : Inst → Inst) : (s.modInst i f).vigil = s.vigil := rfl
@[simp] theorem State.modInst_ory (s : State) (i : Nat) (f : Inst → Inst) : (s.modInst i f).ory = s.ory := rfl
@[simp] theorem State.modInst_ldg (s : State) (i : Nat) (f : Inst → Inst) : (s.modInst i f).ldg = s.ldg := rfl

/-! ### modRing -/

@[simp] theorem State.modRing_pending (s : State) (n : Nat) (f : Ring → Ring) : (s.modRing n f).pending = s.pending := rfl
@[simp] theorem State.modRing_freeCtr (s : State) (n : Nat) (f : Ring → Ring) : (s.modRing n f).freeCtr = s.freeCtr := rfl
@[simp] theorem State.modRing_life (s : State) (n : Nat) (f : Ring → Ring) : (s.modRing n f).life = s.life := rfl
@[simp] theorem State.modRing_silver (s : State) (n : Nat) (f : Ring → Ring) : (s.modRing n f).silver = s.silver := rfl
@[simp] theorem State.modRing_modes (s : State) (n : Nat) (f : Ring → Ring) : (s.modRing n f).modes = s.modes := rfl
@[simp] theorem State.modRing_glb (s : State) (n : Nat) (f : Ring → Ring) : (s.modRing n f).glb = s.glb := rfl
@[simp] theorem State.modRing_time (s : State) (n : Nat) (f : Ring → Ring) : (s.modRing n f).time = s.time := rfl
@[simp] theorem State.modRing_port (s : State) (n : Nat) (f : Ring → Ring) : (s.modRing n f).port = s.port := rfl
@[simp] theorem State.modRing_mem (s : State) (n : Nat) (f : Ring → Ring) : (s.modRing n f).mem = s.mem := rfl
@[simp] theorem State.modRing_notifs (s : State) (n : Nat) (f : Ring → Ring) : (s.modRing n f).notifs = s.notifs := rfl
@[simp] theorem State.modRing_jobs (s : State) (n : Nat) (f : Ring → Ring) : (s.modRing n f).jobs = s.jobs := rfl
@[simp] theorem State.modRing_fab (s : State) (n : Nat) (f : Ring → Ring) : (s.modRing n f).fab = s.fab := rfl
@[simp] theorem State.modRing_ctx (s : State) (n : Nat) (f : Ring → Ring) : (s.modRing n f).ctx = s.ctx := rfl
@[simp] theorem State.modRing_vault (s : State) (n : Nat) (f : Ring → Ring) : (s.modRing n f).vault = s.vault := rfl
@[simp] theorem State.modRing_dig (s : State) (n : Nat) (f : Ring → Ring) : (s.modRing n f).dig = s.dig := rfl
@[simp] theorem State.modRing_anv (s : State) (n : Nat) (f : Ring → Ring) : (s.modRing n f).anv = s.anv := rfl
@[simp] theorem State.modRing_cruc (s : State) (n : Nat) (f : Ring → Ring) : (s.modRing n f).cruc = s.cruc := rfl
@[simp] theorem State.modRing_str (s : State) (n : Nat) (f : Ring → Ring) : (s.modRing n f).str = s.str := rfl
@[simp] theorem State.modRing_sit (s : State) (n : Nat) (f : Ring → Ring) : (s.modRing n f).sit = s.sit := rfl
@[simp] theorem State.modRing_insts (s : State) (n : Nat) (f : Ring → Ring) : (s.modRing n f).insts = s.insts := rfl
@[simp] theorem State.modRing_tam (s : State) (n : Nat) (f : Ring → Ring) : (s.modRing n f).tam = s.tam := rfl
@[simp] theorem State.modRing_vigil (s : State) (n : Nat) (f : Ring → Ring) : (s.modRing n f).vigil = s.vigil := rfl
@[simp] theorem State.modRing_ory (s : State) (n : Nat) (f : Ring → Ring) : (s.modRing n f).ory = s.ory := rfl
@[simp] theorem State.modRing_ldg (s : State) (n : Nat) (f : Ring → Ring) : (s.modRing n f).ldg = s.ldg := rfl

/-! ### modNr -/

@[simp] theorem State.modNr_pending (s : State) (n : Nat) (f : Notif → Notif) : (s.modNr n f).pending = s.pending := rfl
@[simp] theorem State.modNr_freeCtr (s : State) (n : Nat) (f : Notif → Notif) : (s.modNr n f).freeCtr = s.freeCtr := rfl
@[simp] theorem State.modNr_life (s : State) (n : Nat) (f : Notif → Notif) : (s.modNr n f).life = s.life := rfl
@[simp] theorem State.modNr_silver (s : State) (n : Nat) (f : Notif → Notif) : (s.modNr n f).silver = s.silver := rfl
@[simp] theorem State.modNr_modes (s : State) (n : Nat) (f : Notif → Notif) : (s.modNr n f).modes = s.modes := rfl
@[simp] theorem State.modNr_glb (s : State) (n : Nat) (f : Notif → Notif) : (s.modNr n f).glb = s.glb := rfl
@[simp] theorem State.modNr_time (s : State) (n : Nat) (f : Notif → Notif) : (s.modNr n f).time = s.time := rfl
@[simp] theorem State.modNr_port (s : State) (n : Nat) (f : Notif → Notif) : (s.modNr n f).port = s.port := rfl
@[simp] theorem State.modNr_mem (s : State) (n : Nat) (f : Notif → Notif) : (s.modNr n f).mem = s.mem := rfl
@[simp] theorem State.modNr_rings (s : State) (n : Nat) (f : Notif → Notif) : (s.modNr n f).rings = s.rings := rfl
@[simp] theorem State.modNr_jobs (s : State) (n : Nat) (f : Notif → Notif) : (s.modNr n f).jobs = s.jobs := rfl
@[simp] theorem State.modNr_fab (s : State) (n : Nat) (f : Notif → Notif) : (s.modNr n f).fab = s.fab := rfl
@[simp] theorem State.modNr_ctx (s : State) (n : Nat) (f : Notif → Notif) : (s.modNr n f).ctx = s.ctx := rfl
@[simp] theorem State.modNr_vault (s : State) (n : Nat) (f : Notif → Notif) : (s.modNr n f).vault = s.vault := rfl
@[simp] theorem State.modNr_dig (s : State) (n : Nat) (f : Notif → Notif) : (s.modNr n f).dig = s.dig := rfl
@[simp] theorem State.modNr_anv (s : State) (n : Nat) (f : Notif → Notif) : (s.modNr n f).anv = s.anv := rfl
@[simp] theorem State.modNr_cruc (s : State) (n : Nat) (f : Notif → Notif) : (s.modNr n f).cruc = s.cruc := rfl
@[simp] theorem State.modNr_str (s : State) (n : Nat) (f : Notif → Notif) : (s.modNr n f).str = s.str := rfl
@[simp] theorem State.modNr_sit (s : State) (n : Nat) (f : Notif → Notif) : (s.modNr n f).sit = s.sit := rfl
@[simp] theorem State.modNr_insts (s : State) (n : Nat) (f : Notif → Notif) : (s.modNr n f).insts = s.insts := rfl
@[simp] theorem State.modNr_tam (s : State) (n : Nat) (f : Notif → Notif) : (s.modNr n f).tam = s.tam := rfl
@[simp] theorem State.modNr_vigil (s : State) (n : Nat) (f : Notif → Notif) : (s.modNr n f).vigil = s.vigil := rfl
@[simp] theorem State.modNr_ory (s : State) (n : Nat) (f : Notif → Notif) : (s.modNr n f).ory = s.ory := rfl
@[simp] theorem State.modNr_ldg (s : State) (n : Nat) (f : Notif → Notif) : (s.modNr n f).ldg = s.ldg := rfl

/-! ### modCtx -/

@[simp] theorem State.modCtx_pending (s : State) (e : Nat) (f : Ctx → Ctx) : (s.modCtx e f).pending = s.pending := rfl
@[simp] theorem State.modCtx_freeCtr (s : State) (e : Nat) (f : Ctx → Ctx) : (s.modCtx e f).freeCtr = s.freeCtr := rfl
@[simp] theorem State.modCtx_life (s : State) (e : Nat) (f : Ctx → Ctx) : (s.modCtx e f).life = s.life := rfl
@[simp] theorem State.modCtx_silver (s : State) (e : Nat) (f : Ctx → Ctx) : (s.modCtx e f).silver = s.silver := rfl
@[simp] theorem State.modCtx_modes (s : State) (e : Nat) (f : Ctx → Ctx) : (s.modCtx e f).modes = s.modes := rfl
@[simp] theorem State.modCtx_glb (s : State) (e : Nat) (f : Ctx → Ctx) : (s.modCtx e f).glb = s.glb := rfl
@[simp] theorem State.modCtx_time (s : State) (e : Nat) (f : Ctx → Ctx) : (s.modCtx e f).time = s.time := rfl
@[simp] theorem State.modCtx_port (s : State) (e : Nat) (f : Ctx → Ctx) : (s.modCtx e f).port = s.port := rfl
@[simp] theorem State.modCtx_mem (s : State) (e : Nat) (f : Ctx → Ctx) : (s.modCtx e f).mem = s.mem := rfl
@[simp] theorem State.modCtx_rings (s : State) (e : Nat) (f : Ctx → Ctx) : (s.modCtx e f).rings = s.rings := rfl
@[simp] theorem State.modCtx_notifs (s : State) (e : Nat) (f : Ctx → Ctx) : (s.modCtx e f).notifs = s.notifs := rfl
@[simp] theorem State.modCtx_jobs (s : State) (e : Nat) (f : Ctx → Ctx) : (s.modCtx e f).jobs = s.jobs := rfl
@[simp] theorem State.modCtx_fab (s : State) (e : Nat) (f : Ctx → Ctx) : (s.modCtx e f).fab = s.fab := rfl
@[simp] theorem State.modCtx_vault (s : State) (e : Nat) (f : Ctx → Ctx) : (s.modCtx e f).vault = s.vault := rfl
@[simp] theorem State.modCtx_dig (s : State) (e : Nat) (f : Ctx → Ctx) : (s.modCtx e f).dig = s.dig := rfl
@[simp] theorem State.modCtx_anv (s : State) (e : Nat) (f : Ctx → Ctx) : (s.modCtx e f).anv = s.anv := rfl
@[simp] theorem State.modCtx_cruc (s : State) (e : Nat) (f : Ctx → Ctx) : (s.modCtx e f).cruc = s.cruc := rfl
@[simp] theorem State.modCtx_str (s : State) (e : Nat) (f : Ctx → Ctx) : (s.modCtx e f).str = s.str := rfl
@[simp] theorem State.modCtx_sit (s : State) (e : Nat) (f : Ctx → Ctx) : (s.modCtx e f).sit = s.sit := rfl
@[simp] theorem State.modCtx_insts (s : State) (e : Nat) (f : Ctx → Ctx) : (s.modCtx e f).insts = s.insts := rfl
@[simp] theorem State.modCtx_tam (s : State) (e : Nat) (f : Ctx → Ctx) : (s.modCtx e f).tam = s.tam := rfl
@[simp] theorem State.modCtx_vigil (s : State) (e : Nat) (f : Ctx → Ctx) : (s.modCtx e f).vigil = s.vigil := rfl
@[simp] theorem State.modCtx_ory (s : State) (e : Nat) (f : Ctx → Ctx) : (s.modCtx e f).ory = s.ory := rfl
@[simp] theorem State.modCtx_ldg (s : State) (e : Nat) (f : Ctx → Ctx) : (s.modCtx e f).ldg = s.ldg := rfl

/-! ### modJob -/

@[simp] theorem State.modJob_pending (s : State) (t : Nat) (f : Job → Job) : (s.modJob t f).pending = s.pending := rfl
@[simp] theorem State.modJob_freeCtr (s : State) (t : Nat) (f : Job → Job) : (s.modJob t f).freeCtr = s.freeCtr := rfl
@[simp] theorem State.modJob_life (s : State) (t : Nat) (f : Job → Job) : (s.modJob t f).life = s.life := rfl
@[simp] theorem State.modJob_silver (s : State) (t : Nat) (f : Job → Job) : (s.modJob t f).silver = s.silver := rfl
@[simp] theorem State.modJob_modes (s : State) (t : Nat) (f : Job → Job) : (s.modJob t f).modes = s.modes := rfl
@[simp] theorem State.modJob_glb (s : State) (t : Nat) (f : Job → Job) : (s.modJob t f).glb = s.glb := rfl
@[simp] theorem State.modJob_time (s : State) (t : Nat) (f : Job → Job) : (s.modJob t f).time = s.time := rfl
@[simp] theorem State.modJob_port (s : State) (t : Nat) (f : Job → Job) : (s.modJob t f).port = s.port := rfl
@[simp] theorem State.modJob_mem (s : State) (t : Nat) (f : Job → Job) : (s.modJob t f).mem = s.mem := rfl
@[simp] theorem State.modJob_rings (s : State) (t : Nat) (f : Job → Job) : (s.modJob t f).rings = s.rings := rfl
@[simp] theorem State.modJob_notifs (s : State) (t : Nat) (f : Job → Job) : (s.modJob t f).notifs = s.notifs := rfl
@[simp] theorem State.modJob_fab (s : State) (t : Nat) (f : Job → Job) : (s.modJob t f).fab = s.fab := rfl
@[simp] theorem State.modJob_ctx (s : State) (t : Nat) (f : Job → Job) : (s.modJob t f).ctx = s.ctx := rfl
@[simp] theorem State.modJob_vault (s : State) (t : Nat) (f : Job → Job) : (s.modJob t f).vault = s.vault := rfl
@[simp] theorem State.modJob_dig (s : State) (t : Nat) (f : Job → Job) : (s.modJob t f).dig = s.dig := rfl
@[simp] theorem State.modJob_anv (s : State) (t : Nat) (f : Job → Job) : (s.modJob t f).anv = s.anv := rfl
@[simp] theorem State.modJob_cruc (s : State) (t : Nat) (f : Job → Job) : (s.modJob t f).cruc = s.cruc := rfl
@[simp] theorem State.modJob_str (s : State) (t : Nat) (f : Job → Job) : (s.modJob t f).str = s.str := rfl
@[simp] theorem State.modJob_sit (s : State) (t : Nat) (f : Job → Job) : (s.modJob t f).sit = s.sit := rfl
@[simp] theorem State.modJob_insts (s : State) (t : Nat) (f : Job → Job) : (s.modJob t f).insts = s.insts := rfl
@[simp] theorem State.modJob_tam (s : State) (t : Nat) (f : Job → Job) : (s.modJob t f).tam = s.tam := rfl
@[simp] theorem State.modJob_vigil (s : State) (t : Nat) (f : Job → Job) : (s.modJob t f).vigil = s.vigil := rfl
@[simp] theorem State.modJob_ory (s : State) (t : Nat) (f : Job → Job) : (s.modJob t f).ory = s.ory := rfl
@[simp] theorem State.modJob_ldg (s : State) (t : Nat) (f : Job → Job) : (s.modJob t f).ldg = s.ldg := rfl

/-! ### modForge -/

@[simp] theorem State.modForge_pending (s : State) (m : Nat) (f : Forge → Forge) : (s.modForge m f).pending = s.pending := rfl
@[simp] theorem State.modForge_freeCtr (s : State) (m : Nat) (f : Forge → Forge) : (s.modForge m f).freeCtr = s.freeCtr := rfl
@[simp] theorem State.modForge_life (s : State) (m : Nat) (f : Forge → Forge) : (s.modForge m f).life = s.life := rfl
@[simp] theorem State.modForge_silver (s : State) (m : Nat) (f : Forge → Forge) : (s.modForge m f).silver = s.silver := rfl
@[simp] theorem State.modForge_modes (s : State) (m : Nat) (f : Forge → Forge) : (s.modForge m f).modes = s.modes := rfl
@[simp] theorem State.modForge_glb (s : State) (m : Nat) (f : Forge → Forge) : (s.modForge m f).glb = s.glb := rfl
@[simp] theorem State.modForge_time (s : State) (m : Nat) (f : Forge → Forge) : (s.modForge m f).time = s.time := rfl
@[simp] theorem State.modForge_port (s : State) (m : Nat) (f : Forge → Forge) : (s.modForge m f).port = s.port := rfl
@[simp] theorem State.modForge_mem (s : State) (m : Nat) (f : Forge → Forge) : (s.modForge m f).mem = s.mem := rfl
@[simp] theorem State.modForge_rings (s : State) (m : Nat) (f : Forge → Forge) : (s.modForge m f).rings = s.rings := rfl
@[simp] theorem State.modForge_notifs (s : State) (m : Nat) (f : Forge → Forge) : (s.modForge m f).notifs = s.notifs := rfl
@[simp] theorem State.modForge_jobs (s : State) (m : Nat) (f : Forge → Forge) : (s.modForge m f).jobs = s.jobs := rfl
@[simp] theorem State.modForge_ctx (s : State) (m : Nat) (f : Forge → Forge) : (s.modForge m f).ctx = s.ctx := rfl
@[simp] theorem State.modForge_vault (s : State) (m : Nat) (f : Forge → Forge) : (s.modForge m f).vault = s.vault := rfl
@[simp] theorem State.modForge_dig (s : State) (m : Nat) (f : Forge → Forge) : (s.modForge m f).dig = s.dig := rfl
@[simp] theorem State.modForge_anv (s : State) (m : Nat) (f : Forge → Forge) : (s.modForge m f).anv = s.anv := rfl
@[simp] theorem State.modForge_cruc (s : State) (m : Nat) (f : Forge → Forge) : (s.modForge m f).cruc = s.cruc := rfl
@[simp] theorem State.modForge_str (s : State) (m : Nat) (f : Forge → Forge) : (s.modForge m f).str = s.str := rfl
@[simp] theorem State.modForge_sit (s : State) (m : Nat) (f : Forge → Forge) : (s.modForge m f).sit = s.sit := rfl
@[simp] theorem State.modForge_insts (s : State) (m : Nat) (f : Forge → Forge) : (s.modForge m f).insts = s.insts := rfl
@[simp] theorem State.modForge_tam (s : State) (m : Nat) (f : Forge → Forge) : (s.modForge m f).tam = s.tam := rfl
@[simp] theorem State.modForge_vigil (s : State) (m : Nat) (f : Forge → Forge) : (s.modForge m f).vigil = s.vigil := rfl
@[simp] theorem State.modForge_ory (s : State) (m : Nat) (f : Forge → Forge) : (s.modForge m f).ory = s.ory := rfl
@[simp] theorem State.modForge_ldg (s : State) (m : Nat) (f : Forge → Forge) : (s.modForge m f).ldg = s.ldg := rfl

/-! ### modLane -/

@[simp] theorem State.modLane_pending (s : State) (n : Nat) (f : Lane → Lane) : (s.modLane n f).pending = s.pending := rfl
@[simp] theorem State.modLane_freeCtr (s : State) (n : Nat) (f : Lane → Lane) : (s.modLane n f).freeCtr = s.freeCtr := rfl
@[simp] theorem State.modLane_life (s : State) (n : Nat) (f : Lane → Lane) : (s.modLane n f).life = s.life := rfl
@[simp] theorem State.modLane_silver (s : State) (n : Nat) (f : Lane → Lane) : (s.modLane n f).silver = s.silver := rfl
@[simp] theorem State.modLane_modes (s : State) (n : Nat) (f : Lane → Lane) : (s.modLane n f).modes = s.modes := rfl
@[simp] theorem State.modLane_glb (s : State) (n : Nat) (f : Lane → Lane) : (s.modLane n f).glb = s.glb := rfl
@[simp] theorem State.modLane_time (s : State) (n : Nat) (f : Lane → Lane) : (s.modLane n f).time = s.time := rfl
@[simp] theorem State.modLane_port (s : State) (n : Nat) (f : Lane → Lane) : (s.modLane n f).port = s.port := rfl
@[simp] theorem State.modLane_mem (s : State) (n : Nat) (f : Lane → Lane) : (s.modLane n f).mem = s.mem := rfl
@[simp] theorem State.modLane_rings (s : State) (n : Nat) (f : Lane → Lane) : (s.modLane n f).rings = s.rings := rfl
@[simp] theorem State.modLane_notifs (s : State) (n : Nat) (f : Lane → Lane) : (s.modLane n f).notifs = s.notifs := rfl
@[simp] theorem State.modLane_jobs (s : State) (n : Nat) (f : Lane → Lane) : (s.modLane n f).jobs = s.jobs := rfl
@[simp] theorem State.modLane_ctx (s : State) (n : Nat) (f : Lane → Lane) : (s.modLane n f).ctx = s.ctx := rfl
@[simp] theorem State.modLane_vault (s : State) (n : Nat) (f : Lane → Lane) : (s.modLane n f).vault = s.vault := rfl
@[simp] theorem State.modLane_dig (s : State) (n : Nat) (f : Lane → Lane) : (s.modLane n f).dig = s.dig := rfl
@[simp] theorem State.modLane_anv (s : State) (n : Nat) (f : Lane → Lane) : (s.modLane n f).anv = s.anv := rfl
@[simp] theorem State.modLane_cruc (s : State) (n : Nat) (f : Lane → Lane) : (s.modLane n f).cruc = s.cruc := rfl
@[simp] theorem State.modLane_str (s : State) (n : Nat) (f : Lane → Lane) : (s.modLane n f).str = s.str := rfl
@[simp] theorem State.modLane_sit (s : State) (n : Nat) (f : Lane → Lane) : (s.modLane n f).sit = s.sit := rfl
@[simp] theorem State.modLane_insts (s : State) (n : Nat) (f : Lane → Lane) : (s.modLane n f).insts = s.insts := rfl
@[simp] theorem State.modLane_tam (s : State) (n : Nat) (f : Lane → Lane) : (s.modLane n f).tam = s.tam := rfl
@[simp] theorem State.modLane_vigil (s : State) (n : Nat) (f : Lane → Lane) : (s.modLane n f).vigil = s.vigil := rfl
@[simp] theorem State.modLane_ory (s : State) (n : Nat) (f : Lane → Lane) : (s.modLane n f).ory = s.ory := rfl
@[simp] theorem State.modLane_ldg (s : State) (n : Nat) (f : Lane → Lane) : (s.modLane n f).ldg = s.ldg := rfl

/-! ### modPol -/

@[simp] theorem State.modPol_pending (s : State) (v p : Nat) (f : Policer → Policer) : (s.modPol v p f).pending = s.pending := rfl
@[simp] theorem State.modPol_freeCtr (s : State) (v p : Nat) (f : Policer → Policer) : (s.modPol v p f).freeCtr = s.freeCtr := rfl
@[simp] theorem State.modPol_life (s : State) (v p : Nat) (f : Policer → Policer) : (s.modPol v p f).life = s.life := rfl
@[simp] theorem State.modPol_silver (s : State) (v p : Nat) (f : Policer → Policer) : (s.modPol v p f).silver = s.silver := rfl
@[simp] theorem State.modPol_modes (s : State) (v p : Nat) (f : Policer → Policer) : (s.modPol v p f).modes = s.modes := rfl
@[simp] theorem State.modPol_glb (s : State) (v p : Nat) (f : Policer → Policer) : (s.modPol v p f).glb = s.glb := rfl
@[simp] theorem State.modPol_time (s : State) (v p : Nat) (f : Policer → Policer) : (s.modPol v p f).time = s.time := rfl
@[simp] theorem State.modPol_port (s : State) (v p : Nat) (f : Policer → Policer) : (s.modPol v p f).port = s.port := rfl
@[simp] theorem State.modPol_mem (s : State) (v p : Nat) (f : Policer → Policer) : (s.modPol v p f).mem = s.mem := rfl
@[simp] theorem State.modPol_rings (s : State) (v p : Nat) (f : Policer → Policer) : (s.modPol v p f).rings = s.rings := rfl
@[simp] theorem State.modPol_notifs (s : State) (v p : Nat) (f : Policer → Policer) : (s.modPol v p f).notifs = s.notifs := rfl
@[simp] theorem State.modPol_jobs (s : State) (v p : Nat) (f : Policer → Policer) : (s.modPol v p f).jobs = s.jobs := rfl
@[simp] theorem State.modPol_fab (s : State) (v p : Nat) (f : Policer → Policer) : (s.modPol v p f).fab = s.fab := rfl
@[simp] theorem State.modPol_ctx (s : State) (v p : Nat) (f : Policer → Policer) : (s.modPol v p f).ctx = s.ctx := rfl
@[simp] theorem State.modPol_vault (s : State) (v p : Nat) (f : Policer → Policer) : (s.modPol v p f).vault = s.vault := rfl
@[simp] theorem State.modPol_dig (s : State) (v p : Nat) (f : Policer → Policer) : (s.modPol v p f).dig = s.dig := rfl
@[simp] theorem State.modPol_anv (s : State) (v p : Nat) (f : Policer → Policer) : (s.modPol v p f).anv = s.anv := rfl
@[simp] theorem State.modPol_cruc (s : State) (v p : Nat) (f : Policer → Policer) : (s.modPol v p f).cruc = s.cruc := rfl
@[simp] theorem State.modPol_sit (s : State) (v p : Nat) (f : Policer → Policer) : (s.modPol v p f).sit = s.sit := rfl
@[simp] theorem State.modPol_insts (s : State) (v p : Nat) (f : Policer → Policer) : (s.modPol v p f).insts = s.insts := rfl
@[simp] theorem State.modPol_tam (s : State) (v p : Nat) (f : Policer → Policer) : (s.modPol v p f).tam = s.tam := rfl
@[simp] theorem State.modPol_vigil (s : State) (v p : Nat) (f : Policer → Policer) : (s.modPol v p f).vigil = s.vigil := rfl
@[simp] theorem State.modPol_ory (s : State) (v p : Nat) (f : Policer → Policer) : (s.modPol v p f).ory = s.ory := rfl
@[simp] theorem State.modPol_ldg (s : State) (v p : Nat) (f : Policer → Policer) : (s.modPol v p f).ldg = s.ldg := rfl

/-! ### Stream ports, host memory ports and policers, read back -/

@[simp] theorem State.sp_modSp (s : State) (p : Nat) (f : StreamSt → StreamSt) : (s.modSp p f).sp p = f (s.sp p) := by
  unfold State.sp State.modSp State.modStr
  by_cases h : p = 0 <;> simp [h]

@[simp] theorem State.hmp_modHmp (s : State) (k : Nat) (f : HmpSt → HmpSt) : (s.modHmp k f).hmp k = f (s.hmp k) := by
  unfold State.hmp State.modHmp State.modMem
  by_cases h : k = 0 <;> simp [h]

end Sys2Proof.Machine
end

