-- ==== Sys2Proof/Laws/Access.lean ====
section
/-! SUPPORT. A transfer of the register port that is up: what `rapDo` and `rapRead` do there, and what answering leaves alone. -/

namespace Sys2Proof.Machine

theorem State.portUp_iff (s : State) : s.portUp = true ↔ powered s = true ∧ s.modes.halted = false := by
  simp [State.portUp]

theorem State.takes_iff (s : State) (addr : Nat) (v : RapWord) :
    s.takes addr v = true ↔ s.portUp = true ∧ rapIcBad s addr v = false := by
  simp [State.takes]

/-- A write that the port takes acts on the state with RAP_ERR low. -/
theorem rapDo_takes {s : State} {addr : Nat} {v : RapWord} (h : s.takes addr v = true) (f : State → State) :
    rapDo addr v f s = f (s.answered .rap) := by
  obtain ⟨h0, h3⟩ := (s.takes_iff addr v).mp h
  obtain ⟨h1, h2⟩ := s.portUp_iff.mp h0
  have h4 : rapIcBad (s.modPort fun p => { p with rapErr := false }) addr v = false := h3
  simp [rapDo, rapOpen, h1, h2, h4, State.answered]

/-- A write taken through either path acts on the state as that path finds it. -/
theorem pathDo_takes {s : State} {path : Path} {addr : Nat} {v : RapWord} (h : s.pathTakes path addr v = true)
    (f : State → State) : pathDo path addr v f s = f (s.answered path) := by
  cases path with
  | rap => exact rapDo_takes h f
  | i3c =>
    obtain ⟨h1, h2⟩ := s.portUp_iff.mp h
    simp [pathDo, i3cTake, h1, h2, State.answered]

/-- A read of a port that is up, of a word that passes its check inside the block, gives its word with RAP_ERR low. -/
theorem rapRead_portUp {s : State} (h : s.portUp = true) (addr : Nat) (f : State → State × Nat) :
    rapRead addr true f s = rapAnswer addr false (f s).2 (f s).1 := by
  obtain ⟨h1, h2⟩ := s.portUp_iff.mp h
  simp [rapRead, h1, h2]

/-- A read by the I3C target within its range gives its word. -/
theorem i3cRead_portUp {s : State} (h : s.portUp = true) {addr : Nat} (ha : addr ≤ 0xFFF) (f : State → State × Nat) :
    i3cRead addr f s = (f s).1.modPort fun p => { p with i3cOut := [word (f s).2] } := by
  obtain ⟨h1, h2⟩ := s.portUp_iff.mp h
  have : ¬ addr > 0xFFF := by omega
  simp [i3cRead, i3cWord, h1, h2, this]

@[simp] theorem State.answered_pending (s : State) (path : Path) : (s.answered path).pending = s.pending := by cases path <;> rfl
@[simp] theorem State.answered_freeCtr (s : State) (path : Path) : (s.answered path).freeCtr = s.freeCtr := by cases path <;> rfl
@[simp] theorem State.answered_life (s : State) (path : Path) : (s.answered path).life = s.life := by cases path <;> rfl
@[simp] theorem State.answered_silver (s : State) (path : Path) : (s.answered path).silver = s.silver := by cases path <;> rfl
@[simp] theorem State.answered_modes (s : State) (path : Path) : (s.answered path).modes = s.modes := by cases path <;> rfl
@[simp] theorem State.answered_glb (s : State) (path : Path) : (s.answered path).glb = s.glb := by cases path <;> rfl
@[simp] theorem State.answered_time (s : State) (path : Path) : (s.answered path).time = s.time := by cases path <;> rfl
@[simp] theorem State.answered_mem (s : State) (path : Path) : (s.answered path).mem = s.mem := by cases path <;> rfl
@[simp] theorem State.answered_rings (s : State) (path : Path) : (s.answered path).rings = s.rings := by cases path <;> rfl
@[simp] theorem State.answered_notifs (s : State) (path : Path) : (s.answered path).notifs = s.notifs := by cases path <;> rfl
@[simp] theorem State.answered_jobs (s : State) (path : Path) : (s.answered path).jobs = s.jobs := by cases path <;> rfl
@[simp] theorem State.answered_fab (s : State) (path : Path) : (s.answered path).fab = s.fab := by cases path <;> rfl
@[simp] theorem State.answered_ctx (s : State) (path : Path) : (s.answered path).ctx = s.ctx := by cases path <;> rfl
@[simp] theorem State.answered_vault (s : State) (path : Path) : (s.answered path).vault = s.vault := by cases path <;> rfl
@[simp] theorem State.answered_dig (s : State) (path : Path) : (s.answered path).dig = s.dig := by cases path <;> rfl
@[simp] theorem State.answered_anv (s : State) (path : Path) : (s.answered path).anv = s.anv := by cases path <;> rfl
@[simp] theorem State.answered_cruc (s : State) (path : Path) : (s.answered path).cruc = s.cruc := by cases path <;> rfl
@[simp] theorem State.answered_str (s : State) (path : Path) : (s.answered path).str = s.str := by cases path <;> rfl
@[simp] theorem State.answered_sit (s : State) (path : Path) : (s.answered path).sit = s.sit := by cases path <;> rfl
@[simp] theorem State.answered_insts (s : State) (path : Path) : (s.answered path).insts = s.insts := by cases path <;> rfl
@[simp] theorem State.answered_tam (s : State) (path : Path) : (s.answered path).tam = s.tam := by cases path <;> rfl
@[simp] theorem State.answered_vigil (s : State) (path : Path) : (s.answered path).vigil = s.vigil := by cases path <;> rfl
@[simp] theorem State.answered_ory (s : State) (path : Path) : (s.answered path).ory = s.ory := by cases path <;> rfl
@[simp] theorem State.answered_ldg (s : State) (path : Path) : (s.answered path).ldg = s.ldg := by cases path <;> rfl
@[simp] theorem State.answered_inst (s : State) (path : Path) (n : Nat) : (s.answered path).inst n = s.inst n := by
  cases path <;> rfl
@[simp] theorem State.answered_ring (s : State) (path : Path) (n : Nat) : (s.answered path).ring n = s.ring n := by cases path <;> rfl
@[simp] theorem State.answered_nr (s : State) (path : Path) (n : Nat) : (s.answered path).nr n = s.nr n := by cases path <;> rfl
@[simp] theorem State.answered_jobAt (s : State) (path : Path) (n : Nat) : (s.answered path).job? n = s.job? n := by cases path <;> rfl
@[simp] theorem State.answered_forge (s : State) (path : Path) (n : Nat) : (s.answered path).forge n = s.forge n := by cases path <;> rfl
@[simp] theorem State.answered_lane (s : State) (path : Path) (n : Nat) : (s.answered path).lane n = s.lane n := by cases path <;> rfl
@[simp] theorem State.answered_sp (s : State) (path : Path) (n : Nat) : (s.answered path).sp n = s.sp n := by cases path <;> rfl
@[simp] theorem State.answered_hmp (s : State) (path : Path) (n : Nat) : (s.answered path).hmp n = s.hmp n := by cases path <;> rfl
@[simp] theorem State.answered_ctxAt (s : State) (path : Path) (n : Nat) : (s.answered path).ctxAt n = s.ctxAt n := by cases path <;> rfl
@[simp] theorem State.answered_pol (s : State) (path : Path) (v p : Nat) : (s.answered path).pol v p = s.pol v p := by cases path <;> rfl
@[simp] theorem now_answered (s : State) (path : Path) : now (s.answered path) = now s := by cases path <;> rfl

end Sys2Proof.Machine
end

