-- ==== Sys2Proof/Laws/Keep.lean ====
section
/-! SUPPORT. The part of the state that only the lifecycle and Boot change, and how it passes through updates, choices and
folds. -/

namespace Sys2Proof.Laws
open Sys2Proof Sys2Proof.Machine

/-- The part of the state that only the lifecycle and Boot change: the queue, the lifecycle fuses and the Silver root fuses. -/
structure Lasting where
  pending : List Instr
  life : Lifecycle
  silver : Option (List Byte)

end Sys2Proof.Laws

namespace Sys2Proof.Machine
open Sys2Proof.Laws

/-- The kept part of a state. -/
def State.keep (s : State) : Lasting := { pending := s.pending, life := s.life, silver := s.silver }

@[simp] theorem keep_mk (a1 : List Instr) (a2 : Nat) (a3 : Lifecycle) (a4 : Option (List Byte)) (a5 : ModeSt) (a6 : GlbSt)
    (a7 : TimeSt) (a8 : PortSt) (a9 : MemSt) (b1 : Tbl Ring) (b2 : Tbl Notif) (b3 : List Job) (b4 : FabricSt) (b5 : Tbl Ctx)
    (b6 : VaultSt) (b7 : DigestSt) (b8 : AnvilSt) (b9 : CrucSt) (c1 : StreamsSt) (c2 : SitShared) (c3 : Tbl Inst) (c4 : TamperSt)
    (c5 : VigilSt) (c6 : OrrerySt) (c7 : LedgerSt) :
    State.keep ⟨a1, a2, a3, a4, a5, a6, a7, a8, a9, b1, b2, b3, b4, b5, b6, b7, b8, b9, c1, c2, c3, c4, c5, c6, c7⟩ = ⟨a1, a3, a4⟩ := rfl

@[simp] theorem keep_eta (s : State) : Lasting.mk s.pending s.life s.silver = s.keep := rfl

@[simp] theorem keep_ite (c : Prop) [Decidable c] (a b : State) :
    State.keep (if c then a else b) = if c then a.keep else b.keep := by split <;> rfl

@[simp] theorem keep_foldl {α : Type} (g : State → α → State) (h : ∀ t x, (g t x).keep = t.keep) (l : List α) (s : State) :
    (l.foldl g s).keep = s.keep := by
  induction l generalizing s with
  | nil => rfl
  | cons x l ih => rw [List.foldl_cons, ih, h]

end Sys2Proof.Machine
end

