-- ==== Sys2Proof/Laws/KeepCore.lean ====
section
/-! SUPPORT. The shared operations leave the queue of commands, the lifecycle fuses and the Silver root fuses as they are:
one lemma for each, by the lemmas of what it calls. -/

namespace Sys2Proof.Machine
open Sys2Proof.Laws

@[simp] theorem State.setInst_keep (s : State) (i : Nat) (v : Inst) : (State.setInst s i v).keep = s.keep := by
  unfold State.setInst
  simp

@[simp] theorem State.modInst_keep (s : State) (i : Nat) (f : Inst → Inst) : (State.modInst s i f).keep = s.keep := by
  unfold State.modInst
  simp

@[simp] theorem State.setRing_keep (s : State) (r : Nat) (v : Ring) : (State.setRing s r v).keep = s.keep := by
  unfold State.setRing
  simp

@[simp] theorem State.modRing_keep (s : State) (r : Nat) (f : Ring → Ring) : (State.modRing s r f).keep = s.keep := by
  unfold State.modRing
  simp

@[simp] theorem State.setNr_keep (s : State) (n : Nat) (v : Notif) : (State.setNr s n v).keep = s.keep := by
  unfold State.setNr
  simp

@[simp] theorem State.modNr_keep (s : State) (n : Nat) (f : Notif → Notif) : (State.modNr s n f).keep = s.keep := by
  unfold State.modNr
  simp

@[simp] theorem State.modJob_keep (s : State) (t : Nat) (f : Job → Job) : (State.modJob s t f).keep = s.keep := by
  unfold State.modJob
  simp

@[simp] theorem State.dropJob_keep (s : State) (t : Nat) : (State.dropJob s t).keep = s.keep := by
  unfold State.dropJob
  simp

@[simp] theorem State.setCtx_keep (s : State) (e : Nat) (c : Ctx) : (State.setCtx s e c).keep = s.keep := by
  unfold State.setCtx
  simp

@[simp] theorem State.modCtx_keep (s : State) (e : Nat) (f : Ctx → Ctx) : (State.modCtx s e f).keep = s.keep := by
  unfold State.modCtx
  simp

@[simp] theorem State.modFab_keep (s : State) (f : FabricSt → FabricSt) : (State.modFab s f).keep = s.keep := by
  unfold State.modFab
  simp

@[simp] theorem State.modForge_keep (s : State) (m : Nat) (f : Forge → Forge) : (State.modForge s m f).keep = s.keep := by
  unfold State.modForge
  simp

@[simp] theorem State.modLane_keep (s : State) (n : Nat) (f : Lane → Lane) : (State.modLane s n f).keep = s.keep := by
  unfold State.modLane
  simp

@[simp] theorem State.modPort_keep (s : State) (f : PortSt → PortSt) : (State.modPort s f).keep = s.keep := by
  unfold State.modPort
  simp

@[simp] theorem State.modModes_keep (s : State) (f : ModeSt → ModeSt) : (State.modModes s f).keep = s.keep := by
  unfold State.modModes
  simp

@[simp] theorem State.modGlb_keep (s : State) (f : GlbSt → GlbSt) : (State.modGlb s f).keep = s.keep := by
  unfold State.modGlb
  simp

@[simp] theorem State.modTime_keep (s : State) (f : TimeSt → TimeSt) : (State.modTime s f).keep = s.keep := by
  unfold State.modTime
  simp

@[simp] theorem State.modMem_keep (s : State) (f : MemSt → MemSt) : (State.modMem s f).keep = s.keep := by
  unfold State.modMem
  simp

@[simp] theorem State.modVault_keep (s : State) (f : VaultSt → VaultSt) : (State.modVault s f).keep = s.keep := by
  unfold State.modVault
  simp

@[simp] theorem State.modDig_keep (s : State) (f : DigestSt → DigestSt) : (State.modDig s f).keep = s.keep := by
  unfold State.modDig
  simp

@[simp] theorem State.modAnv_keep (s : State) (f : AnvilSt → AnvilSt) : (State.modAnv s f).keep = s.keep := by
  unfold State.modAnv
  simp

@[simp] theorem State.modCruc_keep (s : State) (f : CrucSt → CrucSt) : (State.modCruc s f).keep = s.keep := by
  unfold State.modCruc
  simp

@[simp] theorem State.modStr_keep (s : State) (f : StreamsSt → StreamsSt) : (State.modStr s f).keep = s.keep := by
  unfold State.modStr
  simp

@[simp] theorem State.modSit_keep (s : State) (f : SitShared → SitShared) : (State.modSit s f).keep = s.keep := by
  unfold State.modSit
  simp

@[simp] theorem State.modTam_keep (s : State) (f : TamperSt → TamperSt) : (State.modTam s f).keep = s.keep := by
  unfold State.modTam
  simp

@[simp] theorem State.modVigil_keep (s : State) (f : VigilSt → VigilSt) : (State.modVigil s f).keep = s.keep := by
  unfold State.modVigil
  simp

@[simp] theorem State.modOry_keep (s : State) (f : OrrerySt → OrrerySt) : (State.modOry s f).keep = s.keep := by
  unfold State.modOry
  simp

@[simp] theorem State.modLdg_keep (s : State) (f : LedgerSt → LedgerSt) : (State.modLdg s f).keep = s.keep := by
  unfold State.modLdg
  simp

@[simp] theorem State.modBlw_keep (s : State) (f : Bellows → Bellows) : (State.modBlw s f).keep = s.keep := by
  unfold State.modBlw
  simp

@[simp] theorem State.modSp_keep (s : State) (p : Nat) (f : StreamSt → StreamSt) : (State.modSp s p f).keep = s.keep := by
  unfold State.modSp
  simp

@[simp] theorem State.modPol_keep (s : State) (v p : Nat) (f : Policer → Policer) :
    (State.modPol s v p f).keep = s.keep := by
  unfold State.modPol
  simp

@[simp] theorem State.modHmp_keep (s : State) (k : Nat) (f : HmpSt → HmpSt) : (State.modHmp s k f).keep = s.keep := by
  unfold State.modHmp
  simp

@[simp] theorem portFault_keep (bits : Nat) (s : State) : (portFault bits s).keep = s.keep := by
  unfold portFault
  simp

@[simp] theorem drawn_keep (n : Nat) (s : State) : (drawn n s).keep = s.keep := by
  unfold drawn
  simp

@[simp] theorem ledgerLog_keep (e : LogEnt) (s : State) : (ledgerLog e s).keep = s.keep := by
  unfold ledgerLog
  simp

@[simp] theorem logEvent_keep (cls code arg : Nat) (s : State) : (logEvent cls code arg s).keep = s.keep := by
  unfold logEvent
  simp

@[simp] theorem drainEvents_keep (s : State) : (drainEvents s).keep = s.keep := by
  unfold drainEvents
  simp

@[simp] theorem raiseIbi_keep (s : State) : (raiseIbi s).keep = s.keep := by
  unfold raiseIbi
  simp

@[simp] theorem pushAcc_keep (a : Access) (s : State) : (pushAcc a s).keep = s.keep := by
  unfold pushAcc
  simp

@[simp] theorem faultMsg_keep (s : State) : (faultMsg s).keep = s.keep := by
  unfold faultMsg
  simp

@[simp] theorem enterMode_keep (m : Mode) (s : State) : (enterMode m s).keep = s.keep := by
  unfold enterMode
  simp

@[simp] theorem settleMode_keep (s : State) : (settleMode s).keep = s.keep := by
  unfold settleMode
  simp

@[simp] theorem reportFault_keep (code reg unit inst : Nat) (s : State) :
    (reportFault code reg unit inst s).keep = s.keep := by
  unfold reportFault
  simp

@[simp] theorem dropDpWrites_keep (s : State) : (dropDpWrites s).keep = s.keep := by
  unfold dropDpWrites
  simp

@[simp] theorem blockFault_keep (b : Nat) (s : State) : (blockFault b s).keep = s.keep := by
  unfold blockFault
  simp

@[simp] theorem startReadParts_keep (i base : Nat) (parts : List (Nat × Nat × Nat)) (phys : Bool) (own : RdOwn)
    (s : State) : (startReadParts i base parts phys own s).keep = s.keep := by
  unfold startReadParts
  simp

@[simp] theorem startRead_keep (i addr len : Nat) (phys : Bool) (own : RdOwn) (s : State) :
    (startRead i addr len phys own s).keep = s.keep := by
  unfold startRead
  simp

@[simp] theorem startWrite_keep (i addr : Nat) (data : List Byte) (phys : Bool) (own : Owner) (dp : Bool) (s : State) :
    (startWrite i addr data phys own dp s).keep = s.keep := by
  unfold startWrite
  simp

@[simp] theorem dropBuf_keep (id : Nat) (s : State) : (dropBuf id s).keep = s.keep := by
  unfold dropBuf
  simp

@[simp] theorem hmpCount_keep (k j n : Nat) (s : State) : (hmpCount k j n s).keep = s.keep := by
  unfold hmpCount
  simp

@[simp] theorem issueReq_keep (k : Nat) (a : Access) (pa : Nat) (viaTlb : Bool) (s : State) :
    (issueReq k a pa viaTlb s).keep = s.keep := by
  unfold issueReq
  simp

@[simp] theorem issueWalk_keep (k inst table level iova : Nat) (s : State) :
    (issueWalk k inst table level iova s).keep = s.keep := by
  unfold issueWalk
  simp

@[simp] theorem logDirty_keep (i addr : Nat) (s : State) : (logDirty i addr s).keep = s.keep := by
  unfold logDirty
  simp

@[simp] theorem tlbAdd_keep (e : TlbEnt) (s : State) : (tlbAdd e s).keep = s.keep := by
  unfold tlbAdd
  simp

@[simp] theorem tlbTouch_keep (inst asgen addr : Nat) (s : State) : (tlbTouch inst asgen addr s).keep = s.keep := by
  unfold tlbTouch
  simp

/-- The state that a tried access leaves. -/
def Tried.st : Tried → State
  | .keep _ s => s
  | .done s => s
  | .failed _ s => s

theorem tryIssue_keep (a : Access) (s : State) : (tryIssue a s).st.keep = s.keep := by
  unfold tryIssue
  simp only
  split
  · rfl
  · split
    · simp [Tried.st]
    · split
      · rfl
      · split
        · rfl
        · simp [Tried.st]
        · (repeat' split) <;> simp [Tried.st]

@[simp] theorem pumpGo_keep (fuel : Nat) (kept : List Access) (fails : List AccFail) (s : State) :
    (pumpGo fuel kept fails s).1.keep = s.keep := by
  induction fuel generalizing kept fails s with
  | zero => simp [pumpGo]
  | succ f ih =>
    unfold pumpGo
    split
    · simp
    · rename_i a rest _
      have ht := tryIssue_keep a (s.modMem fun m => { m with waiting := rest })
      simp only
      split
      · simp [ih]
      · split <;> rename_i h <;> rw [h] at ht <;> simpa [ih, Tried.st] using ht

@[simp] theorem pump_keep (s : State) : (pump s).1.keep = s.keep := by
  unfold pump
  simp

@[simp] theorem setWalking_keep (i : Nat) (f : Access → Option Access) (s : State) : (setWalking i f s).keep = s.keep := by
  unfold setWalking
  simp

@[simp] theorem walkStep_keep (i : Nat) (line : List Byte) (s : State) : (walkStep i line s).1.keep = s.keep := by
  unfold walkStep
  (repeat' (first | split | dsimp only)) <;> simp

@[simp] theorem walkFail_keep (i cause : Nat) (s : State) : (walkFail i cause s).1.keep = s.keep := by
  unfold walkFail
  split <;> simp

@[simp] theorem scanAdvance_keep (n k : Nat) (s : State) : (scanAdvance n k s).keep = s.keep := by
  unfold scanAdvance
  simp

@[simp] theorem readHeader_keep (n : Nat) (s : State) : (readHeader n s).keep = s.keep := by
  unfold readHeader
  simp

@[simp] theorem scanOn_keep (n : Nat) (s : State) : (scanOn n s).keep = s.keep := by
  unfold scanOn
  simp

@[simp] theorem putEntry_keep (n : Nat) (e : Entry) (s : State) : (putEntry n e s).keep = s.keep := by
  unfold putEntry
  simp

@[simp] theorem closeChain_keep (n : Nat) (v : Option Res) (s : State) : (closeChain n v s).keep = s.keep := by
  unfold closeChain
  simp

@[simp] theorem scanEnd_keep (n : Nat) (s : State) : (scanEnd n s).keep = s.keep := by
  unfold scanEnd
  simp

@[simp] theorem scanTaken_keep (n : Nat) (s : State) : (scanTaken n s).keep = s.keep := by
  unfold scanTaken
  simp

@[simp] theorem takeEntry_keep (n : Nat) (e : Entry) (s : State) : (takeEntry n e s).keep = s.keep := by
  unfold takeEntry
  simp

@[simp] theorem takeChained_keep (n slot h : Nat) (body : List Byte) (bad : Bool) (s : State) :
    (takeChained n slot h body bad s).keep = s.keep := by
  unfold takeChained
  simp

@[simp] theorem takeBad_keep (n slot h : Nat) (v : Res) (k : Nat) (s : State) : (takeBad n slot h v k s).keep = s.keep := by
  unfold takeBad
  simp

@[simp] theorem examineHeader_keep (n : Nat) (line : List Byte) (bad : Bool) (s : State) :
    (examineHeader n line bad s).keep = s.keep := by
  unfold examineHeader
  dsimp only
  split
  · simp
  · split
    · simp
    · (repeat' split) <;> simp

@[simp] theorem headerFailed_keep (n : Nat) (s : State) : (headerFailed n s).keep = s.keep := by
  unfold headerFailed
  simp

@[simp] theorem bodyArrived_keep (n : Nat) (more : List Byte) (good : Bool) (s : State) :
    (bodyArrived n more good s).keep = s.keep := by
  unfold bodyArrived
  split <;> simp

@[simp] theorem abandonScan_keep (n : Nat) (s : State) : (abandonScan n s).keep = s.keep := by
  unfold abandonScan
  simp

@[simp] theorem capHead_keep (n q : Nat) (s : State) : (capHead n q s).keep = s.keep := by
  unfold capHead
  dsimp only
  split
  · rfl
  · simp only [State.modNr_keep, State.modMem_keep, State.modRing_keep]

@[simp] theorem ringFault_keep (n : Nat) (s : State) : (ringFault n s).keep = s.keep := by
  unfold ringFault
  simp

@[simp] theorem unwriteRecs_keep (k : Nat) (s : State) : (unwriteRecs k s).keep = s.keep := by
  unfold unwriteRecs
  simp

@[simp] theorem nrFault_keep (k : Nat) (s : State) : (nrFault k s).keep = s.keep := by
  unfold nrFault
  simp

@[simp] theorem ringReadDone_keep (n : Nat) (hdr : Bool) (b : RdBuf) (s : State) :
    (ringReadDone n hdr b s).keep = s.keep := by
  unfold ringReadDone
  (repeat' split) <;> simp

@[simp] theorem writeDoneHead_keep (n : Nat) (s : State) : (writeDoneHead n s).keep = s.keep := by
  unfold writeDoneHead
  simp

@[simp] theorem sendVector_keep (i v : Nat) (dp : Bool) (s : State) : (sendVector i v dp s).keep = s.keep := by
  unfold sendVector
  simp

@[simp] theorem nrRead_keep (k : Nat) (s : State) : (nrRead k s).keep = s.keep := by
  unfold nrRead
  simp

@[simp] theorem nrKick_keep (k : Nat) (s : State) : (nrKick k s).keep = s.keep := by
  unfold nrKick
  simp

@[simp] theorem noteRing_keep (n : Nat) (urgent : Bool) (s : State) : (noteRing n urgent s).keep = s.keep := by
  unfold noteRing
  simp

@[simp] theorem nrWrite_keep (k : Nat) (b : List Byte) (dp : Bool) (s : State) : (nrWrite k b dp s).keep = s.keep := by
  unfold nrWrite
  simp

@[simp] theorem nrSend_keep (k v : Nat) (dp : Bool) (s : State) : (nrSend k v dp s).keep = s.keep := by
  unfold nrSend
  simp

@[simp] theorem nrInterrupt_keep (k : Nat) (urgent dp : Bool) (s : State) : (nrInterrupt k urgent dp s).keep = s.keep := by
  unfold nrInterrupt
  simp

@[simp] theorem nrOverflow_keep (k : Nat) (dp : Bool) (s : State) : (nrOverflow k dp s).keep = s.keep := by
  unfold nrOverflow
  simp

@[simp] theorem nrServe_keep (n k : Nat) (b : List Byte) (s : State) : (nrServe n k b s).keep = s.keep := by
  induction n generalizing s with
  | zero => simp [nrServe]
  | succ n ih =>
    unfold nrServe
    (repeat' (first | split | dsimp only)) <;> simp [ih]

@[simp] theorem nrDeliver_keep (k : Nat) (b : List Byte) (s : State) : (nrDeliver k b s).keep = s.keep := by
  unfold nrDeliver
  simp

@[simp] theorem applyEnable_keep (n : Nat) (s : State) : (applyEnable n s).keep = s.keep := by
  unfold applyEnable
  simp

@[simp] theorem startScan_keep (n : Nat) (s : State) : (startScan n s).keep = s.keep := by
  unfold startScan
  simp

@[simp] theorem stopJobs_keep (n : Nat) (r : Res) (s : State) : (stopJobs n r s).keep = s.keep := by
  unfold stopJobs
  simp

@[simp] theorem drainRing_keep (n status : Nat) (s : State) : (drainRing n status s).keep = s.keep := by
  unfold drainRing
  simp

@[simp] theorem stopRing_keep (n : Nat) (s : State) : (stopRing n s).keep = s.keep := by
  unfold stopRing
  split <;> simp

@[simp] theorem enableRing_keep (n : Nat) (s : State) : (enableRing n s).keep = s.keep := by
  unfold enableRing
  (repeat' split) <;> simp

@[simp] theorem endNote_keep (n : Nat) (s : State) : (endNote n s).keep = s.keep := by
  unfold endNote
  simp

@[simp] theorem ringStopped_keep (n : Nat) (s : State) : (ringStopped n s).keep = s.keep := by
  unfold ringStopped
  simp

@[simp] theorem reformatRings_keep (s : State) : (reformatRings s).keep = s.keep := by
  unfold reformatRings
  simp

@[simp] theorem uncacheFrom_keep (n : Nat) (p : Nat → Bool) (s : State) : (uncacheFrom n p s).keep = s.keep := by
  unfold uncacheFrom
  split
  · rfl
  · rw [State.modRing_keep]

@[simp] theorem rescan_keep (n : Nat) (s : State) : (rescan n s).keep = s.keep := by
  unfold rescan
  simp

@[simp] theorem retireWrites_keep (n : Nat) (it : RobItem) (r : Res) (s : State) :
    (retireWrites n it r s).keep = s.keep := by
  unfold retireWrites
  simp

@[simp] theorem retireOne_keep (n : Nat) (it : RobItem) (r : Res) (s : State) : (retireOne n it r s).keep = s.keep := by
  unfold retireOne
  simp

@[simp] theorem retireRun_keep (fuel n : Nat) (s : State) : (retireRun fuel n s).1.keep = s.keep := by
  induction fuel generalizing s with
  | zero => rfl
  | succ f ih =>
    unfold retireRun
    (repeat' split) <;> simp [ih]

@[simp] theorem retireBurst_keep (n : Nat) (s : State) : (retireBurst n s).keep = s.keep := by
  unfold retireBurst
  simp

@[simp] theorem finishItem_keep (n slot : Nat) (r : Res) (replyX : Nat) (iv : List Byte) (s : State) :
    (finishItem n slot r replyX iv s).keep = s.keep := by
  unfold finishItem
  simp

@[simp] theorem State.modParent_keep (s : State) (i : Nat) (f : KeySlot → KeySlot) :
    (State.modParent s i f).keep = s.keep := by
  unfold State.modParent
  simp

@[simp] theorem State.modSysKey_keep (s : State) (i : Nat) (f : KeySlot → KeySlot) :
    (State.modSysKey s i f).keep = s.keep := by
  unfold State.modSysKey
  simp

@[simp] theorem State.modCtxKey_keep (s : State) (i : Nat) (f : KeySlot → KeySlot) :
    (State.modCtxKey s i f).keep = s.keep := by
  unfold State.modCtxKey
  simp

@[simp] theorem zeroCtxKeys_keep (e : Nat) (s : State) : (zeroCtxKeys e s).keep = s.keep := by
  unfold zeroCtxKeys
  simp

@[simp] theorem recordSlot_keep (i : Nat) (s : State) : (recordSlot i s).keep = s.keep := by
  unfold recordSlot
  simp

@[simp] theorem freeSlot_keep (i : Nat) (s : State) : (freeSlot i s).keep = s.keep := by
  unfold freeSlot
  simp

@[simp] theorem installParent_keep (i : Nat) (k : KeySlot) (s : State) : (installParent i k s).keep = s.keep := by
  unfold installParent
  simp

@[simp] theorem putCtxKey_keep (e slot : Nat) (key : List Byte) (bits parent pgen depth owner : Nat) (s : State) :
    (putCtxKey e slot key bits parent pgen depth owner s).keep = s.keep := by
  unfold putCtxKey
  simp

@[simp] theorem installNext_keep (e : Nat) (key salt : List Byte) (an parent pgen depth : Nat) (s : State) :
    (installNext e key salt an parent pgen depth s).keep = s.keep := by
  unfold installNext
  simp

@[simp] theorem keepGen_keep (e : Nat) (s : State) : (keepGen e s).keep = s.keep := by
  unfold keepGen
  simp

@[simp] theorem markStale_keep (e cause : Nat) (s : State) : (markStale e cause s).keep = s.keep := by
  unfold markStale
  simp

@[simp] theorem jobRead_keep (tag p : Nat) (ext : List (Nat × Nat)) (s : State) : (jobRead tag p ext s).keep = s.keep := by
  unfold jobRead
  split <;> simp

@[simp] theorem jobReadPage_keep (tag p addr cnt : Nat) (s : State) : (jobReadPage tag p addr cnt s).keep = s.keep := by
  unfold jobReadPage
  simp

@[simp] theorem failJob_keep (tag : Nat) (r : Res) (s : State) : (failJob tag r s).keep = s.keep := by
  unfold failJob
  simp

@[simp] theorem endJob_keep (tag : Nat) (r : Res) (s : State) : (endJob tag r s).keep = s.keep := by
  unfold endJob
  simp

@[simp] theorem jobReadSome_keep (tag p : Nat) (ext : List (Nat × Nat)) (s : State) :
    (jobReadSome tag p ext s).keep = s.keep := by
  unfold jobReadSome
  simp

@[simp] theorem jobReadOthers_keep (tag : Nat) (s : State) : (jobReadOthers tag s).keep = s.keep := by
  unfold jobReadOthers
  split <;> simp

@[simp] theorem jobSource_keep (tag : Nat) (s : State) : (jobSource tag s).keep = s.keep := by
  unfold jobSource
  split
  · rfl
  · dsimp only
    split
    · simp
    · split
      · rfl
      · simp
      · split <;> simp

@[simp] theorem jobReadData_keep (tag : Nat) (s : State) : (jobReadData tag s).keep = s.keep := by
  unfold jobReadData
  split <;> simp

@[simp] theorem jobStart_keep (tag : Nat) (s : State) : (jobStart tag s).keep = s.keep := by
  unfold jobStart
  split <;> simp

@[simp] theorem jobPage_keep (tag p : Nat) (l : List Byte) (s : State) : (jobPage tag p l s).keep = s.keep := by
  unfold jobPage
  split <;> simp

@[simp] theorem writeExt_keep (i : Nat) (own : Owner) (ext : List (Nat × Nat)) (data : List Byte) (s : State) :
    (writeExt i own ext data s).keep = s.keep := by
  induction ext generalizing data s with
  | nil => rfl
  | cons x r ih => unfold writeExt; simp [ih]

@[simp] theorem jobWrite_keep (tag off len : Nat) (s : State) : (jobWrite tag off len s).keep = s.keep := by
  unfold jobWrite
  split
  · rfl
  · dsimp only
    rw [writeExt_keep]
    simp

@[simp] theorem outFail_keep (tag : Nat) (r : Res) (s : State) : (outFail tag r s).keep = s.keep := by
  unfold outFail
  simp

@[simp] theorem jobFlush_keep (fuel tag : Nat) (s : State) : (jobFlush fuel tag s).keep = s.keep := by
  induction fuel generalizing s with
  | zero => rfl
  | succ f ih =>
    unfold jobFlush
    split
    · rename_i h _
      cases h
      (repeat' (first | split | dsimp only)) <;> simp [ih]
    · rfl

@[simp] theorem jobPump_keep (tag : Nat) (s : State) : (jobPump tag s).keep = s.keep := by
  unfold jobPump
  split <;> simp

@[simp] theorem jobEmit_keep (tag off len : Nat) (s : State) : (jobEmit tag off len s).keep = s.keep := by
  unfold jobEmit
  split <;> simp

@[simp] theorem jobDstPage_keep (tag : Nat) (l : List Byte) (s : State) : (jobDstPage tag l s).keep = s.keep := by
  unfold jobDstPage
  simp

@[simp] theorem jobReadDone_keep (tag p : Nat) (b : RdBuf) (s : State) : (jobReadDone tag p b s).keep = s.keep := by
  unfold jobReadDone
  (repeat' split) <;> simp

@[simp] theorem jobPost_keep (tag : Nat) (s : State) : (jobPost tag s).keep = s.keep := by
  unfold jobPost
  split <;> simp

@[simp] theorem scrubExt_keep (i : Nat) (ext : List (Nat × Nat)) (s : State) : (scrubExt i ext s).keep = s.keep := by
  unfold scrubExt
  simp

@[simp] theorem dropReads_keep (j : Job) (s : State) : (dropReads j s).keep = s.keep := by
  unfold dropReads
  simp

@[simp] theorem computeJob_keep (tag : Nat) (out : List Byte) (post : List (Nat × List Byte)) (r : Res) (s : State) :
    (computeJob tag out post r s).keep = s.keep := by
  unfold computeJob
  simp

@[simp] theorem dropEgress_keep (tag : Nat) (s : State) : (dropEgress tag s).keep = s.keep := by
  unfold dropEgress
  simp

@[simp] theorem dropIngress_keep (port id : Nat) (s : State) : (dropIngress port id s).keep = s.keep := by
  unfold dropIngress
  simp

@[simp] theorem abortJob_keep (d : Nat) (j : Job) (s : State) : (abortJob d j s).keep = s.keep := by
  unfold abortJob
  split <;> simp

@[simp] theorem abortKeyOps_keep (d : Nat) (s : State) : (abortKeyOps d s).keep = s.keep := by
  unfold abortKeyOps
  simp

@[simp] theorem staleParent_keep (e : Nat) (s : State) : (staleParent e s).keep = s.keep := by
  unfold staleParent
  simp

@[simp] theorem clearWaiting_keep (s : State) : (clearWaiting s).keep = s.keep := by
  unfold clearWaiting
  simp

@[simp] theorem invalidateUnder_keep (named : List Nat) (s : State) : (invalidateUnder named s).keep = s.keep := by
  unfold invalidateUnder
  simp

@[simp] theorem purgeKeys_keep (s : State) : (purgeKeys s).keep = s.keep := by
  unfold purgeKeys
  simp

@[simp] theorem clearKeys_keep (full : Bool) (halt : Bool) (s : State) : (clearKeys full halt s).keep = s.keep := by
  unfold clearKeys
  simp

@[simp] theorem stopDataRings_keep (s : State) : (stopDataRings s).keep = s.keep := by
  unfold stopDataRings
  simp

@[simp] theorem restoreCounters_keep (s : State) : (restoreCounters s).keep = s.keep := by
  unfold restoreCounters
  split <;> simp

@[simp] theorem zeroise_keep (halt : Bool) (s : State) : (zeroise halt s).keep = s.keep := by
  unfold zeroise
  split <;> simp

@[simp] theorem purge_keep (s : State) : (purge s).keep = s.keep := by
  unfold purge
  simp

@[simp] theorem respond_keep (code : Nat) (s : State) : (respond code s).keep = s.keep := by
  unfold respond
  simp

@[simp] theorem State.modTsrc_keep (s : State) (k : Nat) (f : Src → Src) : (State.modTsrc s k f).keep = s.keep := by
  unfold State.modTsrc
  simp

@[simp] theorem tEntry_keep (k kind resp cls : Nat) (s : State) : (tEntry k kind resp cls s).keep = s.keep := by
  unfold tEntry
  simp

@[simp] theorem alarm_keep (k resp cls : Nat) (s : State) : (alarm k resp cls s).keep = s.keep := by
  unfold alarm
  simp

@[simp] theorem qualified_keep (k cls : Nat) (s : State) : (qualified k cls s).keep = s.keep := by
  unfold qualified
  simp

@[simp] theorem disagree_keep (j : Nat) (s : State) : (disagree j s).keep = s.keep := by
  unfold disagree
  simp

@[simp] theorem selfTestFail_keep (j : Nat) (s : State) : (selfTestFail j s).keep = s.keep := by
  unfold selfTestFail
  simp

@[simp] theorem storm_keep (k : Nat) (s : State) : (storm k s).keep = s.keep := by
  unfold storm
  simp

@[simp] theorem bounce_keep (k : Nat) (s : State) : (bounce k s).keep = s.keep := by
  unfold bounce
  simp

@[simp] theorem occurrence_keep (k : Nat) (s : State) : (occurrence k s).keep = s.keep := by
  unfold occurrence
  simp

@[simp] theorem icViolation_keep (s : State) : (icViolation s).keep = s.keep := by
  unfold icViolation
  simp

@[simp] theorem fltKick_keep (i : Nat) (s : State) : (fltKick i s).keep = s.keep := by
  unfold fltKick
  simp

@[simp] theorem fltDrop_keep (i : Nat) (s : State) : (fltDrop i s).keep = s.keep := by
  unfold fltDrop
  simp

@[simp] theorem faultRecord_keep (f : AccFail) (s : State) : (faultRecord f s).keep = s.keep := by
  unfold faultRecord
  split <;> simp

@[simp] theorem failWrite_keep (tag : Nat) (r : Res) (s : State) : (failWrite tag r s).keep = s.keep := by
  unfold failWrite
  simp

@[simp] theorem vaultFault_keep (b h code : Nat) (s : State) : (vaultFault b h code s).keep = s.keep := by
  unfold vaultFault
  simp

@[simp] theorem readDone_keep (b : RdBuf) (s : State) : (readDone b s).keep = s.keep := by
  unfold readDone
  split <;> simp

@[simp] theorem lineDone_keep (id off : Nat) (bytes : List Byte) (fail : Option RdRes) (s : State) :
    (lineDone id off bytes fail s).keep = s.keep := by
  unfold lineDone
  split
  · rfl
  · dsimp only
    split <;> simp

@[simp] theorem failAccess_keep (f : AccFail) (s0 : State) : (failAccess f s0).keep = s0.keep := by
  unfold failAccess
  split <;> simp

@[simp] theorem settleGo_keep (fuel : Nat) (s : State) : (settleGo fuel s).keep = s.keep := by
  induction fuel generalizing s with
  | zero => rfl
  | succ f ih =>
    unfold settleGo
    simp only
    split
    · split <;> simp [ih]
    · simp [ih]

@[simp] theorem settle_keep (s : State) : (settle s).keep = s.keep := by
  unfold settle
  simp

@[simp] theorem hmpFail_keep (k : Nat) (s : State) : (hmpFail k s).keep = s.keep := by
  unfold hmpFail
  simp

@[simp] theorem hmpIcError_keep (k : Nat) (s : State) : (hmpIcError k s).keep = s.keep := by
  unfold hmpIcError
  simp

@[simp] theorem walkAnswer_keep (i : Nat) (data : List Byte) (cause : Option Nat) (s : State) :
    (walkAnswer i data cause s).keep = s.keep := by
  unfold walkAnswer
  split <;> simp

@[simp] theorem reqFailed_keep (r : Req) (cause : Nat) (s : State) : (reqFailed r cause s).keep = s.keep := by
  unfold reqFailed
  split <;> simp

@[simp] theorem markBad_keep (id : Nat) (s : State) : (markBad id s).keep = s.keep := by
  unfold markBad
  simp

@[simp] theorem reqData_keep (r : Req) (data : List Byte) (s : State) : (reqData r data s).keep = s.keep := by
  unfold reqData
  split <;> simp

@[simp] theorem spCount_keep (p scope id ix n : Nat) (s : State) : (spCount p scope id ix n s).keep = s.keep := by
  unfold spCount
  simp

@[simp] theorem classCount_keep (p id cls : Nat) (s : State) : (classCount p id cls s).keep = s.keep := by
  unfold classCount
  simp

@[simp] theorem relatch_keep (p : Nat) (s : State) : (relatch p s).keep = s.keep := by
  unfold relatch
  simp

@[simp] theorem putEgress_keep (p : Nat) (f : EgFrame) (s : State) : (putEgress p f s).keep = s.keep := by
  unfold putEgress
  simp

@[simp] theorem frameOutcome_keep (p cls i h colour : Nat) (r : Res) (s : State) :
    (frameOutcome p cls i h colour r s).keep = s.keep := by
  unfold frameOutcome
  simp

@[simp] theorem failFrame_keep (p id : Nat) (r : Res) (s : State) : (failFrame p id r s).keep = s.keep := by
  unfold failFrame
  split <;> simp

@[simp] theorem discardEgress_keep (p : Nat) (s : State) : (discardEgress p s).keep = s.keep := by
  unfold discardEgress
  simp

@[simp] theorem setHeld_keep (l j : Nat) (cs : List Nat) (s : State) : (setHeld l j cs s).keep = s.keep := by
  unfold setHeld
  simp

@[simp] theorem vaultRead_keep (h : Nat) (rec : Bool) (s : State) : (vaultRead h rec s).1.keep = s.keep := by
  unfold vaultRead
  dsimp only
  rw [keep_foldl _ (fun t l => by simp)]
  split <;> simp

@[simp] theorem dropBufs_keep (ids : List Nat) (s : State) : (dropBufs ids s).keep = s.keep := by
  unfold dropBufs
  simp

@[simp] theorem takeTop_keep (h : Nat) (ids : List Nat) (s : State) : (takeTop h ids s).keep = s.keep := by
  unfold takeTop
  simp

@[simp] theorem restartFetch_keep (t : State) (f : Fetch) : (restartFetch t f).keep = t.keep := by
  unfold restartFetch
  simp

@[simp] theorem restartEvict_keep (t : State) (f : Evict) : (restartEvict t f).keep = t.keep := by
  unfold restartEvict
  simp

@[simp] theorem restartSweep_keep (t : State) (h : Nat) (rids : List Nat) : (restartSweep t h rids).keep = t.keep := by
  unfold restartSweep
  simp

@[simp] theorem restartReads_keep (h : Nat) (s : State) : (restartReads h s).keep = s.keep := by
  unfold restartReads
  dsimp only
  (repeat' split) <;> simp

@[simp] theorem vaultWrite_keep (h addr : Nat) (b : List Byte) (s : State) : (vaultWrite h addr b s).keep = s.keep := by
  unfold vaultWrite
  simp

@[simp] theorem sealPath_keep (h : Nat) (n1 n2 n3 : List Nat) (mk : Nat → List Byte) (s : State) :
    (sealPath h n1 n2 n3 mk s).keep = s.keep := by
  unfold sealPath
  simp

@[simp] theorem initPump_keep (s : State) : (initPump s).keep = s.keep := by
  unfold initPump
  simp

@[simp] theorem portEvent_keep (code : Nat) (s : State) : (portEvent code s).keep = s.keep := by
  unfold portEvent
  simp

@[simp] theorem calCheckpoint_keep (s : State) : (calCheckpoint s).keep = s.keep := by
  unfold calCheckpoint
  simp

@[simp] theorem checkpoint_keep (s : State) : (checkpoint s).keep = s.keep := by
  unfold checkpoint
  simp

@[simp] theorem scanEnabled_keep (s : State) : (scanEnabled s).keep = s.keep := by
  unfold scanEnabled
  simp

@[simp] theorem scanBells_keep (s : State) : (scanBells s).keep = s.keep := by
  unfold scanBells
  simp

@[simp] theorem stopAllJobs_keep (s : State) : (stopAllJobs s).keep = s.keep := by
  unfold stopAllJobs
  simp

@[simp] theorem enterEclipse_keep (cause : Nat) (s : State) : (enterEclipse cause s).keep = s.keep := by
  unfold enterEclipse
  simp

@[simp] theorem uncacheData_keep (s : State) : (uncacheData s).keep = s.keep := by
  unfold uncacheData
  simp

@[simp] theorem leaveEclipse_keep (m : Mode) (s : State) : (leaveEclipse m s).keep = s.keep := by
  unfold leaveEclipse
  simp

@[simp] theorem clampOutputs_keep (s : State) : (clampOutputs s).keep = s.keep := by
  unfold clampOutputs
  simp

@[simp] theorem attachStart_keep (s : State) : (attachStart s).keep = s.keep := by
  unfold attachStart
  simp

@[simp] theorem detachEnd_keep (s : State) : (detachEnd s).keep = s.keep := by
  unfold detachEnd
  simp

@[simp] theorem detachStep_keep (s : State) : (detachStep s).keep = s.keep := by
  unfold detachStep
  split <;> simp

@[simp] theorem conclude_keep (s : State) : (conclude s).keep = s.keep := by
  unfold conclude
  simp

@[simp] theorem detachStart_keep (s : State) : (detachStart s).keep = s.keep := by
  unfold detachStart
  simp

@[simp] theorem rapIcFail_keep (s : State) : (rapIcFail s).keep = s.keep := by
  unfold rapIcFail
  simp

@[simp] theorem rapOpen_keep (f : State → State) (s : State) (hf : ∀ x0, (f x0).keep = x0.keep) :
    (rapOpen f s).keep = s.keep := by
  unfold rapOpen
  simp [hf]

@[simp] theorem rapDo_keep (addr : Nat) (v : RapWord) (f : State → State) (s : State) (hf : ∀ x0, (f x0).keep = x0.keep) :
    (rapDo addr v f s).keep = s.keep := by
  unfold rapDo
  simp [hf]

@[simp] theorem rapAnswer_keep (addr : Nat) (err : Bool) (v : Nat) (s : State) : (rapAnswer addr err v s).keep = s.keep := by
  unfold rapAnswer
  simp

@[simp] theorem hmpAnswer_keep (k : Nat) (r : Req) (status : Nat) (data : List Byte) (ics : List (BitVec 16))
    (s : State) : (hmpAnswer k r status data ics s).keep = s.keep := by
  unfold hmpAnswer
  (repeat' split) <;> simp

@[simp] theorem mapInst_keep (s : State) (i : Nat) (b : Bool) : (mapInst s i b).keep = s.keep := by
  unfold mapInst
  simp

@[simp] theorem hmpMapSet_keep (reg v : Nat) (s : State) : (hmpMapSet reg v s).keep = s.keep := by
  unfold hmpMapSet
  simp

end Sys2Proof.Machine
end

