-- ==== Sys2Proof/Laws/KeepPorts.lean ====
section
/-! SUPPORT. The operations of the ports, rings, tamper chain, Forges and units leave the queue of commands and the fuses as
they are. -/

namespace Sys2Proof.Machine
open Sys2Proof.Laws

@[simp] theorem ringBell_keep (n : Nat) (s : State) : (ringBell n s).keep = s.keep := by
  unfold ringBell
  simp

@[simp] theorem ringSelWrite_keep (page v : Nat) (s : State) : (ringSelWrite page v s).keep = s.keep := by
  unfold ringSelWrite
  simp

@[simp] theorem ringConfig_keep (n : Nat) (v : Nat) (s : State) : (ringConfig n v s).keep = s.keep := by
  unfold ringConfig
  simp

@[simp] theorem ringCtl_keep (n : Nat) (v : Nat) (s : State) : (ringCtl n v s).keep = s.keep := by
  unfold ringCtl
  simp

@[simp] theorem resumeNotes_keep (k : Nat) (s : State) : (resumeNotes k s).keep = s.keep := by
  unfold resumeNotes
  simp

@[simp] theorem nrEnable_keep (k : Nat) (s : State) : (nrEnable k s).keep = s.keep := by
  unfold nrEnable
  simp

@[simp] theorem nrDisable_keep (k : Nat) (s : State) : (nrDisable k s).keep = s.keep := by
  unfold nrDisable
  (repeat' (first | split | dsimp only)) <;> simp

@[simp] theorem nrCtl_keep (k : Nat) (v : Nat) (s : State) : (nrCtl k v s).keep = s.keep := by
  unfold nrCtl
  simp

@[simp] theorem vecCtl_keep (i v : Nat) (s : State) : (vecCtl i v s).keep = s.keep := by
  unfold vecCtl
  simp

@[simp] theorem ringInvWrite_keep (n v : Nat) (s : State) : (ringInvWrite n v s).keep = s.keep := by
  unfold ringInvWrite
  simp

@[simp] theorem fltInterrupt_keep (i : Nat) (s : State) : (fltInterrupt i s).keep = s.keep := by
  unfold fltInterrupt
  simp

@[simp] theorem fltServe_keep (s : State) : (fltServe s).keep = s.keep := by
  unfold fltServe
  split <;> simp

@[simp] theorem fltWrite_keep (i : Nat) (r : FltRec) (s : State) : (fltWrite i r s).keep = s.keep := by
  unfold fltWrite
  simp

@[simp] theorem fltWritten_keep (i : Nat) (s : State) : (fltWritten i s).keep = s.keep := by
  unfold fltWritten
  (repeat' (first | split | dsimp only)) <;> simp

@[simp] theorem State.modTable_keep (s : State) (i : Nat) (f : Sit → Sit) : (State.modTable s i f).keep = s.keep := by
  unfold State.modTable
  simp

@[simp] theorem sitKick_keep (i : Nat) (s : State) : (sitKick i s).keep = s.keep := by
  unfold sitKick
  simp

@[simp] theorem sitEvent_keep (i : Nat) (m : SitMem) (rec1 : List Byte) (vec : Option Nat) (s : State) :
    (sitEvent i m rec1 vec s).keep = s.keep := by
  unfold sitEvent
  simp

@[simp] theorem missEvent_keep (i : Nat) (l : Lookup) (s : State) : (missEvent i l s).keep = s.keep := by
  unfold missEvent
  simp

@[simp] theorem parityEvent_keep (i : Nat) (l : Lookup) (mask : Nat) (s : State) :
    (parityEvent i l mask s).keep = s.keep := by
  unfold parityEvent
  simp

@[simp] theorem sitInterrupt_keep (i : Nat) (vec : Option Nat) (s : State) : (sitInterrupt i vec s).keep = s.keep := by
  unfold sitInterrupt
  split <;> simp

@[simp] theorem sitWrite_keep (i : Nat) (e : SitEvt) (s : State) : (sitWrite i e s).keep = s.keep := by
  unfold sitWrite
  simp

@[simp] theorem sitDrop_keep (i : Nat) (s : State) : (sitDrop i s).keep = s.keep := by
  unfold sitDrop
  simp

@[simp] theorem sitWritten_keep (i : Nat) (s : State) : (sitWritten i s).keep = s.keep := by
  unfold sitWritten
  (repeat' (first | split | dsimp only)) <;> simp

@[simp] theorem sitRead_keep (i : Nat) (l : Lookup) (s : State) : (sitRead i l s).keep = s.keep := by
  unfold sitRead
  simp

@[simp] theorem startLookup_keep (p fid i typ an key : Nat) (s : State) :
    (startLookup p fid i typ an key s).keep = s.keep := by
  unfold startLookup
  simp

@[simp] theorem stamp_keep (i bucket k sec : Nat) (s : State) : (stamp i bucket k sec s).keep = s.keep := by
  unfold stamp
  simp

@[simp] theorem lastHit_keep (i : Nat) (l : Lookup) (k : Nat) (e : List Byte) (s0 : State) :
    (lastHit i l k e s0).keep = s0.keep := by
  unfold lastHit
  simp

@[simp] theorem sitHit_keep (i : Nat) (l : Lookup) (mask : Nat) (e : Nat × List Byte) (s : State) :
    (sitHit i l mask e s).keep = s.keep := by
  unfold sitHit
  simp

@[simp] theorem sitMiss_keep (i : Nat) (l : Lookup) (mask : Nat) (s : State) : (sitMiss i l mask s).keep = s.keep := by
  unfold sitMiss
  simp

/-- What holds of each outcome of a lookup holds of the deciding read. -/
theorem sitDecide_cases (i : Nat) (l : Lookup) (b : List Byte) (s : State) (P : State → Prop)
    (h : ∀ o m, P (Option.elim o (sitMiss i l m s) fun e => sitHit i l m e s)) : P (sitDecide i l b s) := h _ _

@[simp] theorem sitDecide_keep (i : Nat) (l : Lookup) (b : List Byte) (s : State) : (sitDecide i l b s).keep = s.keep :=
  sitDecide_cases i l b s (fun t => t.keep = s.keep) fun o m => by cases o <;> simp

@[simp] theorem sitApply_keep (i : Nat) (s : State) : (sitApply i s).keep = s.keep := by
  unfold sitApply
  simp

@[simp] theorem sitEn_keep (i : Nat) (en : Bool) (s : State) : (sitEn i en s).keep = s.keep := by
  unfold sitEn
  split <;> simp

@[simp] theorem sitCtl_keep (i v : Nat) (s : State) : (sitCtl i v s).keep = s.keep := by
  unfold sitCtl
  simp

@[simp] theorem sitStopped_keep (i : Nat) (s : State) : (sitStopped i s).keep = s.keep := by
  unfold sitStopped
  simp

@[simp] theorem overflowDrop_keep (p cls : Nat) (s : State) : (overflowDrop p cls s).keep = s.keep := by
  unfold overflowDrop
  simp

@[simp] theorem police_keep (p : Nat) (f : FrameIn) (s : State) : (police p f s).2.keep = s.keep := by
  unfold police
  (repeat' (first | split | dsimp only)) <;> simp

@[simp] theorem commitBypass_keep (p : Nat) (f : FrameIn) (colour : Nat) (s : State) :
    (commitBypass p f colour s).keep = s.keep := by
  unfold commitBypass
  simp

@[simp] theorem storeFrame_keep (p : Nat) (f : FrameIn) (colour : Nat) (s : State) :
    (storeFrame p f colour s).keep = s.keep := by
  unfold storeFrame
  (repeat' split) <;> simp

@[simp] theorem acceptFrame_keep (p : Nat) (f : FrameIn) (s : State) : (acceptFrame p f s).keep = s.keep := by
  unfold acceptFrame
  dsimp only
  split
  · simp
  · split <;> simp

@[simp] theorem arrive_keep (p : Nat) (f : FrameIn) (s : State) : (arrive p f s).keep = s.keep := by
  unfold arrive
  simp

@[simp] theorem countHolds_keep (p : Nat) (s : State) : (countHolds p s).keep = s.keep := by
  unfold countHolds
  refine keep_foldl _ (fun t c => ?_) _ _
  split
  · split <;> simp
  · rfl

@[simp] theorem dropSeq_keep (p seq : Nat) (s : State) : (dropSeq p seq s).keep = s.keep := by
  unfold dropSeq
  simp

@[simp] theorem releaseFail_keep (p : Nat) (f : EgFrame) (s : State) : (releaseFail p f s).keep = s.keep := by
  unfold releaseFail
  simp

@[simp] theorem offer_keep (p : Nat) (f : EgFrame) (s : State) : (offer p f s).keep = s.keep := by
  unfold offer
  simp

@[simp] theorem setWm_keep (p c v : Nat) (s : State) : (setWm p c v s).keep = s.keep := by
  unfold setWm
  simp

@[simp] theorem State.modGate_keep (s : State) (p : Nat) (f : Gate → Gate) : (State.modGate s p f).keep = s.keep := by
  unfold State.modGate
  simp

@[simp] theorem gateErr_keep (p : Nat) (s : State) : (gateErr p s).keep = s.keep := by
  unfold gateErr
  simp

@[simp] theorem gateSchedule_keep (p : Nat) (s : State) : (gateSchedule p s).keep = s.keep := by
  unfold gateSchedule
  simp

@[simp] theorem gateShow_keep (p : Nat) (s : State) : (gateShow p s).keep = s.keep := by
  unfold gateShow
  simp

@[simp] theorem gateCtl_keep (p v : Nat) (s : State) : (gateCtl p v s).keep = s.keep := by
  unfold gateCtl
  simp

@[simp] theorem discardOversize_keep (p : Nat) (f : EgFrame) (s : State) : (discardOversize p f s).keep = s.keep := by
  unfold discardOversize
  simp

@[simp] theorem takeover_keep (p at0 : Nat) (s : State) : (takeover p at0 s).keep = s.keep := by
  unfold takeover
  simp

@[simp] theorem polCtl_keep (v : Nat) (s : State) : (polCtl v s).keep = s.keep := by
  unfold polCtl
  simp

@[simp] theorem shpCtl_keep (i v : Nat) (s : State) : (shpCtl i v s).keep = s.keep := by
  unfold shpCtl
  simp

@[simp] theorem rapRead_keep (addr : Nat) (icOk : Bool) (f : State → State × Nat) (s : State) (hf : ∀ x0,
    (f x0).1.keep = x0.keep) : (rapRead addr icOk f s).keep = s.keep := by
  unfold rapRead
  simp [hf]

@[simp] theorem i3cWord_keep (addr : Nat) (f : State → State × Nat) (s : State) (hf : ∀ x0, (f x0).1.keep = x0.keep) :
    (i3cWord addr f s).1.keep = s.keep := by
  unfold i3cWord
  (repeat' split) <;> simp [hf]

@[simp] theorem i3cRead_keep (addr : Nat) (f : State → State × Nat) (s : State) (hf : ∀ x0, (f x0).1.keep = x0.keep) :
    (i3cRead addr f s).keep = s.keep := by
  unfold i3cRead
  simp [hf]

@[simp] theorem pathRead_keep (path : Path) (addr : Nat) (icOk : Bool) (f : State → State × Nat) (s : State) (hf : ∀ x0,
    (f x0).1.keep = x0.keep) : (pathRead path addr icOk f s).keep = s.keep := by
  unfold pathRead
  split <;> simp [hf]

@[simp] theorem privTake_keep (which : PrivFifo) (s : State) : (privTake which s).1.keep = s.keep := by
  unfold privTake
  (repeat' split) <;> simp

@[simp] theorem evtTake_keep (i : Nat) (s : State) : (evtTake i s).1.keep = s.keep := by
  unfold evtTake
  split <;> simp

@[simp] theorem sampleTake_keep (s : State) : (sampleTake s).1.keep = s.keep := by
  unfold sampleTake
  split <;> simp

@[simp] theorem cntRead_keep (p : Nat) (s : State) : (cntRead p s).1.keep = s.keep := by
  unfold cntRead
  simp

@[simp] theorem timeTake_keep (path : Path) (s : State) : (timeTake path s).1.keep = s.keep := by
  unfold timeTake
  simp

@[simp] theorem measTake_keep (m w : Nat) (s : State) : (measTake m w s).1.keep = s.keep := by
  unfold measTake
  split <;> simp

@[simp] theorem qualify_keep (k : Nat) (s : State) : (qualify k s).keep = s.keep := by
  unfold qualify
  simp

@[simp] theorem sourceRise_keep (k : Nat) (s : State) : (sourceRise k s).keep = s.keep := by
  unfold sourceRise
  simp

@[simp] theorem sourceFall_keep (k : Nat) (s : State) : (sourceFall k s).keep = s.keep := by
  unfold sourceFall
  simp

@[simp] theorem reactive_keep (k : Nat) (f : Src → Src) (s : State) : (reactive k f s).keep = s.keep := by
  unfold reactive
  simp

@[simp] theorem pathRecord_keep (k : Nat) (d : Detector) (s : State) : (pathRecord k d s).keep = s.keep := by
  unfold pathRecord
  dsimp only
  split <;> split <;> simp

@[simp] theorem detectorChange_keep (k : Nat) (d : Detector) (p : PinReading) (s : State) :
    (detectorChange k d p s).keep = s.keep := by
  unfold detectorChange
  simp

@[simp] theorem reclassify_keep (s : State) : (reclassify s).keep = s.keep := by
  unfold reclassify
  simp

@[simp] theorem drbgTo_keep (d : DrbgState) (s : State) : (drbgTo d s).keep = s.keep := by
  unfold drbgTo
  simp

@[simp] theorem drbgTry_keep (s : State) : (drbgTry s).keep = s.keep := by
  unfold drbgTry
  simp

@[simp] theorem drbgStart_keep (s : State) : (drbgStart s).keep = s.keep := by
  unfold drbgStart
  simp

@[simp] theorem haltBlock_keep (s : State) : (haltBlock s).keep = s.keep := by
  unfold haltBlock
  simp

@[simp] theorem haltMode_keep (s : State) : (haltMode s).keep = s.keep := by
  unfold haltMode
  simp

@[simp] theorem tmpRespWrite_keep (v : Nat) (s : State) : (tmpRespWrite v s).keep = s.keep := by
  unfold tmpRespWrite
  simp

@[simp] theorem vigilLog_keep (e : VLog) (s : State) : (vigilLog e s).keep = s.keep := by
  unfold vigilLog
  simp

@[simp] theorem vigilQualified_keep (k cls : Nat) (s : State) : (vigilQualified k cls s).keep = s.keep := by
  unfold vigilQualified
  simp

@[simp] theorem sampleSource_keep (k : Nat) (p : PinReading) (s : State) : (sampleSource k p s).keep = s.keep := by
  unfold sampleSource
  simp

@[simp] theorem sampleDisagree_keep (k : Nat) (differs : Bool) (s : State) : (sampleDisagree k differs s).keep = s.keep := by
  unfold sampleDisagree
  simp

@[simp] theorem sampleSelfTest_keep (k : Nat) (fails : Bool) (s : State) : (sampleSelfTest k fails s).keep = s.keep := by
  unfold sampleSelfTest
  simp

@[simp] theorem lfsrSample_keep (s : State) : (lfsrSample s).keep = s.keep := by
  unfold lfsrSample
  simp

@[simp] theorem putSystemBits_keep (k bits : Nat) (key : List Byte) (s : State) :
    (putSystemBits k bits key s).keep = s.keep := by
  unfold putSystemBits
  simp

@[simp] theorem putSystem_keep (k : Nat) (key : List Byte) (s : State) : (putSystem k key s).keep = s.keep := by
  unfold putSystem
  simp

@[simp] theorem dropSystem_keep (k : Nat) (s : State) : (dropSystem k s).keep = s.keep := by
  unfold dropSystem
  simp

@[simp] theorem deriveVault_keep (s : State) : (deriveVault s).keep = s.keep := by
  unfold deriveVault
  simp

@[simp] theorem loadSecrets_keep (s : State) : (loadSecrets s).keep = s.keep := by
  unfold loadSecrets
  refine keep_foldl _ (fun t v => ?_) _ _
  dsimp only
  split <;> simp

@[simp] theorem loadRoot_keep (r : Root) (key : List Byte) (s : State) : (loadRoot r key s).keep = s.keep := by
  unfold loadRoot
  simp

@[simp] theorem putInstKey_keep (n epoch : Nat) (s : State) : (putInstKey n epoch s).keep = s.keep := by
  unfold putInstKey
  simp

@[simp] theorem putMiKey_keep (s : State) : (putMiKey s).keep = s.keep := by
  unfold putMiKey
  simp

@[simp] theorem keepCounters_keep (s : State) : (keepCounters s).keep = s.keep := by
  unfold keepCounters
  simp

@[simp] theorem enterTest_keep (s : State) : (enterTest s).keep = s.keep := by
  unfold enterTest
  simp

@[simp] theorem setCalendar_keep (t : Nat) (s : State) : (setCalendar t s).keep = s.keep := by
  unfold setCalendar
  simp

@[simp] theorem timeLost_keep (cause : Nat) (s : State) : (timeLost cause s).keep = s.keep := by
  unfold timeLost
  simp

@[simp] theorem todSample_keep (sec ns : Nat) (s : State) : (todSample sec ns s).keep = s.keep := by
  unfold todSample
  simp

@[simp] theorem ppsGood_keep (s : State) : (ppsGood s).keep = s.keep := by
  unfold ppsGood
  simp

@[simp] theorem clockStop_keep (k : Nat) (s : State) : (clockStop k s).keep = s.keep := by
  unfold clockStop
  simp

@[simp] theorem srpRequest_keep (code : Nat) (s : State) : (srpRequest code s).keep = s.keep := by
  unfold srpRequest
  simp

@[simp] theorem portFaultWrite_keep (v : Word) (s : State) : (portFaultWrite v s).keep = s.keep := by
  unfold portFaultWrite
  simp

@[simp] theorem tapLoad_keep (ir : TapIr) (out : List Byte) (s : State) : (tapLoad ir out s).keep = s.keep := by
  unfold tapLoad
  simp

@[simp] theorem tapPin_keep (ir : TapIr) (s : State) : (tapPin ir s).keep = s.keep := by
  unfold tapPin
  simp

@[simp] theorem placeOne_keep (s : State) (j : Job) : (placeOne s j).keep = s.keep := by
  unfold placeOne
  (repeat' split) <;> simp

@[simp] theorem placeWork_keep (s : State) : (placeWork s).keep = s.keep := by
  unfold placeWork
  simp (disch := (intros; split <;> simp))

@[simp] theorem reissueForge_keep (l : Nat) (s : State) : (reissueForge l s).keep = s.keep := by
  unfold reissueForge
  simp

@[simp] theorem leaveForge_keep (l : Nat) (s : State) : (leaveForge l s).keep = s.keep := by
  unfold leaveForge
  simp

@[simp] theorem setMap_keep (l m : Nat) (s : State) : (setMap l m s).keep = s.keep := by
  unfold setMap
  simp

@[simp] theorem packetDone_keep (slot : Nat) (r : Res) (s : State) : (packetDone slot r s).keep = s.keep := by
  unfold packetDone
  simp

@[simp] theorem forgeCmdDone_keep (m : Nat) (r : Res) (s : State) : (forgeCmdDone m r s).keep = s.keep := by
  unfold forgeCmdDone
  split <;> simp

@[simp] theorem postMail_keep (code arg : Nat) (s : State) : (postMail code arg s).keep = s.keep := by
  unfold postMail
  simp

@[simp] theorem pauseRotation_keep (m : Nat) (s : State) : (pauseRotation m s).keep = s.keep := by
  unfold pauseRotation
  simp

@[simp] theorem latchForge_keep (m b : Nat) (lane : Option Nat) (s : State) : (latchForge m b lane s).keep = s.keep := by
  unfold latchForge
  simp

@[simp] theorem countFailover_keep (m : Nat) (s : State) : (countFailover m s).keep = s.keep := by
  unfold countFailover
  simp

@[simp] theorem loseLogical_keep (l : Nat) (s : State) : (loseLogical l s).keep = s.keep := by
  unfold loseLogical
  simp

@[simp] theorem forgeFailed_keep (m : Nat) (s : State) : (forgeFailed m s).keep = s.keep := by
  unfold forgeFailed
  simp

@[simp] theorem reportForge_keep (m : Nat) (s : State) : (reportForge m s).keep = s.keep := by
  unfold reportForge
  simp

@[simp] theorem enterActive_keep (m l : Nat) (s : State) : (enterActive m l s).keep = s.keep := by
  unfold enterActive
  simp

@[simp] theorem takeLogical_keep (m l : Nat) (s : State) : (takeLogical m l s).keep = s.keep := by
  unfold takeLogical
  simp

@[simp] theorem spareFailed_keep (m : Nat) (s : State) : (spareFailed m s).keep = s.keep := by
  unfold spareFailed
  dsimp only
  split <;> simp

@[simp] theorem retiringFailed_keep (m : Nat) (s : State) : (retiringFailed m s).keep = s.keep := by
  unfold retiringFailed
  dsimp only
  split <;> simp

@[simp] theorem activeFailed_keep (m : Nat) (s : State) : (activeFailed m s).keep = s.keep := by
  unfold activeFailed
  split <;> simp

@[simp] theorem forgeFault_keep (m b : Nat) (lane : Option Nat) (s : State) : (forgeFault m b lane s).keep = s.keep := by
  unfold forgeFault
  (repeat' (first | split | dsimp only)) <;> simp

@[simp] theorem rateLane_keep (m k : Nat) (dev : Bool) (s : State) : (rateLane m k dev s).keep = s.keep := by
  unfold rateLane
  simp

@[simp] theorem startRetire_keep (m : Nat) (s : State) : (startRetire m s).keep = s.keep := by
  unfold startRetire
  split <;> simp

@[simp] theorem startRestore_keep (m : Nat) (s : State) : (startRestore m s).keep = s.keep := by
  unfold startRestore
  simp

@[simp] theorem wakeForge_keep (l : Nat) (s : State) : (wakeForge l s).keep = s.keep := by
  unfold wakeForge
  simp

@[simp] theorem cancelDrains_keep (s : State) : (cancelDrains s).keep = s.keep := by
  unfold cancelDrains
  simp

@[simp] theorem wakeAll_keep (s : State) : (wakeAll s).keep = s.keep := by
  unfold wakeAll
  simp

@[simp] theorem bellowsUp_keep (s : State) : (bellowsUp s).keep = s.keep := by
  unfold bellowsUp
  dsimp only
  split
  · split <;> simp
  · split <;> simp

@[simp] theorem bellowsDown_keep (s : State) : (bellowsDown s).keep = s.keep := by
  unfold bellowsDown
  dsimp only
  split
  · split <;> simp
  · split
    · split <;> simp
    · rfl

@[simp] theorem rateWindow_keep (n : Nat) (r : LaneRate) (s : State) : (rateWindow n r s).keep = s.keep := by
  unfold rateWindow
  simp

@[simp] theorem beginMeas_keep (m len : Nat) (s : State) : (beginMeas m len s).keep = s.keep := by
  unfold beginMeas
  simp

@[simp] theorem putMeas_keep (m : Nat) (d : List Byte) (s : State) : (putMeas m d s).keep = s.keep := by
  unfold putMeas
  simp

@[simp] theorem rotationDone_keep (r : Rotation) (s : State) : (rotationDone r s).keep = s.keep := by
  unfold rotationDone
  simp

@[simp] theorem loadSpare_keep (k : Nat) (r : Rotation) (s : State) : (loadSpare k r s).keep = s.keep := by
  unfold loadSpare
  simp

@[simp] theorem becomeSpare_keep (m : Nat) (s : State) : (becomeSpare m s).keep = s.keep := by
  unfold becomeSpare
  simp

@[simp] theorem bankFail_keep (b cause : Nat) (s : State) : (bankFail b cause s).keep = s.keep := by
  unfold bankFail
  simp

@[simp] theorem wordFail_keep (b : Nat) (s : State) : (wordFail b s).keep = s.keep := by
  unfold wordFail
  simp

@[simp] theorem remask_keep (n : Nat) (s : State) : (remask n s).keep = s.keep := by
  unfold remask
  simp

@[simp] theorem passEnd_keep (s : State) : (passEnd s).keep = s.keep := by
  unfold passEnd
  simp

@[simp] theorem moveUnit_keep (u : Nat) (s : State) : (moveUnit u s).keep = s.keep := by
  unfold moveUnit
  simp

@[simp] theorem leavePipe_keep (p : Nat) (t : State) (j : Job) : (leavePipe p t j).keep = t.keep := by
  unfold leavePipe
  simp

@[simp] theorem restageOn_keep (p : Nat) (s : State) : (restageOn p s).keep = s.keep := by
  unfold restageOn
  simp

@[simp] theorem leaveMeasured_keep (p : Nat) (s : State) : (leaveMeasured p s).keep = s.keep := by
  unfold leaveMeasured
  split <;> simp

@[simp] theorem pipeFail_keep (p cause : Nat) (s : State) : (pipeFail p cause s).keep = s.keep := by
  unfold pipeFail
  simp

@[simp] theorem unitFail_keep (u cause : Nat) (s : State) : (unitFail u cause s).keep = s.keep := by
  unfold unitFail
  simp

@[simp] theorem reseed_keep (s : State) : (reseed s).keep = s.keep := by
  unfold reseed
  simp

@[simp] theorem retireSource_keep (a : Bool) (s : State) : (retireSource a s).keep = s.keep := by
  unfold retireSource
  dsimp only
  split <;> simp

@[simp] theorem restartYuham_keep (s : State) : (restartYuham s).keep = s.keep := by
  unfold restartYuham
  simp

@[simp] theorem oryHalf_keep (first : Bool) (s : State) : (oryHalf first s).keep = s.keep := by
  unfold oryHalf
  simp

@[simp] theorem deferPackets_keep (s : State) : (deferPackets s).keep = s.keep := by
  unfold deferPackets
  simp

@[simp] theorem yuhamUp_keep (s : State) : (yuhamUp s).keep = s.keep := by
  unfold yuhamUp
  dsimp only
  split <;> simp

end Sys2Proof.Machine
end

