-- ==== Sys2Proof/Laws/KeepJobs.lean ====
section
/-! SUPPORT. Admission, the opcodes, delivery and the Vault leave the queue of commands and the fuses as they are. -/

namespace Sys2Proof.Machine
open Sys2Proof.Laws

@[simp] theorem State.modTurn_keep (s : State) (c : Sched) (f : Turn → Turn) : (State.modTurn s c f).keep = s.keep := by
  unfold State.modTurn
  simp

@[simp] theorem chargeSlot_keep (i : Nat) (c : Sched) (bytes : Nat) (s : State) :
    (chargeSlot i c bytes s).keep = s.keep := by
  unfold chargeSlot
  simp

@[simp] theorem passSlot_keep (s : State) : (passSlot s).keep = s.keep := by
  unfold passSlot
  simp

@[simp] theorem reserveEgress_keep (p cls prio i tag bytes : Nat) (desc : Bool) (s : State) :
    (reserveEgress p cls prio i tag bytes desc s).keep = s.keep := by
  unfold reserveEgress
  simp

@[simp] theorem countOutcome_keep (j : Job) (ok : Bool) (s : State) : (countOutcome j ok s).keep = s.keep := by
  unfold countOutcome
  split <;> simp

@[simp] theorem refuseJob_keep (tag : Nat) (r : Res) (s : State) : (refuseJob tag r s).keep = s.keep := by
  unfold refuseJob
  (repeat' split) <;> simp

@[simp] theorem addMiss_keep (h i : Nat) (s : State) : (addMiss h i s).keep = s.keep := by
  unfold addMiss
  simp

@[simp] theorem wakeSet_keep (set : List Nat) (s : State) : (wakeSet set s).keep = s.keep := by
  unfold wakeSet
  simp

@[simp] theorem startJob_keep (tag : Nat) (s : State) : (startJob tag s).keep = s.keep := by
  unfold startJob
  split <;> simp

theorem takeNumber_keep {s : State} {j : Job} {e : Nat} {p : Job × State} (h : takeNumber s j e = .ok p) :
    p.2.keep = s.keep := by
  unfold takeNumber at h
  dsimp only at h
  split at h
  · split at h <;> cases h <;> simp
  · split at h
    · split at h <;> cases h <;> simp
    · cases h; rfl

@[simp] theorem admitChecked_keep (tag e : Nat) (j : Job) (s : State) : (admitChecked tag e j s).keep = s.keep := by
  unfold admitChecked
  dsimp only
  split
  · simp
  · split
    · simp
    · split <;> rename_i h
      · simp
      · simp [takeNumber_keep h]

@[simp] theorem admitHit_keep (tag e : Nat) (j : Job) (s : State) : (admitHit tag e j s).keep = s.keep := by
  unfold admitHit
  dsimp only
  split
  · simp
  · split
    · simp
    · split
      · simp
      · split
        · simp
        · split <;> simp

@[simp] theorem admitPlain_keep (tag : Nat) (j : Job) (s : State) : (admitPlain tag j s).keep = s.keep := by
  unfold admitPlain
  (repeat' split) <;> simp

@[simp] theorem admitJob_keep (tag : Nat) (s : State) : (admitJob tag s).keep = s.keep := by
  unfold admitJob
  split
  · rfl
  · split
    · rfl
    · split
      · simp
      · split
        · simp
        · split <;> simp
        · simp

@[simp] theorem resumeHeld_keep (s : State) : (resumeHeld s).keep = s.keep := by
  unfold resumeHeld
  simp

@[simp] theorem resumeHandle_keep (h : Nat) (s : State) : (resumeHandle h s).keep = s.keep := by
  unfold resumeHandle
  simp

@[simp] theorem takeCached_keep (n : Nat) (e : Entry) (fin : Option Res) (s : State) :
    (takeCached n e fin s).keep = s.keep := by
  unfold takeCached
  simp

@[simp] theorem admitEntry_keep (n : Nat) (e : Entry) (i : Nat) (s : State) : (admitEntry n e i s).keep = s.keep := by
  unfold admitEntry
  (repeat' (first | split | dsimp only)) <;> simp

@[simp] theorem admitCached_keep (n : Nat) (flip : Option Nat) (e : Entry) (i : Nat) (s : State) :
    (admitCached n flip e i s).keep = s.keep := by
  unfold admitCached
  simp

@[simp] theorem admitFrame_keep (p i : Nat) (f : InFrame) (s : State) : (admitFrame p i f s).keep = s.keep := by
  unfold admitFrame
  split
  · dsimp only
    rw [admitJob_keep]
    simp
  · rfl

@[simp] theorem ingressFail_keep (p i : Nat) (f : InFrame) (s : State) : (ingressFail p i f s).keep = s.keep := by
  unfold ingressFail
  simp

@[simp] theorem resumeSegment_keep (j : Job) (s : State) : (resumeSegment j s).keep = s.keep := by
  unfold resumeSegment
  dsimp only
  split
  · simp
  · split <;> simp
  · split <;> simp

@[simp] theorem admitWork_keep (i : Nat) (flip : Option Nat) (w : Work) (s : State) :
    (admitWork i flip w s).keep = s.keep := by
  unfold admitWork
  split <;> simp

@[simp] theorem hslotFail_keep (n : Nat) (s : State) : (hslotFail n s).keep = s.keep := by
  unfold hslotFail
  simp

@[simp] theorem markVerified_keep (tag slot num : Nat) (s : State) : (markVerified tag slot num s).keep = s.keep := by
  unfold markVerified
  simp

@[simp] theorem closeJob_keep (j : Job) (out : List Byte) (n : Nat) (post : List (Nat × List Byte)) (r : Res)
    (s : State) : (closeJob j out n post r s).keep = s.keep := by
  unfold closeJob
  simp

@[simp] theorem tagVerdict_keep (j : Job) (s : State) : (j.tagVerdict s).2.keep = s.keep := by
  unfold Job.tagVerdict
  split <;> simp

@[simp] theorem endText_keep (j : Job) (s : State) : (endText j s).keep = s.keep := by
  unfold endText
  (repeat' (first | split | dsimp only)) <;> simp

@[simp] theorem endShort_keep (j : Job) (got : Nat) (r : Res) (s : State) : (endShort j got r s).keep = s.keep := by
  unfold endShort
  simp

@[simp] theorem startText_keep (got : Nat) (m : Made) (j : Job) (s : State) : (startText got m j s).keep = s.keep := by
  unfold startText
  split <;> simp

@[simp] theorem startComet_keep (m : Made) (j : Job) (s : State) : (startComet m j s).keep = s.keep := by
  unfold startComet
  simp

@[simp] theorem symRun_keep (dec : Bool) (j : Job) (s : State) : (symRun dec j s).keep = s.keep := by
  unfold symRun
  simp

@[simp] theorem startRx_keep (m : Except Res Made) (g : Option Res) (j : Job) (s : State) :
    (startRx m g j s).keep = s.keep := by
  unfold startRx
  split <;> simp

@[simp] theorem macsecSend_keep (j : Job) (s : State) : (macsecSend j s).keep = s.keep := by
  unfold macsecSend
  simp

@[simp] theorem macsecReceive_keep (j : Job) (s : State) : (macsecReceive j s).keep = s.keep := by
  unfold macsecReceive
  simp

@[simp] theorem drbgUse_keep (n : Nat) (s : State) : (drbgUse n s).keep = s.keep := by
  unfold drbgUse
  simp

@[simp] theorem withDrbg_keep (f : Job → State → State) (j : Job) (s : State) (hf : ∀ x0 x1, (f x0 x1).keep = x1.keep) :
    (withDrbg f j s).keep = s.keep := by
  unfold withDrbg
  simp [hf]

@[simp] theorem espSend_keep (j : Job) (s : State) : (espSend j s).keep = s.keep := by
  unfold espSend
  split <;> simp

@[simp] theorem espReceive_keep (j : Job) (s : State) : (espReceive j s).keep = s.keep := by
  unfold espReceive
  simp

@[simp] theorem endDigest_keep (j : Job) (s : State) : (endDigest j s).keep = s.keep := by
  unfold endDigest
  (repeat' split) <;> simp

@[simp] theorem startDigest_keep (j : Job) (s : State) : (startDigest j s).keep = s.keep := by
  unfold startDigest
  simp

@[simp] theorem wipeUnit_keep (tag : Nat) (s : State) : (wipeUnit tag s).keep = s.keep := by
  unfold wipeUnit
  split <;> simp

@[simp] theorem checkFails_keep (bit : Nat) (j : Job) (s : State) : (checkFails bit j s).keep = s.keep := by
  unfold checkFails
  split <;> simp

@[simp] theorem jobFails_keep (r : Res) (j : Job) (s : State) : (jobFails r j s).keep = s.keep := by
  unfold jobFails
  simp

@[simp] theorem jobGives_keep (out : List Byte) (j : Job) (s : State) : (jobGives out j s).keep = s.keep := by
  unfold jobGives
  simp

@[simp] theorem withPriv_keep (f : List Byte → Job → State → State) (j : Job) (s : State) (hf : ∀ x0 x1 x2,
    (f x0 x1 x2).keep = x2.keep) : (withPriv f j s).keep = s.keep := by
  unfold withPriv
  split <;> simp [hf]

@[simp] theorem rsaPrivRun_keep (k : List Byte) (j : Job) (s : State) : (rsaPrivRun k j s).keep = s.keep := by
  unfold rsaPrivRun
  simp

@[simp] theorem rsaPubRun_keep (j : Job) (s : State) : (rsaPubRun j s).keep = s.keep := by
  unfold rsaPubRun
  simp

theorem ecdsaSig_keep {c : Curve} {h d : Nat} {det : Bool} {digest : List Byte} {s : State} {p : List Byte × State}
    (he : ecdsaSig c h det d digest s = some p) : p.2.keep = s.keep := by
  unfold ecdsaSig at he
  split at he <;> (obtain ⟨x, -, rfl⟩ := Option.map_eq_some_iff.mp he) <;> simp

@[simp] theorem ecdsaRun_keep (d : Nat) (j : Job) (s : State) : (ecdsaRun d j s).keep = s.keep := by
  unfold ecdsaRun
  dsimp only
  split
  · simp
  · rename_i h
    have := ecdsaSig_keep h
    split <;> simpa using this

@[simp] theorem signRun_keep (k : List Byte) (j : Job) (s : State) : (signRun k j s).keep = s.keep := by
  unfold signRun
  (repeat' (first | split | dsimp only)) <;> simp

@[simp] theorem verifyRun_keep (j : Job) (s : State) : (verifyRun j s).keep = s.keep := by
  unfold verifyRun
  (repeat' (first | split | dsimp only)) <;> simp

@[simp] theorem installFor_keep (j : Job) (e : Nat) (m : List Byte) (s : State) : (installFor j e m s).keep = s.keep := by
  unfold installFor
  simp

@[simp] theorem withTarget_keep (f : Nat → Job → State → State) (j : Job) (s : State) (hf : ∀ x0 x1 x2,
    (f x0 x1 x2).keep = x2.keep) : (withTarget f j s).keep = s.keep := by
  unfold withTarget
  split <;> simp [hf]

@[simp] theorem installSecret_keep (e : Nat) (secret out : List Byte) (j : Job) (s : State) :
    (installSecret e secret out j s).keep = s.keep := by
  unfold installSecret
  simp

@[simp] theorem deriveRun_keep (e : Nat) (j : Job) (s : State) : (deriveRun e j s).keep = s.keep := by
  unfold deriveRun
  simp

@[simp] theorem unwrapRun_keep (e : Nat) (j : Job) (s : State) : (unwrapRun e j s).keep = s.keep := by
  unfold unwrapRun
  dsimp only
  split <;> simp

@[simp] theorem agreeRun_keep (e : Nat) (j : Job) (s : State) : (agreeRun e j s).keep = s.keep := by
  unfold agreeRun
  (repeat' (first | split | dsimp only)) <;> simp (disch := (intros; (repeat' split) <;> simp))

@[simp] theorem encapsRun_keep (e : Nat) (j : Job) (s : State) : (encapsRun e j s).keep = s.keep := by
  unfold encapsRun
  simp

@[simp] theorem decapsRun_keep (e : Nat) (j : Job) (s : State) : (decapsRun e j s).keep = s.keep := by
  unfold decapsRun
  simp

theorem countWrap_keep {i : Nat} {s t : State} (h : countWrap i s = some t) : t.keep = s.keep := by
  unfold countWrap at h
  dsimp only at h
  split at h
  · cases h
  · (repeat' split at h) <;> cases h <;> simp

@[simp] theorem keygenGive_keep (pub k : List Byte) (j : Job) (s : State) : (keygenGive pub k j s).keep = s.keep := by
  unfold keygenGive
  dsimp only
  split
  · simp
  · split <;> rename_i h
    · simp
    · have := countWrap_keep h
      simp_all

@[simp] theorem rsaSearchGo_keep (fuel k : Nat) (j : Job) (s : State) : (rsaSearchGo fuel k j s).keep = s.keep := by
  induction fuel generalizing s with
  | zero => rfl
  | succ f ih =>
    unfold rsaSearchGo
    dsimp only
    split
    · simp [ih]
    · split <;> split <;> (repeat' split) <;> simp [ih]

@[simp] theorem keygenMake_keep (j : Job) (s : State) : (keygenMake j s).keep = s.keep := by
  unfold keygenMake
  dsimp only
  split
  · simp
  · split <;> simp

@[simp] theorem keygenRun_keep (j : Job) (s : State) : (keygenRun j s).keep = s.keep := by
  unfold keygenRun
  simp

@[simp] theorem lastUser_keep (e : Nat) (s : State) : (lastUser e s).keep = s.keep := by
  unfold lastUser
  simp

@[simp] theorem abandonJob_keep (t : State) (j : Job) : (abandonJob t j).keep = t.keep := by
  unfold abandonJob
  (repeat' split) <;> simp

@[simp] theorem passText_keep (j : Job) (s : State) : (passText j s).keep = s.keep := by
  unfold passText
  simp

@[simp] theorem passDigest_keep (j : Job) (s : State) : (passDigest j s).keep = s.keep := by
  unfold passDigest
  simp

@[simp] theorem passStripe_keep (i : Nat) (j : Job) (c : Comet) (s : State) : (passStripe i j c s).keep = s.keep := by
  unfold passStripe
  split <;> simp

@[simp] theorem boundaryPass_keep (i : Nat) (j : Job) (s : State) : (boundary.boundaryPass i j s).keep = s.keep := by
  unfold boundary.boundaryPass
  (repeat' (first | split | dsimp only)) <;> simp

@[simp] theorem boundary_keep (i : Nat) (j : Job) (s : State) : (boundary i j s).keep = s.keep := by
  unfold boundary
  (repeat' (first | split | dsimp only)) <;> simp

@[simp] theorem yieldStripe_keep (i : Nat) (j : Job) (c : Comet) (s : State) : (yieldStripe i j c s).keep = s.keep := by
  unfold yieldStripe
  split <;> simp

@[simp] theorem yieldJob_keep (j : Job) (s : State) : (yieldJob j s).keep = s.keep := by
  unfold yieldJob
  (repeat' split) <;> simp

@[simp] theorem commitSegment_keep (tag i : Nat) (s : State) : (commitSegment tag i s).keep = s.keep := by
  unfold commitSegment
  (repeat' split) <;> simp

@[simp] theorem combine_keep (j : Job) (c : Comet) (s : State) : (combine j c s).keep = s.keep := by
  unfold combine
  simp

@[simp] theorem handBack_keep (j : Job) (r : Res) (s : State) : (handBack j r s).keep = s.keep := by
  unfold handBack
  split <;> simp

@[simp] theorem completeJob_keep (j : Job) (r0 : Res) (s : State) : (completeJob j r0 s).keep = s.keep := by
  unfold completeJob
  (repeat' split) <;> simp

@[simp] theorem commitFrame_keep (j : Job) (p cls : Nat) (s : State) : (commitFrame j p cls s).keep = s.keep := by
  unfold commitFrame
  simp

@[simp] theorem frameEnd_keep (j : Job) (p cls : Nat) (r : Res) (s : State) : (frameEnd j p cls r s).keep = s.keep := by
  unfold frameEnd
  split <;> simp

@[simp] theorem askDone_keep (h i : Nat) (r : Res) (s : State) : (askDone h i r s).keep = s.keep := by
  unfold askDone
  simp

@[simp] theorem endMiss_keep (h i : Nat) (r : Res) (s : State) : (endMiss h i r s).keep = s.keep := by
  unfold endMiss
  simp

@[simp] theorem startFetch_keep (h : Nat) (s : State) : (startFetch h s).keep = s.keep := by
  unfold startFetch
  simp

@[simp] theorem recFault_keep (h : Nat) (f : Option (Nat × Nat)) (s : State) : (recFault h f s).keep = s.keep := by
  unfold recFault
  split <;> simp

@[simp] theorem loadRecKey_keep (e : Nat) (c : Ctx) (hd pt : List Byte) (slot : Nat) (s : State) :
    (loadRecKey e c hd pt slot s).keep = s.keep := by
  unfold loadRecKey
  simp

@[simp] theorem fillEntry_keep (e : Nat) (c : Ctx) (s : State) : (fillEntry e c s).keep = s.keep := by
  unfold fillEntry
  simp

@[simp] theorem loadRecord_keep (h : Nat) (r : Opened) (s : State) : (loadRecord h r s).keep = s.keep := by
  unfold loadRecord
  simp

@[simp] theorem dropFetch_keep (f : Fetch) (s : State) : (dropFetch f s).keep = s.keep := by
  unfold dropFetch
  simp

@[simp] theorem endAll_keep (h : Nat) (r : Res) (s : State) : (endAll h r s).keep = s.keep := by
  unfold endAll
  simp

@[simp] theorem releaseHandle_keep (h : Nat) (s : State) : (releaseHandle h s).keep = s.keep := by
  unfold releaseHandle
  simp

@[simp] theorem deliverRecord_keep (f : Fetch) (r : Opened) (s : State) : (deliverRecord f r s).keep = s.keep := by
  unfold deliverRecord
  (repeat' (first | split | dsimp only)) <;> simp

@[simp] theorem vaultSettle_keep (s : State) : (vaultSettle s).keep = s.keep := by
  unfold vaultSettle
  simp

@[simp] theorem fetchEnd_keep (f : Fetch) (s : State) : (fetchEnd f s).keep = s.keep := by
  unfold fetchEnd
  (repeat' (first | split | dsimp only)) <;> simp

@[simp] theorem startEvict_keep (h e : Nat) (del flush : Bool) (s : State) : (startEvict h e del flush s).keep = s.keep := by
  unfold startEvict
  simp

@[simp] theorem sealDone_keep (h : Nat) (r : Res) (x : Nat) (s : State) : (sealDone h r x s).keep = s.keep := by
  unfold sealDone
  simp

@[simp] theorem freeEntry_keep (e : Nat) (s : State) : (freeEntry e s).keep = s.keep := by
  unfold freeEntry
  simp

@[simp] theorem giveUpSeal_keep (v : Evict) (e : Nat) (s : State) : (giveUpSeal v e s).keep = s.keep := by
  unfold giveUpSeal
  simp

@[simp] theorem sealEntry_keep (v : Evict) (e : Nat) (n1 n2 n3 : List Byte) (s : State) :
    (sealEntry v e n1 n2 n3 s).keep = s.keep := by
  unfold sealEntry
  simp

@[simp] theorem vaultInitStart_keep (s : State) : (vaultInitStart s).keep = s.keep := by
  unfold vaultInitStart
  simp

@[simp] theorem vltCtl_keep (v : Word) (s : State) : (vltCtl v s).keep = s.keep := by
  unfold vltCtl
  simp

@[simp] theorem sweepPast_keep (h : Nat) (s : State) : (sweepPast h s).keep = s.keep := by
  unfold sweepPast
  simp

@[simp] theorem sweepDone_keep (s : State) : (sweepDone s).keep = s.keep := by
  unfold sweepDone
  simp

@[simp] theorem sweepRecord_keep (h : Nat) (rids : List Nat) (s : State) : (sweepRecord h rids s).keep = s.keep := by
  unfold sweepRecord
  dsimp only
  split
  · split
    · simp
    · split
      · simp
      · split
        · simp
        · split <;> simp
  · simp

end Sys2Proof.Machine
end

