-- ==== Sys2Proof/Laws/KeepCommands.lean ====
section
/-! SUPPORT. The command packets, the register file, Boot and the I3C target leave the queue of commands and the fuses as
they are. -/

namespace Sys2Proof.Machine
open Sys2Proof.Laws

@[simp] theorem modPacket_keep (slot : Nat) (f : Packet → Packet) (s : State) : (modPacket slot f s).keep = s.keep := by
  unfold modPacket
  simp

@[simp] theorem endCmd_keep (slot : Nat) (r : Res) (x : Nat) (s : State) : (endCmd slot r x s).keep = s.keep := by
  unfold endCmd
  simp

@[simp] theorem failCmd_keep (slot : Nat) (r : Res) (s : State) : (failCmd slot r s).keep = s.keep := by
  unfold failCmd
  simp

@[simp] theorem stopCmd_keep (slot : Nat) (r : Res) (s : State) : (stopCmd slot r s).keep = s.keep := by
  unfold stopCmd
  simp

@[simp] theorem cmdRead_keep (slot k addr len : Nat) (s : State) : (cmdRead slot k addr len s).keep = s.keep := by
  unfold cmdRead
  simp

@[simp] theorem cmdWrite_keep (slot addr : Nat) (b : List Byte) (s : State) : (cmdWrite slot addr b s).keep = s.keep := by
  unfold cmdWrite
  simp

@[simp] theorem advanceCmd_keep (slot opc : Nat) (f : Packet → State → State) (s : State) (hf : ∀ x0 x1,
    (f x0 x1).keep = x1.keep) : (advanceCmd slot opc f s).keep = s.keep := by
  unfold advanceCmd
  (repeat' split) <;> simp [hf]

@[simp] theorem takeCmd_keep (e : Entry) (s : State) : (takeCmd e s).keep = s.keep := by
  unfold takeCmd
  simp

@[simp] theorem startCmd_keep (e : Entry) (reads : Packet → List (Nat × Nat)) (s : State) :
    (startCmd e reads s).keep = s.keep := by
  unfold startCmd
  simp

@[simp] theorem holdCmd_keep (e : Entry) (s : State) : (holdCmd e s).keep = s.keep := by
  unfold holdCmd
  simp

@[simp] theorem runCmd_keep (slot opc : Nat) (sel : Nat → Bool) (reads : Packet → List (Nat × Nat))
    (f : Packet → State → State) (s : State) (hf : ∀ x0 x1, (f x0 x1).keep = x1.keep) :
    (runCmd slot opc sel reads f s).keep = s.keep := by
  unfold runCmd
  (repeat' split) <;> simp [hf]

@[simp] theorem dropPacket_keep (p : Packet) (s : State) : (dropPacket p s).keep = s.keep := by
  unfold dropPacket
  simp

@[simp] theorem closePacket_keep (p : Packet) (r : Res) (s : State) : (closePacket p r s).keep = s.keep := by
  unfold closePacket
  simp

@[simp] theorem bumpAsgen_keep (n : Nat) (s : State) : (bumpAsgen n s).keep = s.keep := by
  unfold bumpAsgen
  simp

@[simp] theorem trimTlb_keep (n : Nat) (s : State) : (trimTlb n s).keep = s.keep := by
  unfold trimTlb
  simp

@[simp] theorem setResources_keep (n d : Nat) (g : Nat → Bool) (s : State) : (setResources n d g s).keep = s.keep := by
  unfold setResources
  simp

@[simp] theorem resetRing_keep (n : Nat) (s : State) : (resetRing n s).keep = s.keep := by
  unfold resetRing
  simp

@[simp] theorem resetNr_keep (k : Nat) (s : State) : (resetNr k s).keep = s.keep := by
  unfold resetNr
  split <;> simp

@[simp] theorem resetPort_keep (n : Nat) (s : State) (p : Nat) : (resetPort n s p).keep = s.keep := by
  unfold resetPort
  simp

@[simp] theorem startReset_keep (n : Nat) (s : State) : (startReset n s).keep = s.keep := by
  unfold startReset
  simp

@[simp] theorem reenableRing_keep (n : Nat) (s : State) : (reenableRing n s).keep = s.keep := by
  unfold reenableRing
  simp

@[simp] theorem enableInst_keep (n : Nat) (s : State) : (enableInst n s).keep = s.keep := by
  unfold enableInst
  simp

@[simp] theorem shutDone_keep (n : Nat) (reset : Bool) (s : State) : (shutDone n reset s).keep = s.keep := by
  unfold shutDone
  (repeat' (first | split | dsimp only)) <;> simp

@[simp] theorem ownSequence_keep (n slot : Nat) (s : State) : (ownSequence n slot s).keep = s.keep := by
  unfold ownSequence
  simp

@[simp] theorem startStop_keep (n : Nat) (s : State) : (startStop n s).keep = s.keep := by
  unfold startStop
  simp

@[simp] theorem startQuiet_keep (n : Nat) (s : State) : (startQuiet n s).keep = s.keep := by
  unfold startQuiet
  simp

@[simp] theorem createInst_keep (p : Packet) (s : State) : (createInst p s).keep = s.keep := by
  unfold createInst
  simp

@[simp] theorem resizeInst_keep (p : Packet) (s : State) : (resizeInst p s).keep = s.keep := by
  unfold resizeInst
  simp

@[simp] theorem resetInst_keep (p : Packet) (s : State) : (resetInst p s).keep = s.keep := by
  unfold resetInst
  (repeat' (first | split | dsimp only)) <;> simp

@[simp] theorem releaseInst_keep (n : Nat) (s : State) : (releaseInst n s).keep = s.keep := by
  unfold releaseInst
  simp

@[simp] theorem releaseCmd_keep (p : Packet) (s : State) : (releaseCmd p s).keep = s.keep := by
  unfold releaseCmd
  simp

@[simp] theorem enableCmd_keep (p : Packet) (s : State) : (enableCmd p s).keep = s.keep := by
  unfold enableCmd
  (repeat' (first | split | dsimp only)) <;> simp

@[simp] theorem disableCmd_keep (p : Packet) (s : State) : (disableCmd p s).keep = s.keep := by
  unfold disableCmd
  (repeat' (first | split | dsimp only)) <;> simp

@[simp] theorem eclipseCmd_keep (p : Packet) (s : State) : (eclipseCmd p s).keep = s.keep := by
  unfold eclipseCmd
  simp

@[simp] theorem swapCmd_keep (p : Packet) (s : State) : (swapCmd p s).keep = s.keep := by
  unfold swapCmd
  simp

@[simp] theorem fenceFlush_keep (s : State) : (fenceFlush s).keep = s.keep := by
  unfold fenceFlush
  simp

@[simp] theorem fenceCmd_keep (p : Packet) (s : State) : (fenceCmd p s).keep = s.keep := by
  unfold fenceCmd
  simp

@[simp] theorem askCtx_keep (slot h i : Nat) (s : State) : (askCtx slot h i s).keep = s.keep := by
  unfold askCtx
  simp

@[simp] theorem withCtx_keep (p : Packet) (asker : Nat) (k : Nat → State → State) (s : State) (hk : ∀ x0 x1,
    (k x0 x1).keep = x1.keep) : (withCtx p asker k s).keep = s.keep := by
  unfold withCtx
  split <;> simp [hk]

@[simp] theorem pinCtx_keep (e : Nat) (b : Bool) (s : State) : (pinCtx e b s).keep = s.keep := by
  unfold pinCtx
  simp

@[simp] theorem putMaterial_keep (e slot : Nat) (m : List Byte) (parent : Nat) (s : State) :
    (putMaterial e slot m parent s).keep = s.keep := by
  unfold putMaterial
  simp

@[simp] theorem makeCtx_keep (p : Packet) (c : Ctx) (ma : List Byte) (mb : Option (List Byte)) (s : State) :
    (makeCtx p c ma mb s).keep = s.keep := by
  unfold makeCtx
  (repeat' split) <;> simp

@[simp] theorem createKeys_keep (p : Packet) (c : Ctx) (s : State) : (createKeys p c s).keep = s.keep := by
  unfold createKeys
  (repeat' (first | split | dsimp only)) <;> simp

@[simp] theorem createRead_keep (p : Packet) (c : Ctx) (s : State) : (createRead p c s).keep = s.keep := by
  unfold createRead
  simp

@[simp] theorem createCmd_keep (p : Packet) (s : State) : (createCmd p s).keep = s.keep := by
  unfold createCmd
  (repeat' (first | split | dsimp only)) <;> simp

@[simp] theorem loadCmd_keep (p : Packet) (s : State) : (loadCmd p s).keep = s.keep := by
  unfold loadCmd
  simp

@[simp] theorem sealCmd_keep (p : Packet) (e : Nat) (del flush : Bool) (s : State) :
    (sealCmd p e del flush s).keep = s.keep := by
  unfold sealCmd
  simp

@[simp] theorem evictCmd_keep (p : Packet) (s : State) : (evictCmd p s).keep = s.keep := by
  unfold evictCmd
  (repeat' split) <;> simp

@[simp] theorem flushCmd_keep (p : Packet) (s : State) : (flushCmd p s).keep = s.keep := by
  unfold flushCmd
  (repeat' split) <;> simp

@[simp] theorem exportCtx_keep (p : Packet) (e : Nat) (s : State) : (exportCtx p e s).keep = s.keep := by
  unfold exportCtx
  simp

@[simp] theorem exportCmd_keep (p : Packet) (s : State) : (exportCmd p s).keep = s.keep := by
  unfold exportCmd
  split <;> simp

@[simp] theorem importCtx_keep (p : Packet) (r : Opened) (s : State) : (importCtx p r s).keep = s.keep := by
  unfold importCtx
  simp

@[simp] theorem importCmd_keep (p : Packet) (s : State) : (importCmd p s).keep = s.keep := by
  unfold importCmd
  (repeat' split) <;> simp

@[simp] theorem applyAttr_keep (p : Packet) (e : Nat) (s : State) : (applyAttr p e s).keep = s.keep := by
  unfold applyAttr
  simp

@[simp] theorem applyNumbers_keep (p : Packet) (e slot : Nat) (s : State) : (applyNumbers p e slot s).keep = s.keep := by
  unfold applyNumbers
  simp

@[simp] theorem installBoth_keep (p : Packet) (e : Nat) (m : List Byte) (s : State) :
    (installBoth p e m s).keep = s.keep := by
  unfold installBoth
  simp

@[simp] theorem rekeyInstall_keep (p : Packet) (e : Nat) (m : List Byte) (s : State) :
    (rekeyInstall p e m s).keep = s.keep := by
  unfold rekeyInstall
  simp

@[simp] theorem rekeyPlain_keep (p : Packet) (e : Nat) (s : State) : (rekeyPlain p e s).keep = s.keep := by
  unfold rekeyPlain
  simp

@[simp] theorem rekeyEntry_keep (p : Packet) (e : Nat) (s : State) : (rekeyEntry p e s).keep = s.keep := by
  unfold rekeyEntry
  (repeat' (first | split | dsimp only)) <;> simp

@[simp] theorem saveKey_keep (p : Packet) (under key : List Byte) (bits : Nat) (s : State) :
    (saveKey p under key bits s).keep = s.keep := by
  unfold saveKey
  dsimp only
  split
  · simp
  · split
    · simp
    · rename_i u h
      have : u.keep = s.keep := by
        split at h
        · cases h; rfl
        · exact countWrap_keep h
      simp [this]

@[simp] theorem savedThen_keep (p : Packet) (under key : List Byte) (bits : Nat) (k : State → State) (s : State) (hk
    : ∀ x0, (k x0).keep = x0.keep) : (savedThen p under key bits k s).keep = s.keep := by
  unfold savedThen
  simp [hk]

@[simp] theorem installKey_keep (p : Packet) (i parent depth : Nat) (key : List Byte) (s : State) :
    (installKey p i parent depth key s).keep = s.keep := by
  unfold installKey
  simp

@[simp] theorem installBelow_keep (p : Packet) (under key : List Byte) (depth : Nat) (s : State) :
    (installBelow p under key depth s).keep = s.keep := by
  unfold installBelow
  split <;> simp

@[simp] theorem deriveCmd_keep (p : Packet) (s : State) : (deriveCmd p s).keep = s.keep := by
  unfold deriveCmd
  split <;> simp

@[simp] theorem unwrapCmd_keep (p : Packet) (s : State) : (unwrapCmd p s).keep = s.keep := by
  unfold unwrapCmd
  (repeat' (first | split | dsimp only)) <;> simp

@[simp] theorem putSecret_keep (v bits : Nat) (key : List Byte) (s : State) : (putSecret v bits key s).keep = s.keep := by
  unfold putSecret
  simp

@[simp] theorem kemCmd_keep (p : Packet) (s : State) : (kemCmd p s).keep = s.keep := by
  unfold kemCmd
  (repeat' (first | split | dsimp only)) <;> simp

@[simp] theorem restoreKey_keep (p : Packet) (key : List Byte) (s : State) : (restoreKey p key s).keep = s.keep := by
  unfold restoreKey
  simp

@[simp] theorem restoreOpen_keep (p : Packet) (s : State) : (restoreOpen p s).keep = s.keep := by
  unfold restoreOpen
  (repeat' (first | split | dsimp only)) <;> simp

@[simp] theorem restoreCmd_keep (p : Packet) (s : State) : (restoreCmd p s).keep = s.keep := by
  unfold restoreCmd
  split <;> simp

@[simp] theorem destroyKey_keep (i : Nat) (s : State) : (destroyKey i s).keep = s.keep := by
  unfold destroyKey
  simp

@[simp] theorem invalidateCmd_keep (p : Packet) (s : State) : (invalidateCmd p s).keep = s.keep := by
  unfold invalidateCmd
  dsimp only
  split <;> simp

@[simp] theorem State.modHslot_keep (s : State) (n : Nat) (f : HSlot → HSlot) : (State.modHslot s n f).keep = s.keep := by
  unfold State.modHslot
  simp

@[simp] theorem hmacClear_keep (p : Packet) (s : State) : (hmacClear p s).keep = s.keep := by
  unfold hmacClear
  simp

@[simp] theorem hmacFill_keep (p : Packet) (key : List Byte) (s : State) : (hmacFill p key s).keep = s.keep := by
  unfold hmacFill
  simp

@[simp] theorem hmacGo_keep (p : Packet) (s : State) : (hmacGo p s).keep = s.keep := by
  unfold hmacGo
  (repeat' split) <;> simp

@[simp] theorem hmacCmd_keep (p : Packet) (s : State) : (hmacCmd p s).keep = s.keep := by
  unfold hmacCmd
  simp

@[simp] theorem newlyArmed_keep (k : Nat) (was : Bool) (s : State) : (newlyArmed k was s).keep = s.keep := by
  unfold newlyArmed
  simp

@[simp] theorem putTRec_keep (k : Nat) (r : TRec) (s : State) : (putTRec k r s).keep = s.keep := by
  unfold putTRec
  simp

@[simp] theorem applyTamper_keep (b : List Byte) (s : State) : (applyTamper b s).keep = s.keep := by
  unfold applyTamper
  simp

@[simp] theorem applyCalib_keep (b : List Byte) (s : State) : (applyCalib b s).keep = s.keep := by
  unfold applyCalib
  simp

@[simp] theorem selectCopy_keep (s : State) : (selectCopy s).keep = s.keep := by
  unfold selectCopy
  simp

@[simp] theorem measureCopy_keep (s : State) : (measureCopy s).keep = s.keep := by
  unfold measureCopy
  split <;> simp

@[simp] theorem ledgerFail_keep (s : State) : (ledgerFail s).keep = s.keep := by
  unfold ledgerFail
  simp

@[simp] theorem eraseFor_keep (bytes : Nat) (s : State) : (eraseFor bytes s).keep = s.keep := by
  unfold eraseFor
  simp

@[simp] theorem putInactive_keep (c : List Byte) (s : State) : (putInactive c s).keep = s.keep := by
  unfold putInactive
  simp

@[simp] theorem writeConfig_keep (slot : Nat) (body : List Byte) (s : State) : (writeConfig slot body s).keep = s.keep := by
  unfold writeConfig
  simp

@[simp] theorem putImage_keep (kind : Nat) (inB : Bool) (g : Image) (s : State) : (putImage kind inB g s).keep = s.keep := by
  unfold putImage
  simp

@[simp] theorem flipImage_keep (kind : Nat) (s : State) : (flipImage kind s).keep = s.keep := by
  unfold flipImage
  simp

@[simp] theorem tamperCmd_keep (p : Packet) (s : State) : (tamperCmd p s).keep = s.keep := by
  unfold tamperCmd
  simp

@[simp] theorem calibrateCmd_keep (p : Packet) (s : State) : (calibrateCmd p s).keep = s.keep := by
  unfold calibrateCmd
  simp

@[simp] theorem configCmd_keep (p : Packet) (s : State) : (configCmd p s).keep = s.keep := by
  unfold configCmd
  simp

@[simp] theorem rotateCmd_keep (p : Packet) (s : State) : (rotateCmd p s).keep = s.keep := by
  unfold rotateCmd
  simp

@[simp] theorem stageImage_keep (p : Packet) (img digest : List Byte) (s : State) :
    (stageImage p img digest s).keep = s.keep := by
  unfold stageImage
  simp

@[simp] theorem stageCmd_keep (p : Packet) (s : State) : (stageCmd p s).keep = s.keep := by
  unfold stageCmd
  simp

@[simp] theorem beginStage_keep (started : Bool) (s : State) : (beginStage started s).keep = s.keep := by
  unfold beginStage
  split
  · split <;> simp
  · rfl

@[simp] theorem commitPacket_keep (slot : Nat) (s : State) : (commitPacket slot s).keep = s.keep := by
  unfold commitPacket
  simp

@[simp] theorem activateImage_keep (p : Packet) (back raise : Bool) (s : State) :
    (activateImage p back raise s).keep = s.keep := by
  unfold activateImage
  simp

@[simp] theorem unflipYuham_keep (back : Bool) (s : State) : (unflipYuham back s).keep = s.keep := by
  unfold unflipYuham
  simp

@[simp] theorem awaitForge_keep (p : Packet) (m : Nat) (s : State) : (awaitForge p m s).keep = s.keep := by
  unfold awaitForge
  simp

@[simp] theorem retireCmd_keep (p : Packet) (s : State) : (retireCmd p s).keep = s.keep := by
  unfold retireCmd
  (repeat' (first | split | dsimp only)) <;> simp

@[simp] theorem restoreForge_keep (p : Packet) (s : State) : (restoreForge p s).keep = s.keep := by
  unfold restoreForge
  (repeat' (first | split | dsimp only)) <;> simp

@[simp] theorem clockCmd_keep (p : Packet) (s : State) : (clockCmd p s).keep = s.keep := by
  unfold clockCmd
  simp

@[simp] theorem logReadCmd_keep (p : Packet) (s : State) : (logReadCmd p s).keep = s.keep := by
  unfold logReadCmd
  simp

@[simp] theorem putReport_keep (p : Packet) (r : List Byte) (k : State → State) (s : State) (hk : ∀ x0,
    (k x0).keep = x0.keep) : (putReport p r k s).keep = s.keep := by
  unfold putReport
  simp [hk]

@[simp] theorem plainCmd_keep (p : Packet) (s : State) : (plainCmd p s).keep = s.keep := by
  unfold plainCmd
  simp

@[simp] theorem provCmd_keep (p : Packet) (s : State) : (provCmd p s).keep = s.keep := by
  unfold provCmd
  simp

@[simp] theorem putOffer_keep (i : Nat) (seed digest : List Byte) (s : State) :
    (putOffer i seed digest s).keep = s.keep := by
  unfold putOffer
  simp

@[simp] theorem offerCmd_keep (p : Packet) (s : State) : (offerCmd p s).keep = s.keep := by
  unfold offerCmd
  (repeat' split) <;> simp

@[simp] theorem respondKeys_keep (p : Packet) (ra : List Byte) (s : State) : (respondKeys p ra s).keep = s.keep := by
  unfold respondKeys
  simp

@[simp] theorem respondCmd_keep (p : Packet) (s : State) : (respondCmd p s).keep = s.keep := by
  unfold respondCmd
  (repeat' split) <;> simp

@[simp] theorem finishFails_keep (p : Packet) (i : Nat) (r : Res) (s : State) : (finishFails p i r s).keep = s.keep := by
  unfold finishFails
  simp

@[simp] theorem finishKeys_keep (p : Packet) (i : Nat) (rb : List Byte) (s : State) :
    (finishKeys p i rb s).keep = s.keep := by
  unfold finishKeys
  simp

@[simp] theorem finishCmd_keep (p : Packet) (s : State) : (finishCmd p s).keep = s.keep := by
  unfold finishCmd
  (repeat' (first | split | dsimp only)) <;> simp

@[simp] theorem attestGo_keep (s : State) : (attestGo s).keep = s.keep := by
  unfold attestGo
  simp

@[simp] theorem attestCtl_keep (v : Nat) (s : State) : (attestCtl v s).keep = s.keep := by
  unfold attestCtl
  simp

@[simp] theorem i3cTake_keep (f : State → State) (s : State) (hf : ∀ x0, (f x0).keep = x0.keep) :
    (i3cTake f s).keep = s.keep := by
  unfold i3cTake
  simp [hf]

@[simp] theorem pathDo_keep (path : Path) (addr : Nat) (v : RapWord) (f : State → State) (s : State) (hf : ∀ x0,
    (f x0).keep = x0.keep) : (pathDo path addr v f s).keep = s.keep := by
  unfold pathDo
  split <;> simp [hf]

@[simp] theorem invalidate_keep (n : Nat) (gone : TlbEnt → Bool) (s : State) : (invalidate n gone s).keep = s.keep := by
  unfold invalidate
  simp

@[simp] theorem xlInvCtl_keep (v : Nat) (s : State) : (xlInvCtl v s).keep = s.keep := by
  unfold xlInvCtl
  split <;> simp

@[simp] theorem modeErr_keep (s : State) : (modeErr s).keep = s.keep := by
  unfold modeErr
  simp

@[simp] theorem eclipseBit_keep (b : Bool) (s : State) : (eclipseBit b s).keep = s.keep := by
  unfold eclipseBit
  simp

@[simp] theorem resume_keep (s : State) : (resume s).keep = s.keep := by
  unfold resume
  simp

@[simp] theorem modeCtl_keep (v : Nat) (s : State) : (modeCtl v s).keep = s.keep := by
  unfold modeCtl
  simp

@[simp] theorem lcCtl_keep (v : Nat) (s : State) : (lcCtl v s).keep = s.keep := by
  unfold lcCtl
  simp

@[simp] theorem attachMaybe_keep (s : State) : (attachMaybe s).keep = s.keep := by
  unfold attachMaybe
  simp

@[simp] theorem mboxOver_keep (s : State) : (mboxOver s).keep = s.keep := by
  unfold mboxOver
  simp

@[simp] theorem postH2b_keep (s : State) : (postH2b s).keep = s.keep := by
  unfold postH2b
  simp

@[simp] theorem postB2h_keep (s : State) : (postB2h s).keep = s.keep := by
  unfold postB2h
  simp

@[simp] theorem mboxCtl_keep (path : Path) (v : Nat) (s : State) : (mboxCtl path v s).keep = s.keep := by
  unfold mboxCtl
  split <;> simp

@[simp] theorem mboxCommand_keep (path : Path) (v : Nat) (ic : BitVec 16) (s : State) :
    (mboxCommand path v ic s).keep = s.keep := by
  unfold mboxCommand
  simp

@[simp] theorem mboxWord_keep (path : Path) (dir : MboxDir) (i : Nat) (v : Word) (s : State) :
    (mboxWord path dir i v s).keep = s.keep := by
  unfold mboxWord
  split <;> simp

@[simp] theorem portCfg_keep (v : Nat) (s : State) : (portCfg v s).keep = s.keep := by
  unfold portCfg
  simp

@[simp] theorem glbWrite_keep (a v : Nat) (s : State) : (glbWrite a v s).keep = s.keep := by
  unfold glbWrite
  simp

@[simp] theorem tmpWrite_keep (a v : Nat) (s : State) : (tmpWrite a v s).keep = s.keep := by
  unfold tmpWrite
  simp

@[simp] theorem oryWrite_keep (a v : Nat) (s : State) : (oryWrite a v s).keep = s.keep := by
  unfold oryWrite
  simp

@[simp] theorem limitFollow_keep (s : State) : (limitFollow s).keep = s.keep := by
  unfold limitFollow
  simp

@[simp] theorem blwCfg_keep (v : Nat) (s : State) : (blwCfg v s).keep = s.keep := by
  unfold blwCfg
  simp

@[simp] theorem laneWrite_keep (a v : Nat) (s : State) : (laneWrite a v s).keep = s.keep := by
  unfold laneWrite
  simp

@[simp] theorem vltWrite_keep (a v : Nat) (s : State) : (vltWrite a v s).keep = s.keep := by
  unfold vltWrite
  simp

@[simp] theorem keyWrite_keep (a v : Nat) (s : State) : (keyWrite a v s).keep = s.keep := by
  unfold keyWrite
  simp

@[simp] theorem spWrite_keep (p o v : Nat) (s : State) : (spWrite p o v s).keep = s.keep := by
  unfold spWrite
  simp

@[simp] theorem polWrite_keep (a v : Nat) (s : State) : (polWrite a v s).keep = s.keep := by
  unfold polWrite
  simp

@[simp] theorem adminWrite_keep (p : Nat) (f : Gate → Gate) (s : State) : (adminWrite p f s).keep = s.keep := by
  unfold adminWrite
  simp

@[simp] theorem gateEntry_keep (p : Nat) (f : GateEnt → GateEnt) (s : State) : (gateEntry p f s).keep = s.keep := by
  unfold gateEntry
  simp

@[simp] theorem gateWrite_keep (p o v : Nat) (s : State) : (gateWrite p o v s).keep = s.keep := by
  unfold gateWrite
  simp

@[simp] theorem windowWrite_keep (a v : Nat) (s : State) : (windowWrite a v s).keep = s.keep := by
  unfold windowWrite
  (repeat' split) <;> simp

@[simp] theorem globalWrite_keep (a v : Nat) (s : State) : (globalWrite a v s).keep = s.keep := by
  unfold globalWrite
  simp

@[simp] theorem ringBase_keep (n : Nat) (f : Ring → Ring) (s : State) : (ringBase n f s).keep = s.keep := by
  unfold ringBase
  simp

@[simp] theorem nrBase_keep (k : Nat) (f : Notif → Notif) (s : State) : (nrBase k f s).keep = s.keep := by
  unfold nrBase
  simp

@[simp] theorem ringBaseLo_keep (i v : Nat) (s : State) : (ringBaseLo i v s).keep = s.keep := by
  unfold ringBaseLo
  split <;> simp

@[simp] theorem ringBaseHi_keep (i v : Nat) (s : State) : (ringBaseHi i v s).keep = s.keep := by
  unfold ringBaseHi
  split <;> simp

@[simp] theorem ringCtlWrite_keep (i v : Nat) (s : State) : (ringCtlWrite i v s).keep = s.keep := by
  unfold ringCtlWrite
  split <;> simp

@[simp] theorem dhBaseWrite_keep (i v : Nat) (s : State) : (dhBaseWrite i v s).keep = s.keep := by
  unfold dhBaseWrite
  (repeat' split) <;> simp

@[simp] theorem fltCtl_keep (i v : Nat) (s : State) : (fltCtl i v s).keep = s.keep := by
  unfold fltCtl
  simp

@[simp] theorem sitBase_keep (i : Nat) (f : Sit → Sit) (s : State) : (sitBase i f s).keep = s.keep := by
  unfold sitBase
  simp

@[simp] theorem pageWrite_keep (i o v : Nat) (s : State) : (pageWrite i o v s).keep = s.keep := by
  unfold pageWrite
  simp
  split <;> simp

@[simp] theorem unmappedAccess_keep (s : State) : (unmappedAccess s).keep = s.keep := by
  unfold unmappedAccess
  simp

@[simp] theorem bellWrite_keep (o : Nat) (s : State) : (bellWrite o s).keep = s.keep := by
  unfold bellWrite
  split <;> simp

@[simp] theorem regWrite_keep (addr v : Nat) (s : State) : (regWrite addr v s).keep = s.keep := by
  unfold regWrite
  simp

@[simp] theorem regRead_keep (path : Path) (addr : Nat) (s : State) : (regRead path addr s).1.keep = s.keep := by
  unfold regRead
  dsimp only
  repeat (split; · simp)
  rfl

@[simp] theorem putPair_keep (a v : Nat) (s : State) : (putPair a v s).keep = s.keep := by
  unfold putPair
  simp

@[simp] theorem regPair_keep (n : Nat) (s : State) : (regPair n s).keep = s.keep := by
  unfold regPair
  simp

@[simp] theorem applyRecord_keep (r : Nat × List Byte) (s : State) : (applyRecord r s).keep = s.keep := by
  unfold applyRecord
  split <;> simp

@[simp] theorem factoryConfig_keep (s : State) : (factoryConfig s).keep = s.keep := by
  unfold factoryConfig
  simp

@[simp] theorem applyCopy_keep (s : State) : (applyCopy s).keep = s.keep := by
  unfold applyCopy
  simp

@[simp] theorem testLog_keep (code reg unit : Nat) (s : State) : (testLog code reg unit s).keep = s.keep := by
  unfold testLog
  simp

@[simp] theorem bootForge_keep (bad : Nat → Bool) (m : Nat) (s : State) : (bootForge bad m s).keep = s.keep := by
  unfold bootForge
  simp

@[simp] theorem bootForges_keep (failed : List ForgeId) (s : State) : (bootForges failed s).keep = s.keep := by
  unfold bootForges
  simp

@[simp] theorem bootPipes_keep (failed : List PipeId) (s : State) : (bootPipes failed s).keep = s.keep := by
  unfold bootPipes
  simp

@[simp] theorem bootUnits_keep (failed : List UnitId) (s : State) : (bootUnits failed s).keep = s.keep := by
  unfold bootUnits
  simp

@[simp] theorem bootBanks_keep (failed : List BankId) (s : State) : (bootBanks failed s).keep = s.keep := by
  unfold bootBanks
  simp

@[simp] theorem bootDrbg_keep (s : State) : (bootDrbg s).keep = s.keep := by
  unfold bootDrbg
  simp

@[simp] theorem forgetKeys_keep (s : State) : (forgetKeys s).keep = s.keep := by
  unfold forgetKeys
  simp

@[simp] theorem loadSlots_keep (s : State) : (loadSlots s).keep = s.keep := by
  unfold loadSlots
  simp

@[simp] theorem makeVaultRoot_keep (s : State) : (makeVaultRoot s).keep = s.keep := by
  unfold makeVaultRoot
  simp

@[simp] theorem bootRoot_keep (s : State) : (bootRoot s).keep = s.keep := by
  unfold bootRoot
  (repeat' split) <;> simp

@[simp] theorem logFallback_keep (s : State) : (logFallback s).keep = s.keep := by
  unfold logFallback
  simp

@[simp] theorem bootImage_keep (kind : Nat) (s : State) : (bootImage kind s).1.keep = s.keep := by
  unfold bootImage
  (repeat' (first | split | dsimp only)) <;> simp

@[simp] theorem bootYuham_keep (s : State) : (bootYuham s).keep = s.keep := by
  unfold bootYuham
  dsimp only
  split <;> simp

@[simp] theorem bootMicrocode_keep (s : State) : (bootMicrocode s).keep = s.keep := by
  unfold bootMicrocode
  dsimp only
  split <;> simp

@[simp] theorem takeChain_keep (s : State) : (takeChain s).keep = s.keep := by
  unfold takeChain
  simp

@[simp] theorem bootConfig_keep (s : State) : (bootConfig s).keep = s.keep := by
  unfold bootConfig
  simp

@[simp] theorem bootLog_keep (s : State) : (bootLog s).keep = s.keep := by
  unfold bootLog
  simp

@[simp] theorem bootCalendar_keep (s : State) : (bootCalendar s).keep = s.keep := by
  unfold bootCalendar
  split <;> simp

@[simp] theorem bootOrrery_keep (s : State) : (bootOrrery s).keep = s.keep := by
  unfold bootOrrery
  simp

@[simp] theorem countBoot_keep (s : State) : (countBoot s).keep = s.keep := by
  unfold countBoot
  simp

@[simp] theorem attachCheck_keep (r : AttachReport) (s : State) : (attachCheck r s).keep = s.keep := by
  unfold attachCheck
  simp

@[simp] theorem attachFail_keep (s : State) : (attachFail s).keep = s.keep := by
  unfold attachFail
  simp

@[simp] theorem attachUp_keep (s : State) : (attachUp s).keep = s.keep := by
  unfold attachUp
  simp

@[simp] theorem reread_keep (s : State) : (reread s).keep = s.keep := by
  unfold reread
  simp

@[simp] theorem attachGood_keep (s : State) : (attachGood s).keep = s.keep := by
  unfold attachGood
  simp

@[simp] theorem bootAttach_keep (r : AttachReport) (s : State) : (bootAttach r s).keep = s.keep := by
  unfold bootAttach
  simp

@[simp] theorem selectMode_keep (s : State) : (selectMode s).keep = s.keep := by
  unfold selectMode
  simp

@[simp] theorem bootPins_keep (rep : BootReport) (s : State) : (bootPins rep s).keep = s.keep := by
  unfold bootPins
  simp

@[simp] theorem blockReset_keep (s : State) : (blockReset s).keep = s.keep := by
  unfold blockReset
  simp

@[simp] theorem glbReset_keep (v : Nat) (s : State) : (glbReset v s).keep = s.keep := by
  unfold glbReset
  simp

@[simp] theorem i3cRefuse_keep (s : State) : (i3cRefuse s).keep = s.keep := by
  unfold i3cRefuse
  simp

@[simp] theorem i3cDo_keep (f : PortSt → PortSt) (s : State) : (i3cDo f s).keep = s.keep := by
  unfold i3cDo
  simp

@[simp] theorem i3cWrite_keep (a : Nat) (v : Word) (s : State) : (i3cWrite a v s).keep = s.keep := by
  unfold i3cWrite
  simp

@[simp] theorem i3cWordRead_keep (s : State) : (i3cWordRead s).1.keep = s.keep := by
  unfold i3cWordRead
  dsimp only
  split <;> simp

@[simp] theorem i3cWords_keep (n : Nat) (out : List Word) (s : State) : (i3cWords n out s).keep = s.keep := by
  induction n generalizing out s with
  | zero => simp [i3cWords]
  | succ n ih => simp [i3cWords, ih]

end Sys2Proof.Machine
end

