-- ==== Sys2Proof/Laws/KeepExec.lean ====
section
/-! SUPPORT. Every command but MAIN_PG_RISE, START_UP_COMPLETE and LC_COMMIT leaves the queue of commands and the fuses as
they are. -/

namespace Sys2Proof.Machine
open Sys2Proof.Laws

theorem execHmpResponse_keep (hmp : PortId) (tag : Fin 2048) (status : Fin 4) (data : List Byte) (ics : List (BitVec 16))
    (s : State) {t : State} (h : execHmpResponse hmp tag status data ics s = .next t) : t.keep = s.keep := by
  unfold execHmpResponse at h
  injection h with h
  subst h
  split <;> simp

theorem execHmpTimeout_keep (hmp : PortId) (s : State) {t : State}
    (h : execHmpTimeout hmp s = .next t) : t.keep = s.keep := by
  unfold execHmpTimeout at h
  injection h with h
  subst h
  simp

theorem execHmpMapWrite_keep (reg : Fin 5) (v : RapWord) (s : State) {t : State}
    (h : execHmpMapWrite reg v s = .next t) : t.keep = s.keep := by
  unfold execHmpMapWrite at h
  injection h with h
  subst h
  simp

theorem execHmpMoveComplete_keep (inst : InstId) (s : State) {t : State}
    (h : execHmpMoveComplete inst s = .next t) : t.keep = s.keep := by
  unfold execHmpMoveComplete at h
  injection h with h
  subst h
  simp

theorem execHmpReturn_keep (hmp : PortId) (r : ReturnWrite) (s : State) {t : State}
    (h : execHmpReturn hmp r s = .next t) : t.keep = s.keep := by
  unfold execHmpReturn at h
  injection h with h
  subst h
  simp

theorem execDoorbell_keep (page : InstId) (bell : BellWrite) (s : State) {t : State}
    (h : execDoorbell page bell s = .next t) : t.keep = s.keep := by
  unfold execDoorbell at h
  injection h with h
  subst h
  simp (disch := (intros; split <;> simp))

theorem execAutoSweep_keep (ring : RingId) (s : State) {t : State}
    (h : execAutoSweep ring s = .next t) : t.keep = s.keep := by
  unfold execAutoSweep at h
  injection h with h
  subst h
  simp

theorem execScanContinue_keep (ring : RingId) (s : State) {t : State}
    (h : execScanContinue ring s = .next t) : t.keep = s.keep := by
  unfold execScanContinue at h
  injection h with h
  subst h
  simp

theorem execRingSelWrite_keep (page : InstId) (v : RapWord) (s : State) {t : State}
    (h : execRingSelWrite page v s = .next t) : t.keep = s.keep := by
  unfold execRingSelWrite at h
  injection h with h
  subst h
  simp

theorem execRingEnable_keep (page : InstId) (v : RapWord) (s : State) {t : State}
    (h : execRingEnable page v s = .next t) : t.keep = s.keep := by
  unfold execRingEnable at h
  injection h with h
  subst h
  simp (disch := (intros; split <;> simp))

theorem execRingStop_keep (page : InstId) (v : RapWord) (s : State) {t : State}
    (h : execRingStop page v s = .next t) : t.keep = s.keep := by
  unfold execRingStop at h
  injection h with h
  subst h
  simp (disch := (intros; split <;> simp))

theorem execRingStopComplete_keep (ring : RingId) (s : State) {t : State}
    (h : execRingStopComplete ring s = .next t) : t.keep = s.keep := by
  unfold execRingStopComplete at h
  injection h with h
  subst h
  simp

theorem execNrEnable_keep (page : InstId) (v : RapWord) (s : State) {t : State}
    (h : execNrEnable page v s = .next t) : t.keep = s.keep := by
  unfold execNrEnable at h
  injection h with h
  subst h
  simp (disch := (intros; split <;> simp))

theorem execNrDisable_keep (page : InstId) (v : RapWord) (s : State) {t : State}
    (h : execNrDisable page v s = .next t) : t.keep = s.keep := by
  unfold execNrDisable at h
  injection h with h
  subst h
  simp (disch := (intros; split <;> simp))

theorem execNrOvfClear_keep (page : InstId) (v : RapWord) (s : State) {t : State}
    (h : execNrOvfClear page v s = .next t) : t.keep = s.keep := by
  unfold execNrOvfClear at h
  injection h with h
  subst h
  simp (disch := (intros; split <;> simp))

theorem execNotificationRecord_keep (nr : NrId) (s : State) {t : State}
    (h : execNotificationRecord nr s = .next t) : t.keep = s.keep := by
  unfold execNotificationRecord at h
  injection h with h
  subst h
  (repeat' split) <;> simp

theorem execInterruptHoldoffExpiry_keep (nr : NrId) (s : State) {t : State}
    (h : execInterruptHoldoffExpiry nr s = .next t) : t.keep = s.keep := by
  unfold execInterruptHoldoffExpiry at h
  injection h with h
  subst h
  split <;> simp

theorem execVectorUnmask_keep (page : InstId) (v : RapWord) (s : State) {t : State}
    (h : execVectorUnmask page v s = .next t) : t.keep = s.keep := by
  unfold execVectorUnmask at h
  injection h with h
  subst h
  simp

theorem execRingInv_keep (page : InstId) (v : RapWord) (s : State) {t : State}
    (h : execRingInv page v s = .next t) : t.keep = s.keep := by
  unfold execRingInv at h
  injection h with h
  subst h
  simp (disch := (intros; split <;> simp))

theorem execRingInvComplete_keep (ring : RingId) (s : State) {t : State}
    (h : execRingInvComplete ring s = .next t) : t.keep = s.keep := by
  unfold execRingInvComplete at h
  injection h with h
  subst h
  simp

theorem execEntryRetire_keep (ring : RingId) (s : State) {t : State}
    (h : execEntryRetire ring s = .next t) : t.keep = s.keep := by
  unfold execEntryRetire at h
  injection h with h
  subst h
  simp

theorem execFaultRecordWrite_keep (inst : InstId) (s : State) {t : State}
    (h : execFaultRecordWrite inst s = .next t) : t.keep = s.keep := by
  unfold execFaultRecordWrite at h
  injection h with h
  subst h
  dsimp only
  split
  · simp
  · split
    · split
      · rfl
      · split <;> simp
    · rfl

theorem execSitEventWrite_keep (vi : ViId) (s : State) {t : State}
    (h : execSitEventWrite vi s = .next t) : t.keep = s.keep := by
  unfold execSitEventWrite at h
  injection h with h
  subst h
  dsimp only
  split
  · simp
  · split
    · split
      · rfl
      · split <;> simp
    · rfl

theorem execSitEventMemoryExpiry_keep (s : State) {t : State}
    (h : execSitEventMemoryExpiry s = .next t) : t.keep = s.keep := by
  unfold execSitEventMemoryExpiry at h
  injection h with h
  subst h
  simp

theorem execSitInterruptHoldoff_keep (vi : ViId) (s : State) {t : State}
    (h : execSitInterruptHoldoff vi s = .next t) : t.keep = s.keep := by
  unfold execSitInterruptHoldoff at h
  injection h with h
  subst h
  simp

theorem execSitLookup_keep (id : Nat) (s : State) {t : State} (h : execSitLookup id s = .next t) : t.keep = s.keep := by
  unfold execSitLookup at h
  injection h with h
  subst h
  (repeat' split) <;> simp

theorem execSitLockRetry_keep (id : Nat) (s : State) {t : State}
    (h : execSitLockRetry id s = .next t) : t.keep = s.keep := by
  unfold execSitLockRetry at h
  injection h with h
  subst h
  (repeat' split) <;> simp

theorem execSitEnable_keep (vi : ViId) (v : RapWord) (s : State) {t : State}
    (h : execSitEnable vi v s = .next t) : t.keep = s.keep := by
  unfold execSitEnable at h
  injection h with h
  subst h
  simp

theorem execSitStop_keep (vi : ViId) (v : RapWord) (s : State) {t : State}
    (h : execSitStop vi v s = .next t) : t.keep = s.keep := by
  unfold execSitStop at h
  injection h with h
  subst h
  simp

theorem execSitStopComplete_keep (vi : ViId) (s : State) {t : State}
    (h : execSitStopComplete vi s = .next t) : t.keep = s.keep := by
  unfold execSitStopComplete at h
  injection h with h
  subst h
  simp

theorem execStreamFrameEof_keep (port : PortId) (f : FrameIn) (s : State) {t : State}
    (h : execStreamFrameEof port f s = .next t) : t.keep = s.keep := by
  unfold execStreamFrameEof at h
  injection h with h
  subst h
  simp

theorem execEgressFrameStart_keep (port : PortId) (flip : Option Nat) (s : State) {t : State}
    (h : execEgressFrameStart port flip s = .next t) : t.keep = s.keep := by
  unfold execEgressFrameStart at h
  injection h with h
  subst h
  (repeat' (first | split | dsimp only)) <;> simp

theorem execEgressFrameDone_keep (port : PortId) (s : State) {t : State}
    (h : execEgressFrameDone port s = .next t) : t.keep = s.keep := by
  unfold execEgressFrameDone at h
  injection h with h
  subst h
  split <;> simp

theorem execWatermarkWrite_keep (port : PortId) (cls : ClassId) (v : RapWord) (s : State) {t : State}
    (h : execWatermarkWrite port cls v s = .next t) : t.keep = s.keep := by
  unfold execWatermarkWrite at h
  injection h with h
  subst h
  simp

theorem execGateChange_keep (port : PortId) (v : RapWord) (s : State) {t : State}
    (h : execGateChange port v s = .next t) : t.keep = s.keep := by
  unfold execGateChange at h
  injection h with h
  subst h
  simp

theorem execGateEnable_keep (port : PortId) (v : RapWord) (s : State) {t : State}
    (h : execGateEnable port v s = .next t) : t.keep = s.keep := by
  unfold execGateEnable at h
  injection h with h
  subst h
  simp

theorem execGateDisable_keep (port : PortId) (v : RapWord) (s : State) {t : State}
    (h : execGateDisable port v s = .next t) : t.keep = s.keep := by
  unfold execGateDisable at h
  injection h with h
  subst h
  simp

theorem execGateEdge_keep (port : PortId) (s : State) {t : State} (h : execGateEdge port s = .next t) : t.keep = s.keep := by
  unfold execGateEdge at h
  injection h with h
  subst h
  simp

theorem execGateTakeover_keep (port : PortId) (s : State) {t : State}
    (h : execGateTakeover port s = .next t) : t.keep = s.keep := by
  unfold execGateTakeover at h
  injection h with h
  subst h
  split <;> simp

theorem execPolicerEnable_keep (v : RapWord) (s : State) {t : State}
    (h : execPolicerEnable v s = .next t) : t.keep = s.keep := by
  unfold execPolicerEnable at h
  injection h with h
  subst h
  simp

theorem execPolicerStop_keep (v : RapWord) (s : State) {t : State}
    (h : execPolicerStop v s = .next t) : t.keep = s.keep := by
  unfold execPolicerStop at h
  injection h with h
  subst h
  simp

theorem execPolicerStopComplete_keep (vi : ViId) (port : PortId) (s : State) {t : State}
    (h : execPolicerStopComplete vi port s = .next t) : t.keep = s.keep := by
  unfold execPolicerStopComplete at h
  injection h with h
  subst h
  simp

theorem execPolicerApply_keep (v : RapWord) (s : State) {t : State}
    (h : execPolicerApply v s = .next t) : t.keep = s.keep := by
  unfold execPolicerApply at h
  injection h with h
  subst h
  simp

theorem execShaperConfig_keep (v : RapWord) (s : State) {t : State}
    (h : execShaperConfig v s = .next t) : t.keep = s.keep := by
  unfold execShaperConfig at h
  injection h with h
  subst h
  simp

theorem execShaperRefill_keep (inst : InstId) (s : State) {t : State}
    (h : execShaperRefill inst s = .next t) : t.keep = s.keep := by
  unfold execShaperRefill at h
  injection h with h
  subst h
  simp

theorem execTenantEventWindow_keep (vi : ViId) (s : State) {t : State}
    (h : execTenantEventWindow vi s = .next t) : t.keep = s.keep := by
  unfold execTenantEventWindow at h
  injection h with h
  subst h
  simp

theorem execPrivilegedFifoRead_keep (path : ReadPath) (which : PrivFifo) (s : State) {t : State}
    (h : execPrivilegedFifoRead path which s = .next t) : t.keep = s.keep := by
  unfold execPrivilegedFifoRead at h
  injection h with h
  subst h
  simp

theorem execOrdinaryFifoRead_keep (r : OrdRead) (s : State) {t : State}
    (h : execOrdinaryFifoRead r s = .next t) : t.keep = s.keep := by
  unfold execOrdinaryFifoRead at h
  injection h with h
  subst h
  split <;> simp

theorem execCounterRead_keep (path : ReadPath) (port : PortId) (s : State) {t : State}
    (h : execCounterRead path port s = .next t) : t.keep = s.keep := by
  unfold execCounterRead at h
  injection h with h
  subst h
  simp

theorem execTimeRead_keep (path : ReadPath) (s : State) {t : State}
    (h : execTimeRead path s = .next t) : t.keep = s.keep := by
  unfold execTimeRead at h
  injection h with h
  subst h
  simp

theorem execMeasRead_keep (path : ReadPath) (m : Fin 4) (w : Fin 12) (s : State) {t : State}
    (h : execMeasRead path m w s = .next t) : t.keep = s.keep := by
  unfold execMeasRead at h
  injection h with h
  subst h
  simp

theorem execTamperSourceChange_keep (src : SrcId) (det : Detector) (level : Bool) (meas : Option PinReading) (s : State) {t : State}
    (h : execTamperSourceChange src det level meas s = .next t) : t.keep = s.keep := by
  unfold execTamperSourceChange at h
  injection h with h
  subst h
  simp

theorem execTamperDebounceExpiry_keep (src : SrcId) (s : State) {t : State}
    (h : execTamperDebounceExpiry src s = .next t) : t.keep = s.keep := by
  unfold execTamperDebounceExpiry at h
  injection h with h
  subst h
  simp

theorem execTamperRearmExpiry_keep (src : SrcId) (s : State) {t : State}
    (h : execTamperRearmExpiry src s = .next t) : t.keep = s.keep := by
  unfold execTamperRearmExpiry at h
  injection h with h
  subst h
  simp

theorem execDetectorDisagree_keep (src : SrcId) (s : State) {t : State}
    (h : execDetectorDisagree src s = .next t) : t.keep = s.keep := by
  unfold execDetectorDisagree at h
  injection h with h
  subst h
  simp

theorem execDetectorSelfTest_keep (src : SrcId) (det : Detector) (s : State) {t : State}
    (h : execDetectorSelfTest src det s = .next t) : t.keep = s.keep := by
  unfold execDetectorSelfTest at h
  injection h with h
  subst h
  simp

theorem execDetectorSelfTestTimeout_keep (src : SrcId) (det : Detector) (s : State) {t : State}
    (h : execDetectorSelfTestTimeout src det s = .next t) : t.keep = s.keep := by
  unfold execDetectorSelfTestTimeout at h
  injection h with h
  subst h
  simp

theorem execFuseReread_keep (ok : Bool) (s : State) {t : State} (h : execFuseReread ok s = .next t) : t.keep = s.keep := by
  unfold execFuseReread at h
  injection h with h
  subst h
  simp

theorem execZeroiseNLow_keep (s : State) {t : State} (h : execZeroiseNLow s = .next t) : t.keep = s.keep := by
  unfold execZeroiseNLow at h
  injection h with h
  subst h
  simp

theorem execZeroiseNHigh_keep (s : State) {t : State} (h : execZeroiseNHigh s = .next t) : t.keep = s.keep := by
  unfold execZeroiseNHigh at h
  injection h with h
  subst h
  simp

theorem execZeroiseVerifyComplete_keep (ok : Bool) (s : State) {t : State}
    (h : execZeroiseVerifyComplete ok s = .next t) : t.keep = s.keep := by
  unfold execZeroiseVerifyComplete at h
  injection h with h
  subst h
  split
  · split
    · simp
    · split <;> simp
  · rfl

theorem execZeroiseFillComplete_keep (s : State) {t : State}
    (h : execZeroiseFillComplete s = .next t) : t.keep = s.keep := by
  unfold execZeroiseFillComplete at h
  injection h with h
  subst h
  simp

theorem execFreezeThaw_keep (v : RapWord) (s : State) {t : State} (h : execFreezeThaw v s = .next t) : t.keep = s.keep := by
  unfold execFreezeThaw at h
  injection h with h
  subst h
  simp

theorem execVigilSample_keep (reading : List (SrcId × PinReading)) (checks : SampleChecks) (s : State) {t : State}
    (h : execVigilSample reading checks s = .next t) : t.keep = s.keep := by
  unfold execVigilSample at h
  injection h with h
  subst h
  simp

theorem execBothSuppliesLost_keep (s : State) {t : State} (h : execBothSuppliesLost s = .next t) : t.keep = s.keep := by
  unfold execBothSuppliesLost at h
  injection h with h
  subst h
  simp

theorem execXtalStop_keep (s : State) {t : State} (h : execXtalStop s = .next t) : t.keep = s.keep := by
  unfold execXtalStop at h
  injection h with h
  subst h
  simp

theorem execXtalReturn_keep (s : State) {t : State} (h : execXtalReturn s = .next t) : t.keep = s.keep := by
  unfold execXtalReturn at h
  injection h with h
  subst h
  simp

theorem execTpTodSample_keep (sec : BitVec 48) (ns : BitVec 32) (s : State) {t : State}
    (h : execTpTodSample sec ns s = .next t) : t.keep = s.keep := by
  unfold execTpTodSample at h
  injection h with h
  subst h
  simp

theorem execTpPpsEdge_keep (aligned : Bool) (s : State) {t : State}
    (h : execTpPpsEdge aligned s = .next t) : t.keep = s.keep := by
  unfold execTpPpsEdge at h
  injection h with h
  subst h
  simp

theorem execTpPpsMissing_keep (s : State) {t : State} (h : execTpPpsMissing s = .next t) : t.keep = s.keep := by
  unfold execTpPpsMissing at h
  injection h with h
  subst h
  simp

theorem execTpClockStopped_keep (s : State) {t : State} (h : execTpClockStopped s = .next t) : t.keep = s.keep := by
  unfold execTpClockStopped at h
  injection h with h
  subst h
  simp

theorem execPortClockStop_keep (clk : Fin 6) (s : State) {t : State}
    (h : execPortClockStop clk s = .next t) : t.keep = s.keep := by
  unfold execPortClockStop at h
  injection h with h
  subst h
  simp

theorem execPortClockReturn_keep (clk : Fin 6) (s : State) {t : State}
    (h : execPortClockReturn clk s = .next t) : t.keep = s.keep := by
  unfold execPortClockReturn at h
  injection h with h
  subst h
  simp

theorem execSrpAckRise_keep (s : State) {t : State} (h : execSrpAckRise s = .next t) : t.keep = s.keep := by
  unfold execSrpAckRise at h
  injection h with h
  subst h
  simp

theorem execSrpAckFall_keep (s : State) {t : State} (h : execSrpAckFall s = .next t) : t.keep = s.keep := by
  unfold execSrpAckFall at h
  injection h with h
  subst h
  simp

theorem execSrpTimeout_keep (s : State) {t : State} (h : execSrpTimeout s = .next t) : t.keep = s.keep := by
  unfold execSrpTimeout at h
  injection h with h
  subst h
  simp

theorem execSrpTimeoutClear_keep (v : RapWord) (s : State) {t : State}
    (h : execSrpTimeoutClear v s = .next t) : t.keep = s.keep := by
  unfold execSrpTimeoutClear at h
  injection h with h
  subst h
  simp

theorem execBypass_keep (s : State) {t : State} (h : execBypass s = .next t) : t.keep = s.keep := by
  unfold execBypass at h
  injection h with h
  subst h
  simp

theorem execIdcode_keep (s : State) {t : State} (h : execIdcode s = .next t) : t.keep = s.keep := by
  unfold execIdcode at h
  injection h with h
  subst h
  rw [tapLoad_keep]

theorem execSamplePreload_keep (s : State) {t : State} (h : execSamplePreload s = .next t) : t.keep = s.keep := by
  unfold execSamplePreload at h
  injection h with h
  subst h
  simp

theorem execExtest_keep (s : State) {t : State} (h : execExtest s = .next t) : t.keep = s.keep := by
  unfold execExtest at h
  injection h with h
  subst h
  simp

theorem execClamp_keep (s : State) {t : State} (h : execClamp s = .next t) : t.keep = s.keep := by
  unfold execClamp at h
  injection h with h
  subst h
  simp

theorem execHighz_keep (s : State) {t : State} (h : execHighz s = .next t) : t.keep = s.keep := by
  unfold execHighz at h
  injection h with h
  subst h
  simp

theorem execDbgChallenge_keep (s : State) {t : State} (h : execDbgChallenge s = .next t) : t.keep = s.keep := by
  unfold execDbgChallenge at h
  injection h with h
  subst h
  simp

theorem execDbgResponse_keep (resp : List Byte) (s : State) {t : State}
    (h : execDbgResponse resp s = .next t) : t.keep = s.keep := by
  unfold execDbgResponse at h
  injection h with h
  subst h
  simp

theorem execFaultMsgHoldoff_keep (s : State) {t : State} (h : execFaultMsgHoldoff s = .next t) : t.keep = s.keep := by
  unfold execFaultMsgHoldoff at h
  injection h with h
  subst h
  simp

theorem execStageFault_keep (lane : LaneId) (s : State) {t : State}
    (h : execStageFault lane s = .next t) : t.keep = s.keep := by
  unfold execStageFault at h
  injection h with h
  subst h
  simp

theorem execLaneSelfTest_keep (lane : LaneId) (res : LaneTest) (s : State) {t : State}
    (h : execLaneSelfTest lane res s = .next t) : t.keep = s.keep := by
  unfold execLaneSelfTest at h
  injection h with h
  subst h
  (repeat' split) <;> simp

theorem execRateCheck_keep (forge : ForgeId) (ref : BitVec 16) (m : RateSample)
    (s : State) {t : State} (h : execRateCheck forge ref m s = .next t) : t.keep = s.keep := by
  unfold execRateCheck at h
  injection h with h
  subst h
  simp

theorem execForgeFailoverComplete_keep (forge : ForgeId) (ok : Bool) (s : State) {t : State}
    (h : execForgeFailoverComplete forge ok s = .next t) : t.keep = s.keep := by
  unfold execForgeFailoverComplete at h
  injection h with h
  subst h
  (repeat' split) <;> simp

theorem execForgeRetireComplete_keep (forge : ForgeId) (s : State) {t : State}
    (h : execForgeRetireComplete forge s = .next t) : t.keep = s.keep := by
  unfold execForgeRetireComplete at h
  injection h with h
  subst h
  (repeat' split) <;> simp

theorem execForgeRestoreTestDone_keep (forge : ForgeId) (ok : Bool) (s : State) {t : State}
    (h : execForgeRestoreTestDone forge ok s = .next t) : t.keep = s.keep := by
  unfold execForgeRestoreTestDone at h
  injection h with h
  subst h
  (repeat' split) <;> simp

theorem execBellowsStep_keep (s : State) {t : State} (h : execBellowsStep s = .next t) : t.keep = s.keep := by
  unfold execBellowsStep at h
  injection h with h
  subst h
  simp

theorem execForgeGate_keep (forge : ForgeId) (s : State) {t : State}
    (h : execForgeGate forge s = .next t) : t.keep = s.keep := by
  unfold execForgeGate at h
  injection h with h
  subst h
  simp

theorem execForgeWakeComplete_keep (forge : ForgeId) (s : State) {t : State}
    (h : execForgeWakeComplete forge s = .next t) : t.keep = s.keep := by
  unfold execForgeWakeComplete at h
  injection h with h
  subst h
  simp

theorem execBellowsFault_keep (s : State) {t : State} (h : execBellowsFault s = .next t) : t.keep = s.keep := by
  unfold execBellowsFault at h
  injection h with h
  subst h
  simp

theorem execLaneRateWindow_keep (rates : List LaneRate) (s : State) {t : State}
    (h : execLaneRateWindow rates s = .next t) : t.keep = s.keep := by
  unfold execLaneRateWindow at h
  injection h with h
  subst h
  simp

theorem execMicrocodeRotationStep_keep (result : RotResult) (s : State) {t : State}
    (h : execMicrocodeRotationStep result s = .next t) : t.keep = s.keep := by
  unfold execMicrocodeRotationStep at h
  injection h with h
  subst h
  dsimp only
  split
  · split
    · simp
    · split
      · split <;> simp
      · split <;> simp
  · rfl

theorem execBurnishSlot_keep (bad : Option BankId) (s : State) {t : State}
    (h : execBurnishSlot bad s = .next t) : t.keep = s.keep := by
  unfold execBurnishSlot at h
  injection h with h
  subst h
  (repeat' split) <;> simp

theorem execBurnishPeriodEnd_keep (s : State) {t : State} (h : execBurnishPeriodEnd s = .next t) : t.keep = s.keep := by
  unfold execBurnishPeriodEnd at h
  injection h with h
  subst h
  simp

theorem execBankWatchdog_keep (bank : BankId) (s : State) {t : State}
    (h : execBankWatchdog bank s = .next t) : t.keep = s.keep := by
  unfold execBankWatchdog at h
  injection h with h
  subst h
  simp

theorem execPipeSelfTest_keep (pipe : PipeId) (ok : Bool) (s : State) {t : State}
    (h : execPipeSelfTest pipe ok s = .next t) : t.keep = s.keep := by
  unfold execPipeSelfTest at h
  injection h with h
  subst h
  simp

theorem execPipeFault_keep (pipe : PipeId) (cause : PipeCause) (s : State) {t : State}
    (h : execPipeFault pipe cause s = .next t) : t.keep = s.keep := by
  unfold execPipeFault at h
  injection h with h
  subst h
  split <;> simp

theorem execAnvilSelfTest_keep (unit : UnitId) (ok : Bool) (s : State) {t : State}
    (h : execAnvilSelfTest unit ok s = .next t) : t.keep = s.keep := by
  unfold execAnvilSelfTest at h
  injection h with h
  subst h
  simp

theorem execAnvilUnitFault_keep (unit : UnitId) (cause : UnitCause) (s : State) {t : State}
    (h : execAnvilUnitFault unit cause s = .next t) : t.keep = s.keep := by
  unfold execAnvilUnitFault at h
  injection h with h
  subst h
  split <;> simp

theorem execEntropyBlockReady_keep (src : EntSrc) (s : State) {t : State}
    (h : execEntropyBlockReady src s = .next t) : t.keep = s.keep := by
  unfold execEntropyBlockReady at h
  injection h with h
  subst h
  simp

theorem execEntropyHealthFail_keep (src : EntSrc) (kind : EntFail) (s : State) {t : State}
    (h : execEntropyHealthFail src kind s = .next t) : t.keep = s.keep := by
  unfold execEntropyHealthFail at h
  injection h with h
  subst h
  simp

theorem execDrbgReseed_keep (s : State) {t : State} (h : execDrbgReseed s = .next t) : t.keep = s.keep := by
  unfold execDrbgReseed at h
  injection h with h
  subst h
  simp

theorem execDrbgKat_keep (ok : Bool) (s : State) {t : State} (h : execDrbgKat ok s = .next t) : t.keep = s.keep := by
  unfold execDrbgKat at h
  injection h with h
  subst h
  simp

theorem execDispatcherMismatch_keep (half : Option Half) (s : State) {t : State}
    (h : execDispatcherMismatch half s = .next t) : t.keep = s.keep := by
  unfold execDispatcherMismatch at h
  injection h with h
  subst h
  (repeat' split) <;> simp

theorem execOrreryFault_keep (half : Option Half) (s : State) {t : State}
    (h : execOrreryFault half s = .next t) : t.keep = s.keep := by
  unfold execOrreryFault at h
  injection h with h
  subst h
  (repeat' split) <;> simp

theorem execYuhamRestartComplete_keep (s : State) {t : State}
    (h : execYuhamRestartComplete s = .next t) : t.keep = s.keep := by
  unfold execYuhamRestartComplete at h
  injection h with h
  subst h
  simp

theorem execUncontainedFault_keep (s : State) {t : State} (h : execUncontainedFault s = .next t) : t.keep = s.keep := by
  unfold execUncontainedFault at h
  injection h with h
  subst h
  simp

theorem execOfferTimeout_keep (slot : ParentId) (s : State) {t : State}
    (h : execOfferTimeout slot s = .next t) : t.keep = s.keep := by
  unfold execOfferTimeout at h
  injection h with h
  subst h
  simp

theorem execCounterCheckpoint_keep (s : State) {t : State} (h : execCounterCheckpoint s = .next t) : t.keep = s.keep := by
  unfold execCounterCheckpoint at h
  injection h with h
  subst h
  simp

theorem execCalendarCheckpoint_keep (s : State) {t : State} (h : execCalendarCheckpoint s = .next t) : t.keep = s.keep := by
  unfold execCalendarCheckpoint at h
  injection h with h
  subst h
  simp

theorem execSchedulerRound_keep (sch : Sched) (s : State) {t : State}
    (h : execSchedulerRound sch s = .next t) : t.keep = s.keep := by
  unfold execSchedulerRound at h
  injection h with h
  subst h
  simp

theorem execAdmission_keep (slot : AdmSlot) (s : State) {t : State}
    (h : execAdmission slot s = .next t) : t.keep = s.keep := by
  unfold execAdmission at h
  injection h with h
  subst h
  split
  · rfl
  · dsimp only
    split <;> split <;> simp

theorem runOp_keep (tag o : Nat) (f : Job → State → State) (hf : ∀ j u, (f j u).keep = u.keep) (s : State) {t : State}
    (h : runOp tag o f s = .next t) : t.keep = s.keep := by
  unfold runOp at h
  injection h with h
  subst h
  split <;> simp [hf]

theorem execPad_keep (tag : Tag) (s : State) {t : State} (h : execPad tag s = .next t) : t.keep = s.keep := by
  unfold execPad at h
  injection h with h
  subst h
  split <;> simp

theorem execSymEnc_keep (tag : Tag) (s : State) {t : State} (h : execSymEnc tag s = .next t) : t.keep = s.keep := by
  unfold execSymEnc at h
  injection h with h
  subst h
  split <;> simp

theorem execSymDec_keep (tag : Tag) (s : State) {t : State} (h : execSymDec tag s = .next t) : t.keep = s.keep := by
  unfold execSymDec at h
  injection h with h
  subst h
  split <;> simp

theorem execMacsecTx_keep (tag : Tag) (s : State) {t : State} (h : execMacsecTx tag s = .next t) : t.keep = s.keep := by
  unfold execMacsecTx at h
  injection h with h
  subst h
  split <;> simp

theorem execMacsecRx_keep (tag : Tag) (s : State) {t : State} (h : execMacsecRx tag s = .next t) : t.keep = s.keep := by
  unfold execMacsecRx at h
  injection h with h
  subst h
  split <;> simp

theorem execEspOut_keep (tag : Tag) (s : State) {t : State} (h : execEspOut tag s = .next t) : t.keep = s.keep := by
  unfold execEspOut at h
  injection h with h
  subst h
  split <;> simp

theorem execEspIn_keep (tag : Tag) (s : State) {t : State} (h : execEspIn tag s = .next t) : t.keep = s.keep := by
  unfold execEspIn at h
  injection h with h
  subst h
  split <;> simp

theorem execDigest_keep (tag : Tag) (s : State) {t : State} (h : execDigest tag s = .next t) : t.keep = s.keep := by
  unfold execDigest at h
  injection h with h
  subst h
  split <;> simp

theorem execMac_keep (tag : Tag) (s : State) {t : State} (h : execMac tag s = .next t) : t.keep = s.keep := by
  unfold execMac at h
  injection h with h
  subst h
  split <;> simp

theorem execMacVerify_keep (tag : Tag) (s : State) {t : State} (h : execMacVerify tag s = .next t) : t.keep = s.keep := by
  unfold execMacVerify at h
  injection h with h
  subst h
  split <;> simp

theorem execCompare_keep (tag : Tag) (s : State) {t : State} (h : execCompare tag s = .next t) : t.keep = s.keep := by
  unfold execCompare at h
  injection h with h
  subst h
  split <;> simp

theorem runAnvil_keep (tag o : Nat) (f : Job → State → State) (hf : ∀ j u, (f j u).keep = u.keep) (s : State) {t : State}
    (h : runAnvil tag o f s = .next t) : t.keep = s.keep := by
  unfold runAnvil at h
  exact runOp_keep tag o _ (fun j u => by simp [hf]) s h

theorem execRsaPriv_keep (tag : Tag) (s : State) {t : State} (h : execRsaPriv tag s = .next t) : t.keep = s.keep := by
  unfold execRsaPriv at h
  injection h with h
  subst h
  split <;> simp

theorem execRsaPub_keep (tag : Tag) (s : State) {t : State} (h : execRsaPub tag s = .next t) : t.keep = s.keep := by
  unfold execRsaPub at h
  injection h with h
  subst h
  split <;> simp

theorem execSign_keep (tag : Tag) (s : State) {t : State} (h : execSign tag s = .next t) : t.keep = s.keep := by
  unfold execSign at h
  injection h with h
  subst h
  split <;> simp

theorem execVerify_keep (tag : Tag) (s : State) {t : State} (h : execVerify tag s = .next t) : t.keep = s.keep := by
  unfold execVerify at h
  injection h with h
  subst h
  split <;> simp

theorem execNextKeyDerive_keep (tag : Tag) (s : State) {t : State}
    (h : execNextKeyDerive tag s = .next t) : t.keep = s.keep := by
  unfold execNextKeyDerive at h
  injection h with h
  subst h
  split <;> simp

theorem execNextKeyUnwrap_keep (tag : Tag) (s : State) {t : State}
    (h : execNextKeyUnwrap tag s = .next t) : t.keep = s.keep := by
  unfold execNextKeyUnwrap at h
  injection h with h
  subst h
  split <;> simp

theorem execKeyAgree_keep (tag : Tag) (s : State) {t : State} (h : execKeyAgree tag s = .next t) : t.keep = s.keep := by
  unfold execKeyAgree at h
  injection h with h
  subst h
  split <;> simp

theorem execKemEncaps_keep (tag : Tag) (s : State) {t : State} (h : execKemEncaps tag s = .next t) : t.keep = s.keep := by
  unfold execKemEncaps at h
  injection h with h
  subst h
  split <;> simp

theorem execKemDecaps_keep (tag : Tag) (s : State) {t : State} (h : execKemDecaps tag s = .next t) : t.keep = s.keep := by
  unfold execKemDecaps at h
  injection h with h
  subst h
  split <;> simp

theorem execKeygen_keep (tag : Tag) (s : State) {t : State} (h : execKeygen tag s = .next t) : t.keep = s.keep := by
  unfold execKeygen at h
  injection h with h
  subst h
  split <;> simp

theorem execRandom_keep (tag : Tag) (s : State) {t : State} (h : execRandom tag s = .next t) : t.keep = s.keep := by
  unfold execRandom at h
  injection h with h
  subst h
  split <;> simp

theorem execSegmentBoundary_keep (tag : Tag) (e : SegEnd) (s : State) {t : State}
    (h : execSegmentBoundary tag e s = .next t) : t.keep = s.keep := by
  unfold execSegmentBoundary at h
  injection h with h
  subst h
  (repeat' split) <;> simp

theorem execCometCombine_keep (tag : Tag) (checkOk : Bool) (s : State) {t : State}
    (h : execCometCombine tag checkOk s = .next t) : t.keep = s.keep := by
  unfold execCometCombine at h
  injection h with h
  subst h
  (repeat' split) <;> simp

theorem execJobComplete_keep (tag : Tag) (s : State) {t : State}
    (h : execJobComplete tag s = .next t) : t.keep = s.keep := by
  unfold execJobComplete at h
  injection h with h
  subst h
  split <;> simp

theorem execFrameCommit_keep (tag : Tag) (s : State) {t : State}
    (h : execFrameCommit tag s = .next t) : t.keep = s.keep := by
  unfold execFrameCommit at h
  injection h with h
  subst h
  (repeat' split) <;> simp

theorem execVaultFetch_keep (h : Handle) (s : State) {t : State} (h : execVaultFetch h s = .next t) : t.keep = s.keep := by
  unfold execVaultFetch at h
  injection h with h
  subst h
  simp

theorem execVaultFetchComplete_keep (h : Handle) (s : State) {t : State}
    (h : execVaultFetchComplete h s = .next t) : t.keep = s.keep := by
  unfold execVaultFetchComplete at h
  injection h with h
  subst h
  split <;> simp

theorem execContextEviction_keep (h : Handle) (s : State) {t : State}
    (h : execContextEviction h s = .next t) : t.keep = s.keep := by
  unfold execContextEviction at h
  injection h with h
  subst h
  split <;> simp

theorem execEvictionSeal_keep (h0 : Handle) (s : State) {t : State}
    (h : execEvictionSeal h0 s = .next t) : t.keep = s.keep := by
  unfold execEvictionSeal at h
  injection h with h
  subst h
  split
  · split
    · rfl
    · split
      · dsimp only
        split <;> simp
      · simp
  · rfl

theorem execVaultEnable_keep (v : RapWord) (s : State) {t : State}
    (h : execVaultEnable v s = .next t) : t.keep = s.keep := by
  unfold execVaultEnable at h
  injection h with h
  subst h
  simp

theorem execVaultDisable_keep (v : RapWord) (s : State) {t : State}
    (h : execVaultDisable v s = .next t) : t.keep = s.keep := by
  unfold execVaultDisable at h
  injection h with h
  subst h
  simp

theorem execVaultInit_keep (v : RapWord) (s : State) {t : State} (h : execVaultInit v s = .next t) : t.keep = s.keep := by
  unfold execVaultInit at h
  injection h with h
  subst h
  simp

theorem execVaultInitComplete_keep (s : State) {t : State} (h : execVaultInitComplete s = .next t) : t.keep = s.keep := by
  unfold execVaultInitComplete at h
  injection h with h
  subst h
  simp

theorem execResealSweep_keep (s : State) {t : State} (h : execResealSweep s = .next t) : t.keep = s.keep := by
  unfold execResealSweep at h
  injection h with h
  subst h
  (repeat' split) <;> simp

theorem execCommandPacketComplete_keep (slot : SlotId) (s : State) {t : State}
    (h : execCommandPacketComplete slot s = .next t) : t.keep = s.keep := by
  unfold execCommandPacketComplete at h
  injection h with h
  subst h
  (repeat' split) <;> simp

theorem execCommandTimeout_keep (slot : SlotId) (s : State) {t : State}
    (h : execCommandTimeout slot s = .next t) : t.keep = s.keep := by
  unfold execCommandTimeout at h
  injection h with h
  subst h
  (repeat' split) <;> simp

theorem execControlPad_keep (slot : SlotId) (s : State) {t : State}
    (h : execControlPad slot s = .next t) : t.keep = s.keep := by
  unfold execControlPad at h
  injection h with h
  subst h
  simp

theorem execInstCreate_keep (slot : SlotId) (s : State) {t : State}
    (h : execInstCreate slot s = .next t) : t.keep = s.keep := by
  unfold execInstCreate at h
  injection h with h
  subst h
  simp

theorem execInstResize_keep (slot : SlotId) (s : State) {t : State}
    (h : execInstResize slot s = .next t) : t.keep = s.keep := by
  unfold execInstResize at h
  injection h with h
  subst h
  simp

theorem execInstReset_keep (slot : SlotId) (s : State) {t : State}
    (h : execInstReset slot s = .next t) : t.keep = s.keep := by
  unfold execInstReset at h
  injection h with h
  subst h
  simp

theorem execInstResetRelease_keep (slot : SlotId) (s : State) {t : State}
    (h : execInstResetRelease slot s = .next t) : t.keep = s.keep := by
  unfold execInstResetRelease at h
  injection h with h
  subst h
  simp

theorem execInstResetComplete_keep (slot : SlotId) (s : State) {t : State}
    (h : execInstResetComplete slot s = .next t) : t.keep = s.keep := by
  unfold execInstResetComplete at h
  injection h with h
  subst h
  split <;> simp

theorem execInstEnable_keep (slot : SlotId) (s : State) {t : State}
    (h : execInstEnable slot s = .next t) : t.keep = s.keep := by
  unfold execInstEnable at h
  injection h with h
  subst h
  simp

theorem execInstDisable_keep (slot : SlotId) (s : State) {t : State}
    (h : execInstDisable slot s = .next t) : t.keep = s.keep := by
  unfold execInstDisable at h
  injection h with h
  subst h
  simp

theorem execInstDisableEclipse_keep (slot : SlotId) (s : State) {t : State}
    (h : execInstDisableEclipse slot s = .next t) : t.keep = s.keep := by
  unfold execInstDisableEclipse at h
  injection h with h
  subst h
  simp

theorem execInstStopComplete_keep (slot : SlotId) (s : State) {t : State}
    (h : execInstStopComplete slot s = .next t) : t.keep = s.keep := by
  unfold execInstStopComplete at h
  injection h with h
  subst h
  split <;> simp

theorem execDirtySwap_keep (slot : SlotId) (s : State) {t : State}
    (h : execDirtySwap slot s = .next t) : t.keep = s.keep := by
  unfold execDirtySwap at h
  injection h with h
  subst h
  simp

theorem execFence_keep (slot : SlotId) (s : State) {t : State} (h : execFence slot s = .next t) : t.keep = s.keep := by
  unfold execFence at h
  injection h with h
  subst h
  simp

theorem execCtxLoad_keep (slot : SlotId) (s : State) {t : State} (h : execCtxLoad slot s = .next t) : t.keep = s.keep := by
  unfold execCtxLoad at h
  injection h with h
  subst h
  simp

theorem execCtxEvict_keep (slot : SlotId) (s : State) {t : State} (h : execCtxEvict slot s = .next t) : t.keep = s.keep := by
  unfold execCtxEvict at h
  injection h with h
  subst h
  simp

theorem execCtxEvictDelete_keep (slot : SlotId) (s : State) {t : State}
    (h : execCtxEvictDelete slot s = .next t) : t.keep = s.keep := by
  unfold execCtxEvictDelete at h
  injection h with h
  subst h
  simp

theorem execCtxEvictFlush_keep (slot : SlotId) (s : State) {t : State}
    (h : execCtxEvictFlush slot s = .next t) : t.keep = s.keep := by
  unfold execCtxEvictFlush at h
  injection h with h
  subst h
  simp

theorem execCtxPin_keep (slot : SlotId) (s : State) {t : State} (h : execCtxPin slot s = .next t) : t.keep = s.keep := by
  unfold execCtxPin at h
  injection h with h
  subst h
  simp

theorem execCtxExport_keep (slot : SlotId) (s : State) {t : State}
    (h : execCtxExport slot s = .next t) : t.keep = s.keep := by
  unfold execCtxExport at h
  injection h with h
  subst h
  simp

theorem execCtxImport_keep (slot : SlotId) (s : State) {t : State}
    (h : execCtxImport slot s = .next t) : t.keep = s.keep := by
  unfold execCtxImport at h
  injection h with h
  subst h
  simp

theorem execCtxRekey_keep (slot : SlotId) (s : State) {t : State} (h : execCtxRekey slot s = .next t) : t.keep = s.keep := by
  unfold execCtxRekey at h
  injection h with h
  subst h
  simp

theorem execKeyDerive_keep (slot : SlotId) (s : State) {t : State}
    (h : execKeyDerive slot s = .next t) : t.keep = s.keep := by
  unfold execKeyDerive at h
  injection h with h
  subst h
  simp

theorem execKeyUnwrap_keep (slot : SlotId) (s : State) {t : State}
    (h : execKeyUnwrap slot s = .next t) : t.keep = s.keep := by
  unfold execKeyUnwrap at h
  injection h with h
  subst h
  simp

theorem execKeyUnwrapKem_keep (slot : SlotId) (s : State) {t : State}
    (h : execKeyUnwrapKem slot s = .next t) : t.keep = s.keep := by
  unfold execKeyUnwrapKem at h
  injection h with h
  subst h
  simp

theorem execKeyUnwrapRestore_keep (slot : SlotId) (s : State) {t : State}
    (h : execKeyUnwrapRestore slot s = .next t) : t.keep = s.keep := by
  unfold execKeyUnwrapRestore at h
  injection h with h
  subst h
  simp

theorem execKeyInvalidate_keep (slot : SlotId) (s : State) {t : State}
    (h : execKeyInvalidate slot s = .next t) : t.keep = s.keep := by
  unfold execKeyInvalidate at h
  injection h with h
  subst h
  simp

theorem execHmacSlotLoad_keep (slot : SlotId) (s : State) {t : State}
    (h : execHmacSlotLoad slot s = .next t) : t.keep = s.keep := by
  unfold execHmacSlotLoad at h
  injection h with h
  subst h
  simp (disch := (intros; split <;> simp))

theorem execTamperCfg_keep (slot : SlotId) (s : State) {t : State}
    (h : execTamperCfg slot s = .next t) : t.keep = s.keep := by
  unfold execTamperCfg at h
  injection h with h
  subst h
  simp

theorem execCalibrate_keep (slot : SlotId) (s : State) {t : State}
    (h : execCalibrate slot s = .next t) : t.keep = s.keep := by
  unfold execCalibrate at h
  injection h with h
  subst h
  simp

theorem execLedgerWriteConfig_keep (slot : SlotId) (s : State) {t : State}
    (h : execLedgerWriteConfig slot s = .next t) : t.keep = s.keep := by
  unfold execLedgerWriteConfig at h
  injection h with h
  subst h
  simp

theorem execLedgerWriteCheckpoint_keep (slot : SlotId) (s : State) {t : State}
    (h : execLedgerWriteCheckpoint slot s = .next t) : t.keep = s.keep := by
  unfold execLedgerWriteCheckpoint at h
  injection h with h
  subst h
  simp

theorem execVaultRotate_keep (slot : SlotId) (s : State) {t : State}
    (h : execVaultRotate slot s = .next t) : t.keep = s.keep := by
  unfold execVaultRotate at h
  injection h with h
  subst h
  simp

theorem execImageStage_keep (slot : SlotId) (s : State) {t : State}
    (h : execImageStage slot s = .next t) : t.keep = s.keep := by
  unfold execImageStage at h
  injection h with h
  subst h
  simp

theorem execImageCommit_keep (slot : SlotId) (s : State) {t : State}
    (h : execImageCommit slot s = .next t) : t.keep = s.keep := by
  unfold execImageCommit at h
  injection h with h
  subst h
  simp

theorem execImageRollback_keep (slot : SlotId) (s : State) {t : State}
    (h : execImageRollback slot s = .next t) : t.keep = s.keep := by
  unfold execImageRollback at h
  injection h with h
  subst h
  simp

theorem execYuhamRunningTimeout_keep (s : State) {t : State}
    (h : execYuhamRunningTimeout s = .next t) : t.keep = s.keep := by
  unfold execYuhamRunningTimeout at h
  injection h with h
  subst h
  split <;> simp

theorem execForgeRetire_keep (slot : SlotId) (s : State) {t : State}
    (h : execForgeRetire slot s = .next t) : t.keep = s.keep := by
  unfold execForgeRetire at h
  injection h with h
  subst h
  simp

theorem execForgeRestore_keep (slot : SlotId) (s : State) {t : State}
    (h : execForgeRestore slot s = .next t) : t.keep = s.keep := by
  unfold execForgeRestore at h
  injection h with h
  subst h
  simp

theorem execClockSetCal_keep (slot : SlotId) (s : State) {t : State}
    (h : execClockSetCal slot s = .next t) : t.keep = s.keep := by
  unfold execClockSetCal at h
  injection h with h
  subst h
  simp

theorem execClockSetStep_keep (slot : SlotId) (s : State) {t : State}
    (h : execClockSetStep slot s = .next t) : t.keep = s.keep := by
  unfold execClockSetStep at h
  injection h with h
  subst h
  simp

theorem execLogRead_keep (slot : SlotId) (s : State) {t : State} (h : execLogRead slot s = .next t) : t.keep = s.keep := by
  unfold execLogRead at h
  injection h with h
  subst h
  simp

theorem execAttestPlain_keep (slot : SlotId) (s : State) {t : State}
    (h : execAttestPlain slot s = .next t) : t.keep = s.keep := by
  unfold execAttestPlain at h
  injection h with h
  subst h
  simp

theorem execAttestProvKey_keep (slot : SlotId) (s : State) {t : State}
    (h : execAttestProvKey slot s = .next t) : t.keep = s.keep := by
  unfold execAttestProvKey at h
  injection h with h
  subst h
  simp

theorem execAttestOffer_keep (slot : SlotId) (s : State) {t : State}
    (h : execAttestOffer slot s = .next t) : t.keep = s.keep := by
  unfold execAttestOffer at h
  injection h with h
  subst h
  simp

theorem execAttestRespond_keep (slot : SlotId) (s : State) {t : State}
    (h : execAttestRespond slot s = .next t) : t.keep = s.keep := by
  unfold execAttestRespond at h
  injection h with h
  subst h
  simp

theorem execAttestFinish_keep (slot : SlotId) (s : State) {t : State}
    (h : execAttestFinish slot s = .next t) : t.keep = s.keep := by
  unfold execAttestFinish at h
  injection h with h
  subst h
  simp

theorem execOryAttestGo_keep (path : Path) (v : RapWord) (s : State) {t : State}
    (h : execOryAttestGo path v s = .next t) : t.keep = s.keep := by
  unfold execOryAttestGo at h
  injection h with h
  subst h
  simp

theorem execXlInvGo_keep (v : RapWord) (s : State) {t : State} (h : execXlInvGo v s = .next t) : t.keep = s.keep := by
  unfold execXlInvGo at h
  injection h with h
  subst h
  simp

theorem execXlInvDone_keep (s : State) {t : State} (h : execXlInvDone s = .next t) : t.keep = s.keep := by
  unfold execXlInvDone at h
  injection h with h
  subst h
  simp

theorem execEclipseRequest_keep (v : RapWord) (s : State) {t : State}
    (h : execEclipseRequest v s = .next t) : t.keep = s.keep := by
  unfold execEclipseRequest at h
  injection h with h
  subst h
  simp

theorem execEclipseEnd_keep (v : RapWord) (s : State) {t : State} (h : execEclipseEnd v s = .next t) : t.keep = s.keep := by
  unfold execEclipseEnd at h
  injection h with h
  subst h
  simp

theorem execResume_keep (v : RapWord) (s : State) {t : State} (h : execResume v s = .next t) : t.keep = s.keep := by
  unfold execResume at h
  injection h with h
  subst h
  simp

theorem execEclipseQuiesceComplete_keep (s : State) {t : State}
    (h : execEclipseQuiesceComplete s = .next t) : t.keep = s.keep := by
  unfold execEclipseQuiesceComplete at h
  injection h with h
  subst h
  simp

theorem execLcArm_keep (v : RapWord) (s : State) {t : State} (h : execLcArm v s = .next t) : t.keep = s.keep := by
  unfold execLcArm at h
  injection h with h
  subst h
  simp

theorem execAttReqRise_keep (s : State) {t : State} (h : execAttReqRise s = .next t) : t.keep = s.keep := by
  unfold execAttReqRise at h
  injection h with h
  subst h
  simp

theorem execDetReqRise_keep (s : State) {t : State} (h : execDetReqRise s = .next t) : t.keep = s.keep := by
  unfold execDetReqRise at h
  injection h with h
  subst h
  split
  · simp
  · split <;> simp

theorem execDetReqFall_keep (attReq : Bool) (s : State) {t : State}
    (h : execDetReqFall attReq s = .next t) : t.keep = s.keep := by
  unfold execDetReqFall at h
  injection h with h
  subst h
  simp

theorem execDetachDrainLimit_keep (s : State) {t : State} (h : execDetachDrainLimit s = .next t) : t.keep = s.keep := by
  unfold execDetachDrainLimit at h
  injection h with h
  subst h
  simp

theorem execH2bPost_keep (path : WritePath) (s : State) {t : State}
    (h : execH2bPost path s = .next t) : t.keep = s.keep := by
  unfold execH2bPost at h
  injection h with h
  subst h
  simp

theorem execH2bAck_keep (path : WritePath) (s : State) {t : State}
    (h : execH2bAck path s = .next t) : t.keep = s.keep := by
  unfold execH2bAck at h
  injection h with h
  subst h
  simp

theorem execB2hPost_keep (path : WritePath) (s : State) {t : State}
    (h : execB2hPost path s = .next t) : t.keep = s.keep := by
  unfold execB2hPost at h
  injection h with h
  subst h
  simp

theorem execB2hAck_keep (path : WritePath) (s : State) {t : State}
    (h : execB2hAck path s = .next t) : t.keep = s.keep := by
  unfold execB2hAck at h
  injection h with h
  subst h
  simp

theorem execMboxWordWrite_keep (path : Path) (dir : MboxDir) (i : Fin 32) (v : RapWord) (s : State) {t : State}
    (h : execMboxWordWrite path dir i v s = .next t) : t.keep = s.keep := by
  unfold execMboxWordWrite at h
  injection h with h
  subst h
  simp

theorem execConfigRegisterWrite_keep (addr : BitVec 24) (v : Word) (ic : BitVec 16) (s : State) {t : State}
    (h : execConfigRegisterWrite addr v ic s = .next t) : t.keep = s.keep := by
  unfold execConfigRegisterWrite at h
  injection h with h
  subst h
  simp

theorem execRapUnmappedAccess_keep (addr : BitVec 24) (write : Option RapWord) (s : State) {t : State}
    (h : execRapUnmappedAccess addr write s = .next t) : t.keep = s.keep := by
  unfold execRapUnmappedAccess at h
  injection h with h
  subst h
  split <;> simp

theorem execAttachSequenceComplete_keep (rep : AttachReport) (s : State) {t : State}
    (h : execAttachSequenceComplete rep s = .next t) : t.keep = s.keep := by
  unfold execAttachSequenceComplete at h
  injection h with h
  subst h
  split
  · rfl
  · split
    · split <;> simp
    · split <;> simp
    · rfl

theorem execMainPgFall_keep (s : State) {t : State} (h : execMainPgFall s = .next t) : t.keep = s.keep := by
  unfold execMainPgFall at h
  injection h with h
  subst h
  simp

theorem execGlbReset_keep (path : Path) (v : RapWord) (s : State) {t : State}
    (h : execGlbReset path v s = .next t) : t.keep = s.keep := by
  unfold execGlbReset at h
  injection h with h
  subst h
  simp

theorem execI3cPointerWrite_keep (ptr : BitVec 24) (s : State) {t : State}
    (h : execI3cPointerWrite ptr s = .next t) : t.keep = s.keep := by
  unfold execI3cPointerWrite at h
  injection h with h
  subst h
  simp

theorem execI3cRegisterWrite_keep (ptr : BitVec 24) (v : Word) (s : State) {t : State}
    (h : execI3cRegisterWrite ptr v s = .next t) : t.keep = s.keep := by
  unfold execI3cRegisterWrite at h
  injection h with h
  subst h
  simp

theorem execI3cRefusedWrite_keep (len : Nat) (s : State) {t : State}
    (h : execI3cRefusedWrite len s = .next t) : t.keep = s.keep := by
  unfold execI3cRefusedWrite at h
  injection h with h
  subst h
  simp

theorem execI3cPrivateRead_keep (words : Nat) (s : State) {t : State}
    (h : execI3cPrivateRead words s = .next t) : t.keep = s.keep := by
  unfold execI3cPrivateRead at h
  injection h with h
  subst h
  simp

theorem execEntdaa_keep (addr : BitVec 7) (s : State) {t : State} (h : execEntdaa addr s = .next t) : t.keep = s.keep := by
  unfold execEntdaa at h
  injection h with h
  subst h
  simp

theorem execSetdasa_keep (addr : BitVec 7) (s : State) {t : State} (h : execSetdasa addr s = .next t) : t.keep = s.keep := by
  unfold execSetdasa at h
  injection h with h
  subst h
  simp

theorem execEnec_keep (s : State) {t : State} (h : execEnec s = .next t) : t.keep = s.keep := by
  unfold execEnec at h
  injection h with h
  subst h
  simp

theorem execDisec_keep (s : State) {t : State} (h : execDisec s = .next t) : t.keep = s.keep := by
  unfold execDisec at h
  injection h with h
  subst h
  simp

theorem execRstdaa_keep (s : State) {t : State} (h : execRstdaa s = .next t) : t.keep = s.keep := by
  unfold execRstdaa at h
  injection h with h
  subst h
  simp

theorem execSetmwl_keep (mwl : BitVec 16) (s : State) {t : State} (h : execSetmwl mwl s = .next t) : t.keep = s.keep := by
  unfold execSetmwl at h
  injection h with h
  subst h
  simp

theorem execGetmwl_keep (s : State) {t : State} (h : execGetmwl s = .next t) : t.keep = s.keep := by
  unfold execGetmwl at h
  injection h with h
  subst h
  simp

theorem execGetmrl_keep (s : State) {t : State} (h : execGetmrl s = .next t) : t.keep = s.keep := by
  unfold execGetmrl at h
  injection h with h
  subst h
  simp

theorem execGetpid_keep (s : State) {t : State} (h : execGetpid s = .next t) : t.keep = s.keep := by
  unfold execGetpid at h
  injection h with h
  subst h
  simp

theorem execGetbcr_keep (s : State) {t : State} (h : execGetbcr s = .next t) : t.keep = s.keep := by
  unfold execGetbcr at h
  injection h with h
  subst h
  simp

theorem execGetdcr_keep (s : State) {t : State} (h : execGetdcr s = .next t) : t.keep = s.keep := by
  unfold execGetdcr at h
  injection h with h
  subst h
  simp

theorem execGetstatus_keep (s : State) {t : State} (h : execGetstatus s = .next t) : t.keep = s.keep := by
  unfold execGetstatus at h
  injection h with h
  subst h
  simp

end Sys2Proof.Machine
end

