-- ==== Sys2Proof/Laws/Lifecycle.lean ====
section
/-! SUPPORT. What the three commands that reach the fuses do to them: MAIN_PG_RISE and START_UP_COMPLETE may fuse the
Silver root, LC_COMMIT advances the lifecycle. -/

namespace Sys2Proof.Machine
open Sys2Proof.Laws

theorem State.keep_pending {s t : State} (h : t.keep = s.keep) : t.pending = s.pending := congrArg Lasting.pending h
theorem State.keep_life {s t : State} (h : t.keep = s.keep) : t.life = s.life := congrArg Lasting.life h
theorem State.keep_silver {s t : State} (h : t.keep = s.keep) : t.silver = s.silver := congrArg Lasting.silver h

@[simp] theorem drawBytes_length (s : State) (n : Nat) : (drawBytes s n).length = n := by simp [drawBytes]

/-- What a start-up may do to the queue and the fuses: it fuses a Silver root of 256 bits where none is in DEPLOYED. -/
def State.fused (s t : State) : Prop :=
  t.pending = s.pending ∧ t.life = s.life
    ∧ (t.silver = s.silver ∨ (s.silver = none ∧ s.life = .deployed ∧ ∃ k, k.length = 32 ∧ t.silver = some k))

theorem State.fused_of_keep {s t : State} (h : t.keep = s.keep) : s.fused t :=
  ⟨State.keep_pending h, State.keep_life h, .inl (State.keep_silver h)⟩

theorem State.fused.before {s t u : State} (h : t.keep = s.keep) (g : t.fused u) : s.fused u := by
  obtain ⟨g1, g2, g3⟩ := g
  rw [State.keep_pending h] at g1
  rw [State.keep_life h] at g2 g3
  rw [State.keep_silver h] at g3
  exact ⟨g1, g2, g3⟩

theorem State.fused.after {s t u : State} (g : s.fused t) (h : u.keep = t.keep) : s.fused u := by
  obtain ⟨g1, g2, g3⟩ := g
  exact ⟨by rw [State.keep_pending h, g1], by rw [State.keep_life h, g2], by rw [State.keep_silver h]; exact g3⟩

theorem makeSilver_fused (ok : Bool) (s : State) : s.fused (makeSilver ok s) := by
  unfold makeSilver
  split
  · exact State.fused_of_keep rfl
  · next h =>
    simp only [Bool.or_eq_true, bne_iff_ne, ne_eq, not_or, Decidable.not_not, Bool.not_eq_true, Option.isSome_eq_false_iff,
      Option.isNone_iff_eq_none] at h
    split
    · exact ⟨rfl, rfl, .inr ⟨h.2, h.1, _, drawBytes_length s 32, rfl⟩⟩
    · exact State.fused_of_keep rfl

theorem bootKeys_fused (ok : Bool) (s : State) : s.fused (bootKeys ok s) := by
  unfold bootKeys
  split
  · exact State.fused_of_keep rfl
  · dsimp only
    have h : (if s.vigil.zpend then forgetKeys s else s).keep = s.keep := by split <;> simp
    refine State.fused.before (t := loadSlots (if s.vigil.zpend then forgetKeys s else s)) (by simp) ?_
    refine State.fused.after (makeSilver_fused ok _) ?_
    split <;> simp [State.modVault]

theorem bootRun_fused (rep : BootReport) (s : State) : s.fused (bootRun rep s) := by
  unfold bootRun
  dsimp only
  generalize hs : bootDrbg (bootBanks rep.banks (bootUnits rep.units (bootPipes rep.pipes
    (if rep.fusesOk then (countBoot s).modModes fun m => { m with stage := .awaitAttach }
     else occurrence 13 ((countBoot s).modModes fun m => { m with stage := .awaitAttach }))))) = u
  have hu : u.keep = s.keep := by
    rw [← hs]
    simp only [bootDrbg_keep, bootBanks_keep, bootUnits_keep, bootPipes_keep]
    split <;> simp [State.modModes]
  exact State.fused.after (State.fused.before hu (bootKeys_fused rep.silverOk u)) (by simp)

theorem execMainPgRise_fused (rep : BootReport) (s : State) {t : State} (h : execMainPgRise rep s = .next t) : s.fused t := by
  simp only [execMainPgRise, Host.Outcome.next.injEq] at h
  subst h
  split
  · exact State.fused_of_keep rfl
  · exact State.fused.before (by simp [State.modTam, State.modVigil]) (bootRun_fused rep _)

theorem execStartUpComplete_fused (rep : BootReport) (s : State) {t : State} (h : execStartUpComplete rep s = .next t) :
    s.fused t := by
  simp only [execStartUpComplete, Host.Outcome.next.injEq] at h
  subst h
  split
  · exact State.fused_of_keep rfl
  · have g : s.fused (if s.modes.stage == .atStart then bootRun rep (bootPins rep s) else s) := by
      split
      · exact State.fused.before (by simp) (bootRun_fused rep _)
      · exact State.fused_of_keep rfl
    generalize (if s.modes.stage == .atStart then bootRun rep (bootPins rep s) else s) = u at g ⊢
    split
    · exact g
    · exact g.after (by simp)

@[simp] theorem lcProgram_pending (t : Nat) (ok : Bool) (s : State) : (lcProgram t ok s).pending = s.pending := by
  unfold lcProgram
  have h : ∀ u : State, (blockReset u).pending = u.pending := fun u => State.keep_pending (by simp)
  simp only [h]
  split <;> split <;> simp [State.modModes, drawn]

theorem lcProgram_fuses (t : Nat) (ok : Bool) (s : State) :
    (lcProgram t ok s).silver = s.silver
      ∧ ((lcProgram t ok s).life = s.life ∨ (lcProgram t ok s).life = if t = 1 then .deployed else .terminated) := by
  unfold lcProgram
  have h1 : ∀ u : State, (blockReset u).silver = u.silver := fun u => State.keep_silver (by simp)
  have h2 : ∀ u : State, (blockReset u).life = u.life := fun u => State.keep_life (by simp)
  simp only [h1, h2]
  cases ok <;> cases Config.freeBool s.freeCtr <;> simp [State.modModes, drawn]

/-- A register write acts on the state with RAP_ERR low, or it leaves the queue and the fuses as they are. -/
theorem rapDo_cases (addr : Nat) (v : RapWord) (f : State → State) (s : State) :
    rapDo addr v f s = f (s.modPort fun p => { p with rapErr := false }) ∨ (rapDo addr v f s).keep = s.keep := by
  unfold rapDo rapOpen
  split
  · exact .inr rfl
  · split
    · exact .inr rfl
    · dsimp only
      split
      · exact .inr (by simp [State.modPort])
      · exact .inl rfl

/-- LC_COMMIT keeps the queue and the Silver root, and the lifecycle only advances. -/
theorem execLcCommit_fuses (v : RapWord) (ok : Bool) (s : State) {t : State} (h : execLcCommit v ok s = .next t) :
    t.pending = s.pending ∧ t.silver = s.silver
      ∧ (t.life = s.life ∨ (s.life = .manufacture ∧ t.life = .deployed) ∨ (s.life ≠ .terminated ∧ t.life = .terminated)) := by
  simp only [execLcCommit, Host.Outcome.next.injEq] at h
  subst h
  rcases rapDo_cases 0x30 v _ s with hr | hr
  case inr => exact ⟨State.keep_pending hr, State.keep_silver hr, .inl (State.keep_life hr)⟩
  rw [hr]
  generalize hu : (s.modPort fun p => { p with rapErr := false }) = u
  have k1 : u.pending = s.pending := by rw [← hu]; rfl
  have k2 : u.life = s.life := by rw [← hu]; rfl
  have k3 : u.silver = s.silver := by rw [← hu]; rfl
  split
  · exact ⟨k1, k3, .inl k2⟩
  · split
    · next hp =>
      unfold lcAdvance
      generalize fld v.toNat 0 2 = n at hp
      have hk : ∀ w : State, w = (if n = 2 then abortKeyOps 2 (clearKeys true false (u.modPort fun p => { p with zDriven := true })) else u) →
          w.keep = u.keep := by
        rintro w rfl; split <;> simp [State.modPort]
      generalize (if n = 2 then abortKeyOps 2 (clearKeys true false (u.modPort fun p => { p with zDriven := true })) else u) = w at hk
      have hw := hk w rfl
      have e1 := State.keep_pending hw
      have e2 := State.keep_life hw
      have e3 := State.keep_silver hw
      obtain ⟨g1, g2⟩ := lcProgram_fuses n ok w
      refine ⟨by simp [e1, k1], by rw [g1, e3, k3], ?_⟩
      rcases g2 with g2 | g2
      · exact .inl (by rw [g2, e2, k2])
      · simp only [lcPermitted, Bool.and_eq_true] at hp
        by_cases hn : n = 1
        · simp only [hn, if_true, Bool.and_eq_true, beq_iff_eq] at hp
          exact .inr (.inl ⟨by rw [← k2]; exact hp.2.1.1, by rw [g2]; simp [hn]⟩)
        · simp only [hn, if_false, Bool.and_eq_true, bne_iff_ne, ne_eq] at hp
          exact .inr (.inr ⟨by rw [← k2]; exact hp.2.1.2, by rw [g2]; simp [hn]⟩)
    · have : ((lcCtl v.toNat u).modGlb fun g => { g with lcCfgErr := true }).keep = u.keep := by simp [State.modGlb]
      exact ⟨by rw [State.keep_pending this, k1], by rw [State.keep_silver this, k3], .inl (by rw [State.keep_life this, k2])⟩

end Sys2Proof.Machine
end

