-- ==== Sys2Proof/Laws/Quiet.lean ====
section
/-! SUPPORT. The part of the state that what follows a command never changes, and how it passes through updates, choices
and folds. -/

namespace Sys2Proof.Laws
open Sys2Proof Sys2Proof.Machine

/-- The part of the state that what follows a command never changes: of the fabric, all but how far a round has come, since a change
of the mode ends the rounds; of the time, all but the edges of TP_PPS counted since an attach began. -/
structure Quiet where
  life : Lifecycle
  silver : Option (List Byte)
  glb : GlbSt
  time : TimeSt
  fab : FabricSt
  ctx : Tbl Ctx
  dig : DigestSt
  anv : AnvilSt
  cruc : CrucSt
  sit : SitShared
  tam : TamperSt
  vigil : VigilSt

end Sys2Proof.Laws

namespace Sys2Proof.Machine
open Sys2Proof.Laws

/-- The time without the edges of TP_PPS counted since an attach began. -/
def TimeSt.kept (t : TimeSt) : TimeSt := { t with goodEdges := 0 }

/-- The fabric without how far a round has come. -/
def FabricSt.kept (b : FabricSt) : FabricSt := { b with rounds := 0 }

/-- That part of a state. -/
def State.still (s : State) : Quiet :=
  ⟨s.life, s.silver, s.glb, s.time.kept, s.fab.kept, s.ctx, s.dig, s.anv, s.cruc, s.sit, s.tam, s.vigil⟩

@[simp] theorem still_mk (a1 : List Instr) (a2 : Nat) (a3 : Lifecycle) (a4 : Option (List Byte)) (a5 : ModeSt) (a6 : GlbSt)
    (a7 : TimeSt) (a8 : PortSt) (a9 : MemSt) (b1 : Tbl Ring) (b2 : Tbl Notif) (b3 : List Job) (b4 : FabricSt) (b5 : Tbl Ctx)
    (b6 : VaultSt) (b7 : DigestSt) (b8 : AnvilSt) (b9 : CrucSt) (c1 : StreamsSt) (c2 : SitShared) (c3 : Tbl Inst) (c4 : TamperSt)
    (c5 : VigilSt) (c6 : OrrerySt) (c7 : LedgerSt) :
    State.still ⟨a1, a2, a3, a4, a5, a6, a7, a8, a9, b1, b2, b3, b4, b5, b6, b7, b8, b9, c1, c2, c3, c4, c5, c6, c7⟩
      = ⟨a3, a4, a6, a7.kept, b4.kept, b5, b7, b8, b9, c2, c4, c5⟩ := rfl

@[simp] theorem still_eta (s : State) :
    Quiet.mk s.life s.silver s.glb s.time.kept s.fab.kept s.ctx s.dig s.anv s.cruc s.sit s.tam s.vigil = s.still := rfl

@[simp] theorem still_ite (c : Prop) [Decidable c] (a b : State) :
    State.still (if c then a else b) = if c then a.still else b.still := by split <;> rfl

@[simp] theorem still_foldl {α : Type} (g : State → α → State) (h : ∀ t x, (g t x).still = t.still) (l : List α) (s : State) :
    (l.foldl g s).still = s.still := by
  induction l generalizing s with
  | nil => rfl
  | cons x l ih => rw [List.foldl_cons, ih, h]

end Sys2Proof.Machine
end

