-- ==== Sys2Proof/Laws/Serving.lean ====
section
/-! SUPPORT. What a command's event does once its packet is served: `runCmd` acts on exactly the packet and the state that
`State.serving` names. -/

namespace Sys2Proof.Machine

/-- A command's event acts as its meaning says on the packet that already runs. -/
theorem runCmd_running {s : State} {slot opc : Nat} {sel : Nat → Bool} {reads : Packet → List (Nat × Nat)}
    {f : Packet → State → State} {p : Packet} (h1 : cmdOn s = true) (h2 : cmdHeld s opc = false)
    (h3 : livePacket s slot opc = some p) (h4 : sel p.flags = true) (h5 : cmdReads s p = .ready) :
    runCmd slot opc sel reads f s = conclude (f p s) := by
  simp [runCmd, h1, h2, h3, h4, advanceCmd, h5]

/-- What tells packets apart: slot, opcode, options and outcome. -/
def Packet.face (p : Packet) : Nat × Nat × Nat × Option Res := (p.slot, p.opc, p.flags, p.res)

/-- The packets of Orrery as told apart. -/
def State.faces (s : State) : List (Nat × Nat × Nat × Option Res) := s.ory.packets.map Packet.face

theorem pushAcc_ory (a : Access) (s : State) : (pushAcc a s).ory = s.ory := by
  unfold pushAcc; split <;> rfl

theorem startRead_ory (i addr len : Nat) (phys : Bool) (own : RdOwn) (s : State) : (startRead i addr len phys own s).ory = s.ory := by
  have h : ∀ (l : List (Nat × Nat × Nat)) (g : Nat × Nat × Nat → Access) (t : State),
      (l.foldl (fun t x => pushAcc (g x) t) t).ory = t.ory := by
    intro l g
    induction l with
    | nil => intro t; rfl
    | cons x l ih => intro t; rw [List.foldl_cons, ih, pushAcc_ory]
  unfold startRead startReadParts
  exact h _ _ _

theorem cmdRead_faces (slot k addr len : Nat) (s : State) : (cmdRead slot k addr len s).faces = s.faces := by
  have h : (cmdRead slot k addr len s).faces
      = (startRead mi addr len false (.cmd slot k) s).ory.packets.map Packet.face := by
    simp only [State.faces, cmdRead, modPacket, State.modOry, List.map_map]
    apply List.map_congr_left
    intro p _
    simp only [Function.comp_apply]
    split <;> rfl
  rw [h, startRead_ory, State.faces]

theorem startCmd_faces (e : Entry) (reads : Packet → List (Nat × Nat)) (s : State) :
    (startCmd e reads s).faces = s.faces ++ [{ packetOf e with res := cmdCheck s e }.face] := by
  have h : ∀ (l : List ((Nat × Nat) × Nat)) (t : State),
      (l.foldl (fun t x => cmdRead e.slot x.2 x.1.1 x.1.2 t) t).faces = t.faces := by
    intro l
    induction l with
    | nil => intro t; rfl
    | cons x l ih => intro t; rw [List.foldl_cons, ih, cmdRead_faces]
  unfold startCmd
  dsimp only
  split
  · simp [State.faces, takeCmd, State.modOry, State.modRing, State.setRing]
  · rw [h]; simp [State.faces, takeCmd, State.modOry, State.modRing, State.setRing]

/-- The packet that a start serves is the entry's own. -/
theorem startCmd_flags {s : State} {e : Entry} {reads : Packet → List (Nat × Nat)} {slot opc : Nat} {p : Packet}
    (h1 : livePacket s slot opc = none) (h2 : livePacket (startCmd e reads s) slot opc = some p) : p.flags = hFlags e.hdr := by
  have hm := List.mem_of_find?_eq_some h2
  have hp := List.find?_some h2
  simp only [Bool.and_eq_true, decide_eq_true_eq, Option.isNone_iff_eq_none] at hp
  have hf : p.face ∈ (startCmd e reads s).faces := List.mem_map_of_mem hm
  rw [startCmd_faces, List.mem_append] at hf
  rcases hf with hf | hf
  · obtain ⟨q, hq, he⟩ := List.mem_map.mp hf
    simp only [Packet.face, Prod.mk.injEq] at he
    have := List.find?_eq_none.mp h1 q hq
    simp [he.1, he.2.1, he.2.2.2, hp.1.1, hp.1.2, hp.2] at this
  · simp only [List.mem_singleton, Packet.face, Prod.mk.injEq] at hf
    exact hf.2.2.1

/-- A command's event acts as its meaning says on the packet and the state that `State.serving` names. -/
theorem runCmd_serving {s t : State} {slot opc : Nat} {sel : Nat → Bool} {reads : Packet → List (Nat × Nat)}
    {p : Packet} (h : s.serving slot opc reads = some (p, t)) (hs : sel p.flags = true) (f : Packet → State → State) :
    runCmd slot opc sel reads f s = conclude (f p t) := by
  unfold State.serving at h
  split at h
  · cases h
  next h0 =>
  simp only [Bool.or_eq_true, Bool.not_eq_true', not_or, Bool.not_eq_false, Bool.not_eq_true] at h0
  split at h
  · next q hq =>
    split at h
    · next hr =>
      obtain ⟨rfl, rfl⟩ := h
      exact runCmd_running h0.1 h0.2 hq hs (by simpa using hr)
    · cases h
  · next hq =>
    split at h
    · cases h
    · next e he =>
      split at h
      · next hc =>
        simp only [Bool.and_eq_true] at hc
        dsimp only at h
        split at h
        · next q hq2 =>
          split at h
          · next hr =>
            obtain ⟨rfl, rfl⟩ := h
            have hfl := startCmd_flags hq hq2
            simp [runCmd, h0.1, h0.2, hq, he, ← hfl, hs, hc.1.1, hc.1.2, advanceCmd, hq2]
            simp only [beq_iff_eq] at hr
            rw [hr]
          · cases h
        · cases h
      · cases h

end Sys2Proof.Machine
end

