-- ==== Sys2Proof/Laws/Still.lean ====
section
/-! SUPPORT. What follows a command (accesses issued, failures worked through, the detach) changes no field of a list. -/

namespace Sys2Proof.Machine
open Sys2Proof.Laws

@[simp] theorem State.setInst_still (s : State) (i : Nat) (v : Inst) : (State.setInst s i v).still = s.still := by
  unfold State.setInst
  simp

@[simp] theorem State.modInst_still (s : State) (i : Nat) (f : Inst → Inst) : (State.modInst s i f).still = s.still := by
  unfold State.modInst
  simp

@[simp] theorem State.setRing_still (s : State) (r : Nat) (v : Ring) : (State.setRing s r v).still = s.still := by
  unfold State.setRing
  simp

@[simp] theorem State.modRing_still (s : State) (r : Nat) (f : Ring → Ring) : (State.modRing s r f).still = s.still := by
  unfold State.modRing
  simp

@[simp] theorem State.setNr_still (s : State) (n : Nat) (v : Notif) : (State.setNr s n v).still = s.still := by
  unfold State.setNr
  simp

@[simp] theorem State.modNr_still (s : State) (n : Nat) (f : Notif → Notif) : (State.modNr s n f).still = s.still := by
  unfold State.modNr
  simp

@[simp] theorem State.modJob_still (s : State) (t : Nat) (f : Job → Job) : (State.modJob s t f).still = s.still := by
  unfold State.modJob
  simp

@[simp] theorem State.dropJob_still (s : State) (t : Nat) : (State.dropJob s t).still = s.still := by
  unfold State.dropJob
  simp

@[simp] theorem State.modPort_still (s : State) (f : PortSt → PortSt) : (State.modPort s f).still = s.still := by
  unfold State.modPort
  simp

@[simp] theorem State.modModes_still (s : State) (f : ModeSt → ModeSt) : (State.modModes s f).still = s.still := by
  unfold State.modModes
  simp

@[simp] theorem State.modMem_still (s : State) (f : MemSt → MemSt) : (State.modMem s f).still = s.still := by
  unfold State.modMem
  simp

@[simp] theorem State.modVault_still (s : State) (f : VaultSt → VaultSt) : (State.modVault s f).still = s.still := by
  unfold State.modVault
  simp

@[simp] theorem State.modStr_still (s : State) (f : StreamsSt → StreamsSt) : (State.modStr s f).still = s.still := by
  unfold State.modStr
  simp

@[simp] theorem State.modOry_still (s : State) (f : OrrerySt → OrrerySt) : (State.modOry s f).still = s.still := by
  unfold State.modOry
  simp

@[simp] theorem State.modLdg_still (s : State) (f : LedgerSt → LedgerSt) : (State.modLdg s f).still = s.still := by
  unfold State.modLdg
  simp

@[simp] theorem State.modSp_still (s : State) (p : Nat) (f : StreamSt → StreamSt) : (State.modSp s p f).still = s.still := by
  unfold State.modSp
  simp

@[simp] theorem State.modPol_still (s : State) (v p : Nat) (f : Policer → Policer) :
    (State.modPol s v p f).still = s.still := by
  unfold State.modPol
  simp

@[simp] theorem State.modHmp_still (s : State) (k : Nat) (f : HmpSt → HmpSt) : (State.modHmp s k f).still = s.still := by
  unfold State.modHmp
  simp

@[simp] theorem portFault_still (bits : Nat) (s : State) : (portFault bits s).still = s.still := by
  unfold portFault
  simp

@[simp] theorem drawn_still (n : Nat) (s : State) : (drawn n s).still = s.still := by
  unfold drawn
  simp

@[simp] theorem ledgerLog_still (e : LogEnt) (s : State) : (ledgerLog e s).still = s.still := by
  unfold ledgerLog
  simp

@[simp] theorem logEvent_still (cls code arg : Nat) (s : State) : (logEvent cls code arg s).still = s.still := by
  unfold logEvent
  simp

@[simp] theorem drainEvents_still (s : State) : (drainEvents s).still = s.still := by
  unfold drainEvents
  simp

@[simp] theorem raiseIbi_still (s : State) : (raiseIbi s).still = s.still := by
  unfold raiseIbi
  simp

@[simp] theorem pushAcc_still (a : Access) (s : State) : (pushAcc a s).still = s.still := by
  unfold pushAcc
  simp

@[simp] theorem faultMsg_still (s : State) : (faultMsg s).still = s.still := by
  unfold faultMsg
  simp

@[simp] theorem modFab_rounds_still (s : State) : (s.modFab fun b => { b with rounds := 0 }).still = s.still := rfl

@[simp] theorem enterMode_still (m : Mode) (s : State) : (enterMode m s).still = s.still := by
  unfold enterMode
  dsimp only
  split
  · rw [raiseIbi_still, faultMsg_still, logEvent_still, State.modPort_still, modFab_rounds_still, State.modModes_still]
  · rw [logEvent_still, State.modPort_still, modFab_rounds_still, State.modModes_still]

@[simp] theorem settleMode_still (s : State) : (settleMode s).still = s.still := by
  unfold settleMode
  simp

@[simp] theorem reportFault_still (code reg unit inst : Nat) (s : State) :
    (reportFault code reg unit inst s).still = s.still := by
  unfold reportFault
  simp

@[simp] theorem dropDpWrites_still (s : State) : (dropDpWrites s).still = s.still := by
  unfold dropDpWrites
  simp

@[simp] theorem blockFault_still (b : Nat) (s : State) : (blockFault b s).still = s.still := by
  unfold blockFault
  simp

@[simp] theorem startReadParts_still (i base : Nat) (parts : List (Nat × Nat × Nat)) (phys : Bool) (own : RdOwn)
    (s : State) : (startReadParts i base parts phys own s).still = s.still := by
  unfold startReadParts
  simp

@[simp] theorem startRead_still (i addr len : Nat) (phys : Bool) (own : RdOwn) (s : State) :
    (startRead i addr len phys own s).still = s.still := by
  unfold startRead
  simp

@[simp] theorem startWrite_still (i addr : Nat) (data : List Byte) (phys : Bool) (own : Owner) (dp : Bool) (s : State) :
    (startWrite i addr data phys own dp s).still = s.still := by
  unfold startWrite
  simp

@[simp] theorem dropBuf_still (id : Nat) (s : State) : (dropBuf id s).still = s.still := by
  unfold dropBuf
  simp

@[simp] theorem hmpCount_still (k j n : Nat) (s : State) : (hmpCount k j n s).still = s.still := by
  unfold hmpCount
  simp

@[simp] theorem issueReq_still (k : Nat) (a : Access) (pa : Nat) (viaTlb : Bool) (s : State) :
    (issueReq k a pa viaTlb s).still = s.still := by
  unfold issueReq
  simp

@[simp] theorem issueWalk_still (k inst table level iova : Nat) (s : State) :
    (issueWalk k inst table level iova s).still = s.still := by
  unfold issueWalk
  simp

@[simp] theorem logDirty_still (i addr : Nat) (s : State) : (logDirty i addr s).still = s.still := by
  unfold logDirty
  simp

@[simp] theorem tlbAdd_still (e : TlbEnt) (s : State) : (tlbAdd e s).still = s.still := by
  unfold tlbAdd
  simp

@[simp] theorem tlbTouch_still (inst asgen addr : Nat) (s : State) : (tlbTouch inst asgen addr s).still = s.still := by
  unfold tlbTouch
  simp

theorem tryIssue_still (a : Access) (s : State) : (tryIssue a s).st.still = s.still := by
  unfold tryIssue
  simp only
  split
  · rfl
  · split
    · simp [Tried.st]
    · split
      · rfl
      · split
        · rfl
        · simp [Tried.st]
        · (repeat' split) <;> simp [Tried.st]

@[simp] theorem pumpGo_still (fuel : Nat) (kept : List Access) (fails : List AccFail) (s : State) :
    (pumpGo fuel kept fails s).1.still = s.still := by
  induction fuel generalizing kept fails s with
  | zero => simp [pumpGo]
  | succ f ih =>
    unfold pumpGo
    split
    · simp
    · rename_i a rest _
      have ht := tryIssue_still a (s.modMem fun m => { m with waiting := rest })
      simp only
      split
      · simp [ih]
      · split <;> rename_i h <;> rw [h] at ht <;> simpa [ih, Tried.st] using ht

@[simp] theorem pump_still (s : State) : (pump s).1.still = s.still := by
  unfold pump
  simp

@[simp] theorem setWalking_still (i : Nat) (f : Access → Option Access) (s : State) :
    (setWalking i f s).still = s.still := by
  unfold setWalking
  simp

@[simp] theorem walkStep_still (i : Nat) (line : List Byte) (s : State) : (walkStep i line s).1.still = s.still := by
  unfold walkStep
  (repeat' (first | split | dsimp only)) <;> simp

@[simp] theorem walkFail_still (i cause : Nat) (s : State) : (walkFail i cause s).1.still = s.still := by
  unfold walkFail
  split <;> simp

@[simp] theorem scanAdvance_still (n k : Nat) (s : State) : (scanAdvance n k s).still = s.still := by
  unfold scanAdvance
  simp

@[simp] theorem readHeader_still (n : Nat) (s : State) : (readHeader n s).still = s.still := by
  unfold readHeader
  simp

@[simp] theorem scanOn_still (n : Nat) (s : State) : (scanOn n s).still = s.still := by
  unfold scanOn
  simp

@[simp] theorem putEntry_still (n : Nat) (e : Entry) (s : State) : (putEntry n e s).still = s.still := by
  unfold putEntry
  simp

@[simp] theorem closeChain_still (n : Nat) (v : Option Res) (s : State) : (closeChain n v s).still = s.still := by
  unfold closeChain
  simp

@[simp] theorem scanEnd_still (n : Nat) (s : State) : (scanEnd n s).still = s.still := by
  unfold scanEnd
  simp

@[simp] theorem scanTaken_still (n : Nat) (s : State) : (scanTaken n s).still = s.still := by
  unfold scanTaken
  simp

@[simp] theorem takeEntry_still (n : Nat) (e : Entry) (s : State) : (takeEntry n e s).still = s.still := by
  unfold takeEntry
  simp

@[simp] theorem takeChained_still (n slot h : Nat) (body : List Byte) (bad : Bool) (s : State) :
    (takeChained n slot h body bad s).still = s.still := by
  unfold takeChained
  simp

@[simp] theorem takeBad_still (n slot h : Nat) (v : Res) (k : Nat) (s : State) :
    (takeBad n slot h v k s).still = s.still := by
  unfold takeBad
  simp

@[simp] theorem examineHeader_still (n : Nat) (line : List Byte) (bad : Bool) (s : State) :
    (examineHeader n line bad s).still = s.still := by
  unfold examineHeader
  dsimp only
  split
  · simp
  · split
    · simp
    · (repeat' split) <;> simp

@[simp] theorem headerFailed_still (n : Nat) (s : State) : (headerFailed n s).still = s.still := by
  unfold headerFailed
  simp

@[simp] theorem bodyArrived_still (n : Nat) (more : List Byte) (good : Bool) (s : State) :
    (bodyArrived n more good s).still = s.still := by
  unfold bodyArrived
  split <;> simp

@[simp] theorem abandonScan_still (n : Nat) (s : State) : (abandonScan n s).still = s.still := by
  unfold abandonScan
  simp

@[simp] theorem capHead_still (n q : Nat) (s : State) : (capHead n q s).still = s.still := by
  unfold capHead
  dsimp only
  split
  · rfl
  · simp only [State.modNr_still, State.modMem_still, State.modRing_still]

@[simp] theorem ringFault_still (n : Nat) (s : State) : (ringFault n s).still = s.still := by
  unfold ringFault
  simp

@[simp] theorem unwriteRecs_still (k : Nat) (s : State) : (unwriteRecs k s).still = s.still := by
  unfold unwriteRecs
  simp

@[simp] theorem nrFault_still (k : Nat) (s : State) : (nrFault k s).still = s.still := by
  unfold nrFault
  simp

@[simp] theorem ringReadDone_still (n : Nat) (hdr : Bool) (b : RdBuf) (s : State) :
    (ringReadDone n hdr b s).still = s.still := by
  unfold ringReadDone
  (repeat' split) <;> simp

@[simp] theorem writeDoneHead_still (n : Nat) (s : State) : (writeDoneHead n s).still = s.still := by
  unfold writeDoneHead
  simp

@[simp] theorem sendVector_still (i v : Nat) (dp : Bool) (s : State) : (sendVector i v dp s).still = s.still := by
  unfold sendVector
  simp

@[simp] theorem nrRead_still (k : Nat) (s : State) : (nrRead k s).still = s.still := by
  unfold nrRead
  simp

@[simp] theorem nrKick_still (k : Nat) (s : State) : (nrKick k s).still = s.still := by
  unfold nrKick
  simp

@[simp] theorem noteRing_still (n : Nat) (urgent : Bool) (s : State) : (noteRing n urgent s).still = s.still := by
  unfold noteRing
  simp

@[simp] theorem nrWrite_still (k : Nat) (b : List Byte) (dp : Bool) (s : State) : (nrWrite k b dp s).still = s.still := by
  unfold nrWrite
  simp

@[simp] theorem nrSend_still (k v : Nat) (dp : Bool) (s : State) : (nrSend k v dp s).still = s.still := by
  unfold nrSend
  simp

@[simp] theorem nrInterrupt_still (k : Nat) (urgent dp : Bool) (s : State) :
    (nrInterrupt k urgent dp s).still = s.still := by
  unfold nrInterrupt
  simp

@[simp] theorem nrOverflow_still (k : Nat) (dp : Bool) (s : State) : (nrOverflow k dp s).still = s.still := by
  unfold nrOverflow
  simp

@[simp] theorem nrServe_still (n k : Nat) (b : List Byte) (s : State) : (nrServe n k b s).still = s.still := by
  induction n generalizing s with
  | zero => simp [nrServe]
  | succ n ih =>
    unfold nrServe
    (repeat' (first | split | dsimp only)) <;> simp [ih]

@[simp] theorem nrDeliver_still (k : Nat) (b : List Byte) (s : State) : (nrDeliver k b s).still = s.still := by
  unfold nrDeliver
  simp

@[simp] theorem applyEnable_still (n : Nat) (s : State) : (applyEnable n s).still = s.still := by
  unfold applyEnable
  simp

@[simp] theorem startScan_still (n : Nat) (s : State) : (startScan n s).still = s.still := by
  unfold startScan
  simp

@[simp] theorem stopJobs_still (n : Nat) (r : Res) (s : State) : (stopJobs n r s).still = s.still := by
  unfold stopJobs
  simp

@[simp] theorem drainRing_still (n status : Nat) (s : State) : (drainRing n status s).still = s.still := by
  unfold drainRing
  simp

@[simp] theorem stopRing_still (n : Nat) (s : State) : (stopRing n s).still = s.still := by
  unfold stopRing
  split <;> simp

@[simp] theorem enableRing_still (n : Nat) (s : State) : (enableRing n s).still = s.still := by
  unfold enableRing
  (repeat' split) <;> simp

@[simp] theorem endNote_still (n : Nat) (s : State) : (endNote n s).still = s.still := by
  unfold endNote
  simp

@[simp] theorem ringStopped_still (n : Nat) (s : State) : (ringStopped n s).still = s.still := by
  unfold ringStopped
  simp

@[simp] theorem reformatRings_still (s : State) : (reformatRings s).still = s.still := by
  unfold reformatRings
  simp

@[simp] theorem uncacheFrom_still (n : Nat) (p : Nat → Bool) (s : State) : (uncacheFrom n p s).still = s.still := by
  unfold uncacheFrom
  split
  · rfl
  · rw [State.modRing_still]

@[simp] theorem rescan_still (n : Nat) (s : State) : (rescan n s).still = s.still := by
  unfold rescan
  simp

@[simp] theorem retireWrites_still (n : Nat) (it : RobItem) (r : Res) (s : State) :
    (retireWrites n it r s).still = s.still := by
  unfold retireWrites
  simp

@[simp] theorem retireOne_still (n : Nat) (it : RobItem) (r : Res) (s : State) : (retireOne n it r s).still = s.still := by
  unfold retireOne
  simp

@[simp] theorem retireRun_still (fuel n : Nat) (s : State) : (retireRun fuel n s).1.still = s.still := by
  induction fuel generalizing s with
  | zero => rfl
  | succ f ih =>
    unfold retireRun
    (repeat' split) <;> simp [ih]

@[simp] theorem retireBurst_still (n : Nat) (s : State) : (retireBurst n s).still = s.still := by
  unfold retireBurst
  simp

@[simp] theorem finishItem_still (n slot : Nat) (r : Res) (replyX : Nat) (iv : List Byte) (s : State) :
    (finishItem n slot r replyX iv s).still = s.still := by
  unfold finishItem
  simp

@[simp] theorem jobRead_still (tag p : Nat) (ext : List (Nat × Nat)) (s : State) :
    (jobRead tag p ext s).still = s.still := by
  unfold jobRead
  split <;> simp

@[simp] theorem jobReadPage_still (tag p addr cnt : Nat) (s : State) : (jobReadPage tag p addr cnt s).still = s.still := by
  unfold jobReadPage
  simp

@[simp] theorem failJob_still (tag : Nat) (r : Res) (s : State) : (failJob tag r s).still = s.still := by
  unfold failJob
  simp

@[simp] theorem endJob_still (tag : Nat) (r : Res) (s : State) : (endJob tag r s).still = s.still := by
  unfold endJob
  simp

@[simp] theorem jobReadSome_still (tag p : Nat) (ext : List (Nat × Nat)) (s : State) :
    (jobReadSome tag p ext s).still = s.still := by
  unfold jobReadSome
  simp

@[simp] theorem jobReadOthers_still (tag : Nat) (s : State) : (jobReadOthers tag s).still = s.still := by
  unfold jobReadOthers
  split <;> simp

@[simp] theorem jobSource_still (tag : Nat) (s : State) : (jobSource tag s).still = s.still := by
  unfold jobSource
  split
  · rfl
  · dsimp only
    split
    · simp
    · split
      · rfl
      · simp
      · split <;> simp

@[simp] theorem jobReadData_still (tag : Nat) (s : State) : (jobReadData tag s).still = s.still := by
  unfold jobReadData
  split <;> simp

@[simp] theorem jobStart_still (tag : Nat) (s : State) : (jobStart tag s).still = s.still := by
  unfold jobStart
  split <;> simp

@[simp] theorem jobPage_still (tag p : Nat) (l : List Byte) (s : State) : (jobPage tag p l s).still = s.still := by
  unfold jobPage
  split <;> simp

@[simp] theorem writeExt_still (i : Nat) (own : Owner) (ext : List (Nat × Nat)) (data : List Byte) (s : State) :
    (writeExt i own ext data s).still = s.still := by
  induction ext generalizing data s with
  | nil => rfl
  | cons x r ih => unfold writeExt; simp [ih]

@[simp] theorem jobWrite_still (tag off len : Nat) (s : State) : (jobWrite tag off len s).still = s.still := by
  unfold jobWrite
  split
  · rfl
  · dsimp only
    rw [writeExt_still]
    simp

@[simp] theorem outFail_still (tag : Nat) (r : Res) (s : State) : (outFail tag r s).still = s.still := by
  unfold outFail
  simp

@[simp] theorem jobFlush_still (fuel tag : Nat) (s : State) : (jobFlush fuel tag s).still = s.still := by
  induction fuel generalizing s with
  | zero => rfl
  | succ f ih =>
    unfold jobFlush
    split
    · rename_i h _
      cases h
      (repeat' (first | split | dsimp only)) <;> simp [ih]
    · rfl

@[simp] theorem jobPump_still (tag : Nat) (s : State) : (jobPump tag s).still = s.still := by
  unfold jobPump
  split <;> simp

@[simp] theorem jobEmit_still (tag off len : Nat) (s : State) : (jobEmit tag off len s).still = s.still := by
  unfold jobEmit
  split <;> simp

@[simp] theorem jobDstPage_still (tag : Nat) (l : List Byte) (s : State) : (jobDstPage tag l s).still = s.still := by
  unfold jobDstPage
  simp

@[simp] theorem jobReadDone_still (tag p : Nat) (b : RdBuf) (s : State) : (jobReadDone tag p b s).still = s.still := by
  unfold jobReadDone
  (repeat' split) <;> simp

@[simp] theorem jobPost_still (tag : Nat) (s : State) : (jobPost tag s).still = s.still := by
  unfold jobPost
  split <;> simp

@[simp] theorem scrubExt_still (i : Nat) (ext : List (Nat × Nat)) (s : State) : (scrubExt i ext s).still = s.still := by
  unfold scrubExt
  simp

@[simp] theorem dropReads_still (j : Job) (s : State) : (dropReads j s).still = s.still := by
  unfold dropReads
  simp

@[simp] theorem computeJob_still (tag : Nat) (out : List Byte) (post : List (Nat × List Byte)) (r : Res) (s : State) :
    (computeJob tag out post r s).still = s.still := by
  unfold computeJob
  simp

@[simp] theorem dropEgress_still (tag : Nat) (s : State) : (dropEgress tag s).still = s.still := by
  unfold dropEgress
  simp

@[simp] theorem dropIngress_still (port id : Nat) (s : State) : (dropIngress port id s).still = s.still := by
  unfold dropIngress
  simp

@[simp] theorem abortJob_still (d : Nat) (j : Job) (s : State) : (abortJob d j s).still = s.still := by
  unfold abortJob
  split <;> simp

@[simp] theorem abortKeyOps_still (d : Nat) (s : State) : (abortKeyOps d s).still = s.still := by
  unfold abortKeyOps
  simp

@[simp] theorem stopDataRings_still (s : State) : (stopDataRings s).still = s.still := by
  unfold stopDataRings
  simp

@[simp] theorem restoreCounters_still (s : State) : (restoreCounters s).still = s.still := by
  unfold restoreCounters
  split <;> simp

@[simp] theorem fltKick_still (i : Nat) (s : State) : (fltKick i s).still = s.still := by
  unfold fltKick
  simp

@[simp] theorem fltDrop_still (i : Nat) (s : State) : (fltDrop i s).still = s.still := by
  unfold fltDrop
  simp

@[simp] theorem faultRecord_still (f : AccFail) (s : State) : (faultRecord f s).still = s.still := by
  unfold faultRecord
  split <;> simp

@[simp] theorem failWrite_still (tag : Nat) (r : Res) (s : State) : (failWrite tag r s).still = s.still := by
  unfold failWrite
  simp

@[simp] theorem vaultFault_still (b h code : Nat) (s : State) : (vaultFault b h code s).still = s.still := by
  unfold vaultFault
  simp

@[simp] theorem readDone_still (b : RdBuf) (s : State) : (readDone b s).still = s.still := by
  unfold readDone
  split <;> simp

@[simp] theorem lineDone_still (id off : Nat) (bytes : List Byte) (fail : Option RdRes) (s : State) :
    (lineDone id off bytes fail s).still = s.still := by
  unfold lineDone
  split
  · rfl
  · dsimp only
    split <;> simp

@[simp] theorem failAccess_still (f : AccFail) (s0 : State) : (failAccess f s0).still = s0.still := by
  unfold failAccess
  split <;> simp

@[simp] theorem settleGo_still (fuel : Nat) (s : State) : (settleGo fuel s).still = s.still := by
  induction fuel generalizing s with
  | zero => rfl
  | succ f ih =>
    unfold settleGo
    simp only
    split
    · split <;> simp [ih]
    · simp [ih]

@[simp] theorem settle_still (s : State) : (settle s).still = s.still := by
  unfold settle
  simp

@[simp] theorem hmpFail_still (k : Nat) (s : State) : (hmpFail k s).still = s.still := by
  unfold hmpFail
  simp

@[simp] theorem walkAnswer_still (i : Nat) (data : List Byte) (cause : Option Nat) (s : State) :
    (walkAnswer i data cause s).still = s.still := by
  unfold walkAnswer
  split <;> simp

@[simp] theorem reqFailed_still (r : Req) (cause : Nat) (s : State) : (reqFailed r cause s).still = s.still := by
  unfold reqFailed
  split <;> simp

@[simp] theorem markBad_still (id : Nat) (s : State) : (markBad id s).still = s.still := by
  unfold markBad
  simp

@[simp] theorem reqData_still (r : Req) (data : List Byte) (s : State) : (reqData r data s).still = s.still := by
  unfold reqData
  split <;> simp

@[simp] theorem spCount_still (p scope id ix n : Nat) (s : State) : (spCount p scope id ix n s).still = s.still := by
  unfold spCount
  simp

@[simp] theorem classCount_still (p id cls : Nat) (s : State) : (classCount p id cls s).still = s.still := by
  unfold classCount
  simp

@[simp] theorem relatch_still (p : Nat) (s : State) : (relatch p s).still = s.still := by
  unfold relatch
  simp

@[simp] theorem putEgress_still (p : Nat) (f : EgFrame) (s : State) : (putEgress p f s).still = s.still := by
  unfold putEgress
  simp

@[simp] theorem frameOutcome_still (p cls i h colour : Nat) (r : Res) (s : State) :
    (frameOutcome p cls i h colour r s).still = s.still := by
  unfold frameOutcome
  simp

@[simp] theorem failFrame_still (p id : Nat) (r : Res) (s : State) : (failFrame p id r s).still = s.still := by
  unfold failFrame
  split <;> simp

@[simp] theorem discardEgress_still (p : Nat) (s : State) : (discardEgress p s).still = s.still := by
  unfold discardEgress
  simp

@[simp] theorem vaultRead_still (h : Nat) (rec : Bool) (s : State) : (vaultRead h rec s).1.still = s.still := by
  unfold vaultRead
  dsimp only
  rw [still_foldl _ (fun t l => by simp)]
  split <;> simp

@[simp] theorem dropBufs_still (ids : List Nat) (s : State) : (dropBufs ids s).still = s.still := by
  unfold dropBufs
  simp

@[simp] theorem restartFetch_still (t : State) (f : Fetch) : (restartFetch t f).still = t.still := by
  unfold restartFetch
  simp

@[simp] theorem restartEvict_still (t : State) (f : Evict) : (restartEvict t f).still = t.still := by
  unfold restartEvict
  simp

@[simp] theorem restartSweep_still (t : State) (h : Nat) (rids : List Nat) : (restartSweep t h rids).still = t.still := by
  unfold restartSweep
  simp

@[simp] theorem restartReads_still (h : Nat) (s : State) : (restartReads h s).still = s.still := by
  unfold restartReads
  dsimp only
  (repeat' split) <;> simp

@[simp] theorem vaultWrite_still (h addr : Nat) (b : List Byte) (s : State) : (vaultWrite h addr b s).still = s.still := by
  unfold vaultWrite
  simp

@[simp] theorem initPump_still (s : State) : (initPump s).still = s.still := by
  unfold initPump
  simp

@[simp] theorem portEvent_still (code : Nat) (s : State) : (portEvent code s).still = s.still := by
  unfold portEvent
  simp

@[simp] theorem calCheckpoint_still (s : State) : (calCheckpoint s).still = s.still := by
  unfold calCheckpoint
  simp

@[simp] theorem checkpoint_still (s : State) : (checkpoint s).still = s.still := by
  unfold checkpoint
  simp

@[simp] theorem scanEnabled_still (s : State) : (scanEnabled s).still = s.still := by
  unfold scanEnabled
  simp

@[simp] theorem scanBells_still (s : State) : (scanBells s).still = s.still := by
  unfold scanBells
  simp

@[simp] theorem stopAllJobs_still (s : State) : (stopAllJobs s).still = s.still := by
  unfold stopAllJobs
  simp

@[simp] theorem enterEclipse_still (cause : Nat) (s : State) : (enterEclipse cause s).still = s.still := by
  unfold enterEclipse
  simp

@[simp] theorem uncacheData_still (s : State) : (uncacheData s).still = s.still := by
  unfold uncacheData
  simp

@[simp] theorem leaveEclipse_still (m : Mode) (s : State) : (leaveEclipse m s).still = s.still := by
  unfold leaveEclipse
  simp

@[simp] theorem clampOutputs_still (s : State) : (clampOutputs s).still = s.still := by
  unfold clampOutputs
  simp

@[simp] theorem modTime_edges_still (s : State) : (s.modTime fun t => { t with goodEdges := 0 }).still = s.still := rfl

@[simp] theorem attachStart_still (s : State) : (attachStart s).still = s.still := by
  unfold attachStart
  rw [modTime_edges_still, State.modPort_still]

@[simp] theorem detachEnd_still (s : State) : (detachEnd s).still = s.still := by
  unfold detachEnd
  simp

@[simp] theorem detachStep_still (s : State) : (detachStep s).still = s.still := by
  unfold detachStep
  split <;> simp

@[simp] theorem conclude_still (s : State) : (conclude s).still = s.still := by
  unfold conclude
  simp

@[simp] theorem detachStart_still (s : State) : (detachStart s).still = s.still := by
  unfold detachStart
  simp

@[simp] theorem rapOpen_still (f : State → State) (s : State) (hf : ∀ x0, (f x0).still = x0.still) :
    (rapOpen f s).still = s.still := by
  unfold rapOpen
  simp [hf]

@[simp] theorem rapAnswer_still (addr : Nat) (err : Bool) (v : Nat) (s : State) :
    (rapAnswer addr err v s).still = s.still := by
  unfold rapAnswer
  simp

@[simp] theorem mapInst_still (s : State) (i : Nat) (b : Bool) : (mapInst s i b).still = s.still := by
  unfold mapInst
  simp

@[simp] theorem hmpMapSet_still (reg v : Nat) (s : State) : (hmpMapSet reg v s).still = s.still := by
  unfold hmpMapSet
  simp

end Sys2Proof.Machine
end

