-- ==== Sys2Proof/WellFormed.lean ====
section
/-! DEFINITION. The checks a command's operands meet beyond their types: the lengths of the byte strings that the
ports carry. -/

namespace Sys2Proof

/-- The operand lengths of a command are those of its port: an HMP response carries no data or one, two or four 64-byte beats
with four Integrity Codes each (R41, R43), a lane window measures 36 lanes (R219), a debug response is 193 bytes (R492), and a
refused private write is of a length other than 3 and 7 (R57). -/
def WellFormed : Instr → Bool
  | .hmpResponse _ _ _ data ics => (data.length ∈ [0, 64, 128, 256]) && ics.length == data.length / 16
  | .laneRateWindow rates => rates.length == 36
  | .dbgResponse resp => resp.length == 193
  | .i3cRefusedWrite len => len != 3 && len != 7
  | _ => true

end Sys2Proof
end

