-- ==== Sys2Proof/Tests/Slice0.lean ====
section
/-! SUPPORT. The model's own tests: ill-formed commands are refused by the check, and for every statement with hypotheses a concrete
state and operands that meet them. -/

namespace Sys2Proof.Tests

set_option Elab.async false

open Sys2Proof Sys2Proof.Machine

theorem test_wf_response_data : WellFormed (.hmpResponse 0 0 0 [0] []) = false := by decide
theorem test_wf_lane_window : WellFormed (.laneRateWindow []) = false := by decide
theorem test_wf_debug_response : WellFormed (.dbgResponse [1]) = false := by decide
theorem test_wf_refused_write : WellFormed (.i3cRefusedWrite 3) = false := by decide
theorem test_wf_pointer : WellFormed (.i3cPointerWrite 4) = true := by decide
/-- No row of the table has bits, so no word spells a command. -/
theorem test_decode_none (n w : Nat) : decodeTableWord n w = none := rfl

/-! ### States for the witnesses -/

/-- A block with all six port clocks running and a Time Port value. -/
def clocked (lost : Bool) (edges : Nat) : State :=
  { State.reset with
    port := { State.reset.port with clkOk := 0x3F }
    time := { State.reset.time with lost := lost, goodEdges := edges, lastTod := 5000000000, now := 5000000000 } }

/-- An attached block with instance 5 ENABLED on rings 1024 and 1025, the first of them as given. -/
def ringed (r : Ring) : State :=
  { State.reset with
    modes := { State.reset.modes with mode := .service }
    port := { State.reset.port with att := .attached, clkOk := 0x3F }
    insts := [(5, { st := .enabled, sqFirst := 1024, sqCount := 2, nqFirst := 8, nqCount := 1 })]
    rings := [(1024, r)] }

/-- A block in Service with the given attachment state. -/
def attachedAs (a : AttState) (d : DetachStage) (halted : Bool) : State :=
  { State.reset with
    modes := { State.reset.modes with mode := .service, halted := halted }
    port := { State.reset.port with att := a, detach := d } }

/-- A block with one request of operation `op` outstanding on HMP0. -/
def asking (op : ReqOp) : State :=
  { State.reset with mem := { State.reset.mem with
      hmp0 := { out := [{ tag := 7, op := op, addr := 0x1000, inst := 3, own := .rd 0 0, len := 64 }] } } }

/-- A block with the read of a header of ring 1024 outstanding on HMP0. -/
def headerAsked : State :=
  { asking .read with mem := { (asking .read).mem with bufs := [{ id := 0, own := .ringHdr 1024 }] } }

/-- A block whose HMP0 has failed while its clock runs. -/
def hmpDown : State :=
  { State.reset with
    port := { State.reset.port with clkOk := 0x3F }
    mem := { State.reset.mem with hmp0 := { failed := true } } }

/-- The block of `ringed` with its window on ring 1024. -/
def windowed (r : Ring) : State :=
  { ringed r with insts := [(5, { st := .enabled, sqFirst := 1024, sqCount := 2, nqFirst := 8, nqCount := 1, dhBase := 1, ringSel := 1024 })] }

/-- What the enable bit meets once the rest of RING_CTL is taken. -/
def ctlTaken (r : Ring) (v : Nat) : State :=
  ringConfig 1024 v (((windowed r).answered .rap).modRing 1024 fun r =>
    { r with fault := r.fault && !bit v 5, cfgErr := r.cfgErr && !bit v 6 })

/-- The block of `ringed` with its window on notification ring 8. -/
def notified (r : Ring) (n : Notif) (bufs : List RdBuf) : State :=
  { ringed r with
    insts := [(5, { st := .enabled, sqFirst := 1024, sqCount := 2, nqFirst := 8, nqCount := 1, dhBase := 1, ringSel := 8, selNr := true })]
    notifs := [(8, n)]
    mem := { State.reset.mem with bufs := bufs } }

/-- An entry of two slots, finished. -/
def finished (irq : Bool) (next : Option Res) : List RobItem :=
  [{ ent := { slot := 0, slots := 4, hdr := if irq then 2 ^ 44 else 0, chain := [(0, 5), (2, 6)] }, fin := some {} },
   { ent := { slot := 4 }, fin := next }]

/-- A block whose instance 3 has read the fault area with the given result and last byte. -/
def faultRead (r : RdRes) (last : Byte) : State :=
  { State.reset with
    insts := [(3, { fltEn := true, fltRd := some 2,
                    fltRecs := [{ iova := 0, cause := 1, access := 0, level := 0, source := 0, ring := 0, slot := 0, sec := 0, ns := 0 }] })]
    mem := { State.reset.mem with bufs := [{ id := 2, own := .flt 3, res := r, data := zeros 31 ++ [last] }] } }

/-- A block in Service whose ring 1024 holds the given entry ready for admission. -/
def queued (e : Entry) : State :=
  { State.reset with
    modes := { State.reset.modes with mode := .service }
    port := { State.reset.port with att := .attached, clkOk := 0x3F }
    insts := [(5, { st := .enabled, sqFirst := 1024, sqCount := 2, tagQuota := 4, crLane := 1, crDigest := 1, crAnvil := 1 })]
    rings := [(1024, { st := .enabled, cache := [e] })] }

/-- A saved job of instance 5 with the opcode. -/
def savedJob (o : Nat) : State :=
  { queued {} with jobs := [{ tag := 0, inst := 5, src := .ring 1024 0, opc := o, saved := true, segs := 4, place := .lane 0 0 }] }

/-- The block with a round of every scheduler open in which instance 5 is still to be served, and one Forge and every pipe in use. -/
def granting (s : State) : State :=
  { s with
    fab := { s.fab with
      rounds := 7, turnLane := { todo := [5] }, turnDigest := { todo := [5] }, turnAnvil := { todo := [5] },
      map := [0, 1, 2, 3, 4, 5, 6, 7], forges := [(0, { st := .active })] }
    dig := { s.dig with pipeUp := 0xFF } }

/-- A block in Service with the Vault as given and context 9 of instance 3 in entry 0. -/
def vaulted (v : VaultSt) (reseal : Bool) : State :=
  { State.reset with
    modes := { State.reset.modes with mode := .service }
    ctx := [(0, { handle := 9, owner := 3 })]
    vault := { v with en := true, recBase := 1, treeBase := 1 }
    ory := { State.reset.ory with st := .running }
    ldg := { State.reset.ldg with reseal := reseal } }

/-- A block in Service whose Vault is out of use, with both bases set and a tree key. -/
def vaultOff : State :=
  { State.reset with
    modes := { State.reset.modes with mode := .service }
    vault := { State.reset.vault with recBase := 1, treeBase := 1 }
    cruc := { State.reset.cruc with bankUp := 0x1F, system := [(3, { st := .valid, kind := .system, key := zeros 32 })] } }

/-- An attached block whose stream port 0 holds the given egress frames. -/
def sending (eg : List EgFrame) : State :=
  { queued {} with str := { State.reset.str with p0 := { State.reset.str.p0 with eg := eg } } }

/-- A block in Service whose stream port 0 has the given gate. -/
def gated (g : Gate) : State :=
  { queued {} with str := { State.reset.str with p0 := { State.reset.str.p0 with gate := g } } }

/-- A block in Service whose only operation is the given one. -/
def working1 (j : Job) : State := { queued {} with jobs := [j] }

/-- A frame of 64 zero bytes of class 1 for instance 5. -/
def plainFrame : FrameIn :=
  { len := 64, cls := 1, colour := 0, inst := 5, hint := 0, hintV := false, byp := false, sofInside := false, late := false, data := zeros 64, ics := [] }

/-- A block whose stream port 0 holds frame 4 of instance 5 in lookup 2, whose bucket read ended as given. -/
def looking (again : Bool) (reads : Nat) (r : RdRes) (data : List Byte) : State :=
  { State.reset with
    str := { State.reset.str with p0 := { State.reset.str.p0 with
      ing := [{ id := 4, f := plainFrame, colour := 0, prio := 0, st := .lookup 2 }] } }
    sit := { State.reset.sit with lookups := [{ id := 2, port := 0, frame := 4, typ := 0, an := 0, key := 0, bucket := 0, rid := 9, again := again, reads := reads }] }
    mem := { State.reset.mem with bufs := [{ id := 9, own := .sit 2, res := r, data := data }] } }

/-- A block whose instance 3 has the given index table and the read of its event ring ended as given. -/
def tabled (t : Sit) (data : List Byte) : State :=
  { attachedAs .attached .idle false with
    insts := [(3, { sit := t })]
    mem := { State.reset.mem with bufs := [{ id := 9, own := .sitEvt 3, res := .ok, data := data }] } }

/-- A block in Service with the given Forges, logical ones on the physical ones of the same number, and Bellows. -/
def forged (fs : List (Nat × Forge)) (b : Bellows) : State :=
  { queued {} with fab := { State.reset.fab with map := [0, 1, 2, 3, 4, 5, 6, 7], forges := fs, bellows := b } }

/-- The block of `forged` with the second Forge in the given state and a spare. -/
def retiringOne (f : Forge) (spare : Forge) : State := forged [(1, f), (8, spare)] {}

/-- A block in Service whose tamper source 0 has the given chain and record. -/
def sensing (x : Src) (r : TRec) : State :=
  { queued {} with tam := { State.reset.tam with src := [(0, x)], recs := [(0, r)], fusedTable := false, frozen := true } }

/-- A block in Service in the given clear, with the DRBG in the given state. -/
def clearing (z : ZRun) (d : DrbgState) : State :=
  { queued {} with cruc := { State.reset.cruc with zRun := z }, anv := { State.reset.anv with drbg := d } }

/-- A block in Service with the given banks, its DRBG running. -/
def banked (up : BitVec 5) (done : Bool) : State :=
  { queued {} with
    anv := { State.reset.anv with drbg := .running }
    cruc := { State.reset.cruc with bankUp := up, passDone := done, stalled := false } }

/-- A block in Service with the given entropy sources and DRBG. -/
def seeded (a : AnvilSt) : State := { queued {} with anv := a }

/-- A block in Service whose Orrery is as given, with ring 1024 as its control ring. -/
def orried (o : OrrerySt) (slot : KeySlot) (cache : List Entry) : State :=
  { queued {} with
    insts := [(128, { st := .enabled, sqFirst := 1024, sqCount := 1 })]
    rings := [(1024, { st := .enabled, cache := cache })]
    ory := { o with ctrlRing := 1024 }
    cruc := { State.reset.cruc with parents := [(7, slot)] } }

/-- A block in the given mode. -/
def inMode (m : ModeSt) (g : GlbSt) (l : Lifecycle) : State :=
  { queued {} with modes := m, glb := g, life := l, cruc := { State.reset.cruc with root := .silver } }

/-- The operation of `working1` with its data there. -/
def ready (o : Nat) (p : Place) : Job := { tag := 0, inst := 5, src := .ring 1024 0, opc := o, place := p }

/-- A block in Service whose engines of every kind run. -/
def engines (j : Job) : State :=
  { working1 j with
    fab := { State.reset.fab with map := [0, 1, 2, 3, 4, 5, 6, 7], forges := [(0, { st := .active })] }
    dig := { State.reset.dig with pipeUp := 0xFF }
    anv := { State.reset.anv with up := 0xF, drbg := .running } }

/-- A key job on context entry 3. -/
def keyJob (o : Nat) (p : Place) (parent : Nat) : Job := { ready o p with ctxEnt := some 3, parent := parent }

/-- A packet at slot 4 of the control ring that has read `n` parts. -/
def packet (opc flags ctx : Nat) (ps : List Nat) (n : Nat) : Packet :=
  { slot := 4, opc := opc, flags := flags, ctx := ctx, ps := ps, reads := (List.range n).map fun k => (k, k) }

/-- A block in Service that serves the packet with the data it has read; instance 5 is as given. -/
def serve (p : Packet) (data : List (List Byte)) (v : Inst) (s : State) : State :=
  { s with
    insts := [(5, v), (128, { st := .enabled, sqFirst := 1024, sqCount := 1 })]
    rings := [(1024, { st := .enabled })]
    ory := { State.reset.ory with st := .running, ctrlRing := 1024, packets := [p] }
    cruc := { s.cruc with root := .silver }
    mem := { s.mem with bufs := data.zipIdx.map fun x => { id := x.2, own := .cmd 4 x.2, res := .ok, data := x.1 } } }

/-- A block in Service with the given contexts and Vault, the instance key of instance 5 and a transport key in slot 7. -/
def keyed (c : List (Nat × Ctx)) (en : Bool) : State :=
  { queued {} with
    ctx := c
    vault := { State.reset.vault with en := en }
    anv := { State.reset.anv with drbg := .running }
    cruc := { State.reset.cruc with parents :=
      [(5, { st := .valid, kind := .inst, owner := 5, depth := 1, bits := 2, key := zeros 32 }),
       (7, { st := .valid, kind := .transport, owner := mi, depth := 1, bits := 2, key := zeros 32 })] } }

/-- The handle of slot 5 and of slot 7. -/
def handleOf (i : Nat) : Nat := 2 ^ 29 + 2 ^ 19 + i

/-- A block that serves the packet, with an attestation secret of verifier 0 and a seed OFFERED in slot 130. -/
def attesting (p : Packet) (data : List (List Byte)) : State :=
  let s := (serve p data { st := .enabled } (keyed [] false)).modInst mi fun v => { v with slotQuota := 4 }
  { s with cruc := { s.cruc with
      system := [(8, { st := .valid, kind := .system, bits := 2, key := zeros 32 })]
      parents := s.cruc.parents ++ [(130, { st := .offered, kind := .transport, owner := mi, depth := 1, bits := 2, key := zeros 32 })] } }

/-- The bytes of a tamper configuration that arms nothing. -/
def tamperBytes : List Byte := (List.range 18).flatMap fun k => natLe 8 (2 ^ 8 + 2 ^ 16 + (if levelSource k then 2 ^ 48 else 0))

/-- The block of `serve` with no packet and the given entry at the head of its control ring. -/
def heading (e : Entry) : State :=
  let s := serve (packet 0 0 0 [] 0) [] {} (queued {})
  { s with ory := { s.ory with packets := [] }, rings := [(1024, { st := .enabled, cache := [e] })], port := { s.port with att := .attached } }

/-! ### Witnesses -/

theorem wit_step_takes_front : { State.reset with pending := [.mainPgFall] }.pending = .mainPgFall :: [] := rfl

theorem wit_step_keeps_queue_order :
    (let s : State := { State.reset with pending := [.rstdaa, .getpid] }
     (match step s with | .next t => some t.pending | _ => none) = some [.getpid]) := by decide +kernel

theorem wit_fuses_one_way :
    (let s : State := { State.reset with life := .deployed, silver := some (zeros 32), pending := [.rstdaa] }
     (match step s with | .next t => some (t.life, t.silver) | _ => none) = some (.deployed, some (zeros 32))) := by decide +kernel

theorem wit_silver_stays_sound :
    (let s : State := { State.reset with pending := [.rstdaa] }
     s.life = .manufacture ∧ s.silver = none ∧ (match step s with | .next _ => true | _ => false) = true) := by decide +kernel

theorem wit_envelopes_open : (zeros 12).length = 12 ∧ byte 2 ≠ byte 1 := by decide

theorem wit_replay_window_moves_up :
    (let c : Ctx := { kind := 0x11, replay := true, nA := 100, tail := zeros 24 }
     isEsp c.kind = true ∧ c.replay = true ∧ c.replayCheck 0 90 = none ∧ c.replayCheck 0 101 = none ∧ c.replayCheck 0 10 ≠ none)
    ∧ (let c : Ctx := { kind := 9, replay := true, nB := 100, w := 4 }
       isEsp c.kind = false ∧ c.replay = true ∧ c.replayCheck 1 3 ≠ none) := by decide

theorem wit_what_follows :
    (State.reset.pending = [] ∧ State.reset.vigil.frac < 32767)
    ∧ (let s : State := { State.reset with vigil := { State.reset.vigil with frac := 32767 } }
       s.pending = [] ∧ s.vigil.frac ≥ 32767) := by decide

theorem wit_tap_instructions : powered State.reset = true ∧ State.reset.life = .manufacture
    ∧ (let s : State := { State.reset with life := .deployed }
       powered s = true ∧ s.life ≠ .manufacture ∧ s.modes.mode ≠ .test) := by decide

theorem wit_debug_authentication :
    powered State.reset = true ∧ State.reset.modes.halted = false ∧ inTest State.reset = false := by decide

theorem wit_common_command_codes : powered State.reset = true ∧ State.reset.port.i3cDyn = none
    ∧ (let s : State := { State.reset with port := { State.reset.port with i3cDyn := some 0x7F } }
       powered s = true ∧ s.port.i3cDyn ≠ none) := by decide

theorem wit_i3c_transfers : powered State.reset = true ∧ State.reset.modes.halted = false
    ∧ (0x70 ≤ (0xAC : BitVec 24).toNat ∧ (0xAC : BitVec 24).toNat < 0xB0 ∧ (0xAC : BitVec 24).toNat % 4 = 0)
    ∧ 0x530 ≤ (0x530 : BitVec 24).toNat ∧ (4 ≠ 3 ∧ 4 ≠ 7)
    ∧ (State.reset.port.i3cPtr.toNat ≤ 0xFFF ∧ State.reset.port.i3cPtr.toNat % 4 = 0)
    ∧ (let s : State := { State.reset with port := { State.reset.port with i3cPtr := 0x1000 } }
       powered s = true ∧ 0xFFF < s.port.i3cPtr.toNat) := by decide

theorem wit_time_port : powered (clocked true 1) = true ∧ (clocked true 1).port.clkOk.toNat.testBit 4 = true
    ∧ ((999999999 : BitVec 32).toNat < 1000000000
        ∧ (clocked true 1).time.lastTod ≤ (5 : BitVec 48).toNat * 1000000000 + (999999999 : BitVec 32).toNat)
    ∧ 1000000000 ≤ (1000000000 : BitVec 32).toNat ∧ (∀ p ∈ State.reset.insts, p.2.fltOwed = none)
    ∧ ((4 : BitVec 48).toNat * 1000000000 + (999999999 : BitVec 32).toNat < (clocked true 1).time.lastTod
        ∧ leapAllowed (clocked true 1) 4999999999 = false)
    ∧ (clocked false 0).time.lost = false
    ∧ ((clocked true 0).time.lost = true ∧ (clocked true 0).time.goodEdges = 0)
    ∧ ((clocked true 1).time.lost = true ∧ 1 ≤ (clocked true 1).time.goodEdges) := by decide

theorem wit_clocks_and_supply :
    (powered (clocked true 0) = true ∧ (clocked true 0).port.clkOk.toNat.testBit 5 = true)
    ∧ (powered State.reset = true ∧ State.reset.port.clkOk.toNat.testBit 0 = false)
    ∧ (let s : State := { State.reset with port := { State.reset.port with srpReq := true } }
       s.port.srpReq = true ∧ s.port.srpAck = false)
    ∧ (let s : State := { State.reset with port := { State.reset.port with srpAck := true } }
       s.port.srpAck = true ∧ s.fab.bellows.faulted = false)
    ∧ (State.reset.takes 0x108 { data := 0x80000, ic := 0 } = true ∧ bit (0x80000 : Word).toNat 19 = true) := by decide

theorem wit_attach_and_detach :
    (let s := attachedAs .detached .idle false
     s.portUp = true ∧ s.modes.mode ≠ .boot ∧ s.port.att = .detached ∧ s.port.detReq = false)
    ∧ (let s := attachedAs .attached .idle false; s.modes.halted = false ∧ s.port.att = .attached)
    ∧ (let s := attachedAs .attaching .idle false; s.portUp = true ∧ s.modes.mode ≠ .boot ∧ s.port.att = .attaching)
    ∧ (attachedAs .attached .idle true).modes.halted = true
    ∧ (attachedAs .detaching .drainEgress false).port.detach ≠ .idle
    ∧ (let s := attachedAs .detaching .idle false
       s.portUp = true ∧ s.modes.mode ≠ .boot ∧ s.port.att = .detaching ∧ s.port.detach = .idle)
    ∧ (let r : AttachReport := { clkOk := 0x3F, loopOk := 0x1F, timeOk := true }
       r.clkOk = 0x3F ∧ r.loopOk = 0x1F ∧ r.timeOk = true)
    ∧ (let r : AttachReport := { clkOk := 0x3F, loopOk := 0x0F, timeOk := true }
       r.clkOk ≠ 0x3F ∨ r.loopOk ≠ 0x1F) := by decide

theorem wit_power_and_start_up : powered State.reset = true
    ∧ powered { State.reset with modes := { State.reset.modes with mode := .vigil } } = false
    ∧ (let s : State := { State.reset with modes := { State.reset.modes with stage := .awaitAttach } }
       s.modes.mode = .boot ∧ s.modes.stage = .awaitAttach ∧ s.modes.halted = false) := by decide

theorem wit_host_memory_ports :
    (∃ r, ((asking .write).hmp 0).out.find? (fun x => x.tag == 7) = some r ∧ r.op ≠ .read)
    ∧ (∃ r, ((asking .read).hmp 0).out.find? (fun x => x.tag == 7) = some r ∧ r.op = .read ∧ (zeros 64).length = 64 * (r.beats + 1)
        ∧ beatGood (asking .read) 0 r (zeros 64) [] = true)
    ∧ (let s : State := { asking .read with port := { State.reset.port with icx := 0x1F } }
       ∃ r, (s.hmp 0).out.find? (fun x => x.tag == 7) = some r ∧ r.op = .read ∧ (zeros 64).length = 64 * (r.beats + 1)
        ∧ beatGood s 0 r (zeros 64) [] = false ∧ bodyOnly s 0 r (zeros 64) [] = none)
    ∧ (let s : State := { headerAsked with port := { State.reset.port with icx := 0x1F } }
       let ics := [integrityCode (zeros 16) 0x1000 3]
       ∃ r, (s.hmp 0).out.find? (fun x => x.tag == 7) = some r ∧ r.op = .read ∧ (zeros 64).length = 64 * (r.beats + 1)
        ∧ beatGood s 0 r (zeros 64) ics = false ∧ bodyOnly s 0 r (zeros 64) ics = some 0)
    ∧ (((asking .read).hmp 0).out ≠ [] ∧ ((asking .read).hmp 0).failed = false)
    ∧ (State.reset.takes 0x110 { data := 0, ic := 0 } = true ∧ State.reset.takes 0x100 { data := 0, ic := 0 } = true)
    ∧ (hmpOf State.reset 0 ≠ b2n true ∧ (State.reset.hmp (b2n true)).failed = false ∧ 0 ∉ State.reset.mem.moving)
    ∧ (let s : State := { State.reset with mem := { State.reset.mem with moving := [128] } }
       128 ∈ s.mem.moving ∧ (s.hmp (1 - hmpOf s 128)).out.any (ofInst 128) = false)
    ∧ (hmpDown.takes 0x14 { data := 0, ic := 0 } = true ∧ (hmpDown.hmp 0).failed = true ∧ hmpDown.port.clkOk.toNat.testBit 0 = true) := by
  refine ⟨⟨_, rfl, ?_⟩, ⟨_, rfl, ?_⟩, ⟨_, rfl, ?_⟩, ⟨_, rfl, ?_⟩, ?_⟩ <;> decide +kernel

theorem wit_doorbells_and_scans :
    (let s := ringed { st := .enabled }
     s.takes 0xA05000 { data := 0, ic := 0 } = true ∧ doorbellRing s 5 0 = some 1024 ∧ (s.ring 1024).st = .enabled ∧ scansOff s 1024 = false
       ∧ scansHeld s 1024 = false ∧ (s.ring 1024).invDone = true)
    ∧ (let s := ringed { st := .stopping }
       s.takes 0xA05000 { data := 0, ic := 0 } = true ∧ doorbellRing s 5 0 = some 1024 ∧ (s.ring 1024).st ≠ .enabled)
    ∧ (let s := ringed { st := .enabled }
       s.takes 0xA05008 { data := 0, ic := 0 } = true ∧ doorbellRing s 5 2 = none)
    ∧ (let s := ringed { st := .enabled, auto := true }
       (s.ring 1024).auto = true ∧ (s.ring 1024).st = .enabled ∧ (s.ring 1024).scanSt = .idle ∧ (s.ring 1024).invDone = true
       ∧ (s.ring 1024).noScan = false ∧ scansOff s 1024 = false ∧ scansHeld s 1024 = false)
    ∧ (let s := ringed { st := .enabled, scanSt := .waiting, cache := [{}, {}, {}, {}, {}, {}, {}] }
       (s.ring 1024).scanSt = .waiting ∧ (s.ring 1024).cache.length < 8 ∧ (s.ring 1024).invDone = true
       ∧ (s.ring 1024).scanSt ≠ .idle) := by decide

theorem wit_submission_ring_registers :
    (let s := windowed { base := 0x10000 }
     s.takes (pageBase 5 + 0x2C) { data := 1, ic := 0 } = true ∧ s.takes (pageBase 5 + 0x20) { data := 1, ic := 0 } = true
       ∧ s.takes (pageBase 5 + 0x30) { data := 1, ic := 0 } = true ∧ winRing s 5 = some 1024 ∧ enableHeld (ctlTaken { base := 0x10000 } 1) 1024 = false ∧ bit (1 : Word).toNat 0 = true
       ∧ (s.ring 1024).st = .disabled ∧ ringCfgBad s 1024 = false)
    ∧ ringCfgBad State.reset 0 = true
    ∧ (let s := windowed { base := 0x10000, st := .stopping }
       winRing s 5 = some 1024 ∧ enableHeld (ctlTaken { base := 0x10000, st := .stopping } 1) 1024 = false ∧ (s.ring 1024).st = .stopping ∧ ringQuiet s 1024 = true)
    ∧ (let s := windowed { base := 0x10000, st := .enabled }
       winRing s 5 = some 1024 ∧ enableHeld (ctlTaken { base := 0x10000, st := .enabled } 0) 1024 = false ∧ bit (0 : Word).toNat 0 = false ∧ (s.ring 1024).st = .enabled
       ∧ (s.ring 1024).invDone = true)
    ∧ (let s := windowed { base := 0x10000, st := .pendingEnable }
       winRing s 5 = some 1024 ∧ enableHeld (ctlTaken { base := 0x10000, st := .pendingEnable } 0) 1024 = false ∧ (s.ring 1024).st = .pendingEnable ∧ ringQuiet s 1024 = true)
    ∧ (let s := windowed { st := .enabled, invDone := false, invCount := 1 }
       (s.ring 1024).invDone = false ∧ (s.ring 1024).scanSt ≠ .reading ∧ (s.ring 1024).invBell = false) := by decide

theorem wit_notification_rings :
    (let s := notified { nrEn := true, nrn := 8 } { size := 1 } []
     (s.ring 1024).nrEn = true ∧ (s.nr (s.ring 1024).nrn).enabled = false)
    ∧ (let s := notified { nrEn := true, nrn := 8, st := .stopping } { enabled := true } []
       (s.nr 8).enabled = true ∧ (1024, s.ring 1024) ∈ s.rings ∧ (s.ring 1024).st = .stopping ∧ (s.ring 1024).nrEn = true
         ∧ (s.ring 1024).nrn = 8 ∧ nrBound s 8 = true)
    ∧ (let s := notified {} { size := 10 } []
       s.takes (pageBase 5 + 0x2C) { data := 1, ic := 0 } = true ∧ winNr s 5 = some 8 ∧ bit (1 : Word).toNat 0 = true
         ∧ (s.nr 8).enabled = false ∧ (s.nr 8).size ≤ 10 ∧ (s.nr 8).ovf = false)
    ∧ (let s := notified {} { size := 11 } []
       winNr s 5 = some 8 ∧ (s.nr 8).enabled = false ∧ 10 < (s.nr 8).size ∧ (s.nr 8).ovf = false)
    ∧ (let s := notified {} { enabled := true } []
       s.takes (pageBase 5 + 0x2C) { data := 0, ic := 0 } = true ∧ winNr s 5 = some 8 ∧ bit (0 : Word).toNat 0 = false
         ∧ (s.nr 8).enabled = true ∧ (s.nr 8).ovf = false ∧ (s.nr 8).rdId = none ∧ nrBound s 8 = false)
    ∧ (let s := notified {} { enabled := true, ovf := true } []
       s.takes (pageBase 5 + 0x2C) { data := 0x81, ic := 0 } = true ∧ winNr s 5 = some 8 ∧ bit (0x81 : Word).toNat 0 = true
         ∧ bit (0x81 : Word).toNat 7 = true ∧ (s.nr 8).enabled = true ∧ (s.nr 8).ovf = true)
    ∧ (∀ r ∈ [RdRes.ok, .xlate 1 0 0, .ic], ∀ again ∈ [false, true],
        let b : RdBuf := { id := 4, own := .notif 8, res := r }
        let s := notified {} { enabled := true, rdId := some 4, retry := again } [b]
        (s.nr 8).rdId = some 4 ∧ s.buf? 4 = some b ∧ b.res = r ∧ (s.nr 8).retry = again)
    ∧ ((notified {} { owed := some (1, true) } []).nr 8).owed = some (1, true)
    ∧ ((notified {} {} []).nr 8).owed = none := by decide

theorem wit_interrupt_vectors :
    (State.reset.inst 0).mask.toNat.testBit 7 = true
    ∧ (let s : State := { State.reset with insts := [(3, { mask := 0x7F, vecs := [(7, (0x1000, 5))] })] }
       (s.inst 3).mask.toNat.testBit 7 = false ∧ (tget (s.inst 3).vecs (0, 0) 7).1 ≠ 0)
    ∧ (let s : State := { State.reset with insts := [(3, { mask := 0xFF, pend := 0x81 })] }
       s.takes (pageBase 3 + 4) { data := 0x7F, ic := 0 } = true ∧ ∀ u : Fin 8, ((s.inst 3).mask.toNat.testBit u.val = true ∧ (s.inst 3).pend.toNat.testBit u.val = true ∧
         bit (0x7F : Word).toNat u.val = false) ↔ u = 7) := by decide

theorem wit_entries_retire :
    (let s := ringed { st := .enabled, rob := finished true (some {}) }
     mayRetire s 1024 = true ∧ (s.ring 1024).rob = finished true (some {}) ∧ isControl s 1024 = false)
    ∧ (let s := ringed { st := .enabled, rob := finished false none }
       mayRetire s 1024 = true ∧ (s.ring 1024).rob = finished false none ∧
       (((s.ring 1024).rob.drop 1).head?.map fun x => x.fin.isSome).getD false = false) := by decide

theorem wit_fault_reports :
    (∀ x ∈ [(RdRes.ok, (0 : Byte)), (.ok, 0x80), (.ic, 0)],
      let s := faultRead x.1 x.2
      (s.inst 3).fltWr = none ∧ (s.inst 3).fltRd = some 2 ∧ (s.buf? 2).isSome = true ∧ (s.inst 3).fltRecs ≠ [] ∧
        ((s.buf? 2).map fun b => b.res) = some x.1 ∧ x.1 ≠ .pending ∧
        ((s.buf? 2).map fun b => bit (leAt b.data 31 1) 7) = some (x.2 == 0x80))
    ∧ (∀ w ∈ [true, false],
        let s : State := { State.reset with insts := [(3, { fltWr := some w })] }
        (s.mem.waiting.any fun a => a.own == .fltWr 3) = false ∧ (s.inst 3).fltWr = some w)
    ∧ ({ State.reset.modes with msgHeld := true } : ModeSt).msgHeld = true := by decide

theorem wit_register_writes :
    (State.reset.portUp = true ∧ rapIcBad State.reset 0x70 { data := 1, ic := 0 } = false
       ∧ State.reset.takes 0xB00000 { data := 1, ic := 0 } = true)
    ∧ (let s : State := { State.reset with port := { State.reset.port with icx := 0x10 } }
       s.portUp = true ∧ rapIcBad s 0x70 { data := 1, ic := 0 } = true)
    ∧ (let s := windowed { }
       winRing s 5 = some 1024 ∧ (s.ring 1024).st = .disabled
         ∧ ({ s.ring 1024 with size := fld 3 0 4, base := setFld (s.ring 1024).base 12 20 (fld 3 12 20) } : Ring) ≠ s.ring 1024)
    ∧ (let s := windowed { st := .enabled }
       winRing s 5 = some 1024 ∧ (s.ring 1024).st ≠ .disabled
         ∧ ({ s.ring 1024 with size := fld 3 0 4, base := setFld (s.ring 1024).base 12 20 (fld 3 12 20) } : Ring) ≠ s.ring 1024)
    ∧ ((0x910000 : BitVec 24).toNat ≤ 0x9FFFFF ∧ 0xB00000 ≤ (0xB00000 : BitVec 24).toNat)
    ∧ (let s : State := { State.reset with modes := { State.reset.modes with halted := true } }
       powered s = true ∧ s.modes.halted = true) := by decide +kernel

theorem wit_dispatcher_work :
    (powered State.reset = true ∧ nextGrant State.reset .lane = none)
    ∧ (let e : Entry := { hdr := 0x33 * 2 ^ 48 }
       (nextGrant (granting (queued e)) .digest).map (fun g => g.2.1) = some (.entry 1024 e))
    ∧ (let e : Entry := { hdr := 0, body := zeros 48 }
       let s := granting (queued e)
       (nextGrant s .lane).map (fun g => g.2.1) = some (.entry 1024 e)
         ∧ slotClosed (passSlot s) = false ∧ e.verdict = none ∧ entryChecks s e = none ∧ freeJobTag s = some 0
         ∧ (ringJob 1024 e 0 5).egress = none)
    ∧ (let e : Entry := { hdr := 0x10 * 2 ^ 48 + 0x800 * 2 ^ 32 }
       e.verdict = none ∧ (entryChecks (queued e) e).isSome = true)
    ∧ (∀ o ∈ [0x10, 0x30], ((nextGrant (granting (savedJob o)) (if o = 0x10 then .lane else .digest)).map fun g => g.2.1)
        = (savedJob o).jobs.head?.map Work.segment)
    ∧ (State.reset.fab.halfA = true ∧ State.reset.fab.halfB = true)
    ∧ (let s : State := { State.reset with fab := { State.reset.fab with halfB := false } }
       powered s = true ∧ s.fab.halfA = true ∧ s.fab.halfB = false) := by decide +kernel

theorem wit_vault_transfers :
    (let s := vaulted { misses := [(7, 3)] } false
     fetchStarts s 7 = true ∧ (s.vault.misses.any fun m => m.1 = 7) = true ∧ fetchAllowed s = true)
    ∧ (let s := vaulted { fetches := [{ h := 7, rids := [] }] } false
       s.vault.fetches.find? (fun f => f.h = 7) = some { h := 7, rids := [] } ∧ powered s = true ∧ readsEnded s [] = true)
    ∧ (let s : State := { vaulted { misses := [(7, 3)] } false with insts := [(3, { st := .enabled, ctxQuota := 4 })] }
       let r : Opened := { hd := natLe 8 (3 * 2 ^ 32), pt := [] }
       askers s 7 = [recOwner r.hd] ∧ s.ctxOf 7 = none ∧ roomFor s (recOwner r.hd) = .here)
    ∧ (let s := vaulted {} false
       s.ctxOf 9 = some 0 ∧ powered s = true ∧ s.vault.en = true ∧ evictDue s 0 = true ∧ (s.vault.evicts.any fun v => v.h = 9) = false)
    ∧ (let s := vaulted { evicts := [{ h := 9 }] } false
       s.vault.evicts.find? (fun v => v.h = 9) = some { h := 9 } ∧ s.ctxOf 9 = some 0 ∧ powered s = true ∧ sealWaits s { h := 9 } 0 = false)
    ∧ (let s := vaulted { resealRids := some (8, []) } true
       sweepRuns s = true ∧ s.vault.resealRids = some (8, []) ∧ readsEnded s [] = true ∧ (s.vault.fetches.any fun f => f.h = 8) = false)
    ∧ (let s := vaulted { sweep := 16777216 } true
       sweepRuns s = true ∧ s.vault.resealRids = none ∧ 2 ^ 24 ≤ s.vault.sweep)
    ∧ (let s := vaulted { sweep := 16777215 } true
       sweepRuns s = true ∧ s.vault.resealRids = none ∧ sweepNext 1048576 s s.vault.sweep < 2 ^ 24 ∧ s.vault.fetches = []) := by
  decide +kernel

theorem wit_vault_control :
    (vaultOff.takes 0x3008 { data := 1, ic := 0 } = true ∧ bit (1 : Word).toNat 0 = true ∧ bit (1 : Word).toNat 2 = false ∧ vaultOff.vault.en = false
      ∧ vaultOff.vault.recBase ≠ 0 ∧ vaultOff.vault.treeBase ≠ 0 ∧ vaultOff.vault.initBusy = false)
    ∧ (let s := vaulted {} false
       s.portUp = true ∧ bit (0 : Word).toNat 0 = false ∧ bit (0 : Word).toNat 2 = false ∧ s.vault.en = true ∧ s.vault.fetches = []
         ∧ s.vault.evicts = [] ∧ s.vault.misses = [])
    ∧ (vaulted { fetches := [{ h := 7, rids := [] }] } false).vault.fetches ≠ []
    ∧ (bit (4 : Word).toNat 0 = false ∧ bit (4 : Word).toNat 2 = true ∧ (treeKey vaultOff).isSome = true)
    ∧ (let s : State := { vaultOff with vault := { vaultOff.vault with initBusy := true, initNext := initTotal } }
       powered s = true ∧ s.vault.initBusy = true ∧ initTotal ≤ s.vault.initNext ∧ initWrites s = false) := by decide +kernel

/-- An operation in segments on lane 0 of Forge 0. -/
def segmented (o done : Nat) (stop : Option Res) : Job :=
  { ready o (if o = 0x30 then .pipe 0 else .lane 0 0) with
    segs := 4, segDone := done, phase := .computed, sc := { alg := .ghash }, stop := stop }

/-- A Comet job whose two stripes have ended as given. -/
def striped (o flags : Nat) (fin : Bool) : Job :=
  { ready o (.lane 0 0) with
    flags := flags, segs := 2, phase := .computed, sc := { alg := .ghash }
    comet := some { lanes := 2, forges := [0], holder := 0,
                    stripes := [{ place := .lane 0 0, fin := fin }, { place := .lane 0 1, fin := fin }] } }

theorem wit_jobs_progress :
    (∀ o ∈ [0x10, 0x30], ∀ d ∈ [0, 3], ∀ st ∈ [none, some (res 0x24 0)],
      let j := segmented o d st
      let s := engines j
      s.job? 0 = some j ∧ atBoundary s 0 j = true ∧ voided s 5 = false ∧ j.stop = st ∧ j.waitsWrites 0 = false ∧ j.comet = none
        ∧ isDigestOp j.opc = (o == 0x30) ∧ decide (j.segDone + 1 < j.segs) = (d == 0))
    ∧ (segmented 0x10 0 none).boundaryForge 0 = some 0
    ∧ (let j := segmented 0x10 0 none
       let s := (engines j).modInst 5 fun v => { v with st := .resetting }
       s.job? 0 = some j ∧ atBoundary s 0 j = true ∧ voided s j.inst = true)
    ∧ (let j := { segmented 0x10 1 none with handed := true }
       let s := engines j
       s.job? 0 = some j ∧ atBoundary s 0 j = true ∧ voided s j.inst = false ∧ j.waitsWrites 0 = true ∧ unaccepted s j = false
         ∧ j.comet = none ∧ isDigestOp j.opc = false)
    ∧ (let j := striped 0x10 0 false
       let s := engines j
       s.job? 0 = some j ∧ atBoundary s 0 j = true ∧ voided s j.inst = false ∧ j.waitsWrites 0 = false ∧ j.comet.isSome = true)
    ∧ (let j := segmented 0x10 1 none
       let s := { engines j with mem := { State.reset.mem with waiting := [{ inst := 5, op := .write, addr := 0, own := .jobWr 0 }] } }
       s.job? 0 = some j ∧ unaccepted s j = true)
    ∧ (let j : Job := { ready 0x10 (.lane 0 0) with phase := .computed, segDone := 1, res := some (res 4 1) }
       (working1 j).job? 0 = some j ∧ completes (working1 j) j = true ∧ j.egress = none ∧ j.ctxEnt = none
         ∧ scrubs j.opc (res 4 1) = false)
    ∧ (∀ o ∈ [0x10, 0x11], ∀ f ∈ [0, 2],
       let j := striped o f true
       let s := engines j
       s.job? 0 = some j ∧ stripesReady s j = true ∧ decrypts j.opc = (o == 0x11))
    ∧ (fTagSep 0 = false ∧ fTagSep 2 = true)
    ∧ (let j : Job := { tag := 0, inst := 5, src := .stream 0 0, opc := 0x20, phase := .finished, egress := some (0, 1, 4), res := some {} }
       (working1 j).job? 0 = some j ∧ working (working1 j) = true) := by decide +kernel

theorem wit_sa_index_table :
    (let s := looking false 0 .ok (zeros 64)
     (s.sit.lookups.find? (fun l => decide (l.id = 2) && !l.again)).isSome = true ∧ (s.buf? 9).isSome = true
       ∧ frameInst s 0 4 = some 5 ∧ bit (leAt (zeros 64) 0 4) 28 = false)
    ∧ (let s := looking false 5 .ok (natLe 64 (2 ^ 28))
       (s.sit.lookups.find? (fun l => decide (l.id = 2) && !l.again)).isSome = true ∧ (s.buf? 9).isSome = true
         ∧ frameInst s 0 4 = some 5 ∧ bit (leAt (natLe 64 (2 ^ 28)) 0 4) 28 = true)
    ∧ ((looking false 4 (.xlate 1 0 0) []).buf? 9).isSome = true
    ∧ (let s := looking true 1 .ok []
       (s.sit.lookups.find? (fun l => decide (l.id = 2) && l.again)).isSome = true ∧ frameInst s 0 4 = some 5)
    ∧ (let l : Lookup := { id := 0, port := 0, frame := 0, typ := 0, an := 0, key := 0x12345, bucket := 0 }
       let e := natLe 4 (2 ^ 24 + 7) ++ natLe 4 0 ++ natLe 4 (0x12345 + 2 ^ 31) ++ zeros 4
       sitMatch l (e ++ zeros 48) = some (0, e) ∧ sitMatch l (zeros 64) = none ∧ badMask (zeros 64) = 0
         ∧ sitMatch l (natLe 64 1) = none ∧ badMask (natLe 64 1) ≠ 0)
    ∧ (let s := tabled { st := .stopping, rdId := some 9, events := [{ bytes := zeros 16 }], holding := true } (zeros 16)
       (s.inst 3).sit.wr = none ∧ (s.inst 3).sit.rdId = some 9 ∧ (s.buf? 9).isSome = true ∧ (s.inst 3).sit.events = [{ bytes := zeros 16 }]
         ∧ bit (leAt (zeros 16) 15 1) 7 = false ∧ bit (leAt (natLe 16 (2 ^ 127)) 15 1) 7 = true ∧ (s.inst 3).sit.holding = true)
    ∧ (let s := tabled { st := .stopping } []
       s.takes (pageBase 3 + 0x4C) { data := 1, ic := 0 } = true ∧ sitBusy s 3 = false ∧ (s.inst 3).sit.st = .stopping)
    ∧ (sitBusy (tabled { st := .pendingEnable } []) 3 = false ∧ ((tabled { st := .pendingEnable } []).inst 3).sit.st = .pendingEnable)
    ∧ (∀ w ∈ [true, false],
       let s := tabled { st := .enabled, wr := some w, events := [{ bytes := zeros 16 }], holding := true, owed := some 2 } []
       (s.mem.waiting.any fun a => a.own == .sitEvtWr 3) = false ∧ (s.inst 3).sit.events = [{ bytes := zeros 16 }]
         ∧ (s.inst 3).sit.wr = some w ∧ (s.inst 3).sit.holding = true ∧ (s.inst 3).sit.owed = some 2)
    ∧ (((tabled {} []).inst 3).sit.st = .disabled ∧ ((tabled {} []).inst 3).sit.owed = none) := by decide +kernel

theorem wit_stream_frames :
    (spUp (sending []) 0 = true ∧ (sending []).portUp = true)
    ∧ (((sending []).pol 5 0).st ≠ .enabled ∧ plainFrame.inst.val = 5 ∧ ({ plainFrame with hintV := true } : FrameIn).byp = false)
    ∧ (let f : EgFrame := { seq := 0, cls := 1, inst := 5, cells := 1, committed := true, bytes := zeros 72, ics := wordCodes (zeros 72) 0 5 }
       egressFree (sending [f]) 0 = true ∧ nextStart (countHolds 0 (sending [f])) 0 = some f
         ∧ storedGood (some 3) f.bytes f.ics (fun b => wordCodes b 0 f.inst) = false)
    ∧ (sending []).takes (0x4020 + 0x400 * 1 + 4 * 7) { data := 0x00200010, ic := 0 } = true
    ∧ (let f : EgFrame := { seq := 0, cls := 1, inst := 5, cells := 1, committed := true, started := true, bytes := zeros 72 }
       spUp (sending [f]) 0 = true ∧ ((sending [f]).sp 0).eg.find? (fun e => e.started) = some f) := by decide +kernel

theorem wit_egress_gates :
    (let g : Gate := { len := 1, cycle := 1000, admin := [(0, { gates := 1, ns := 1000 })] }
     (∀ p : PortId, (gated g).takes (0x5000 + 0x100 * p.val) { data := 0x01900003, ic := 0 } = true) ∧ ((gated g).sp 0).gate = g ∧ g.pending = none ∧ adminOk g = true ∧ adminOk {} = false
       ∧ adminOk { g with en := true } = true)
    ∧ (let v : Word := 0x01900003
       fld v.toNat 16 12 = 400 ∧ bit v.toNat 0 = true ∧ bit v.toNat 1 = true ∧ bit (0 : Word).toNat 0 = false)
    ∧ (((gated { en := true, pending := some 0 }).sp 0).gate.pending = some 0 ∧ 0 ≤ now (gated { en := true, pending := some 0 }))
    ∧ changeTime { cycle := 1000, baseNs := 20000 } 10000 = 20000
    ∧ changeTime { cycle := 1000, baseNs := 19999 } 10000 = 20999 := by decide +kernel

theorem wit_policers_and_shapers :
    (queued {}).takes 0x4804 { data := 9, ic := 0 } = true ∧ (queued {}).takes 0x6004 { data := 9, ic := 0 } = true ∧ (queued {}).glb.instSel ≤ 128
    ∧ stagedOk { sPir := 1, sCbs := 16384, sPbs := 16777215 } = true
    ∧ stagedOk { sPir := 2048001, sCbs := 16384, sPbs := 16384 } = false
    ∧ bit (0x9 : Word).toNat 0 = true ∧ bit (0x8 : Word).toNat 0 = false ∧ bit (0x8 : Word).toNat 3 = true := by decide +kernel

theorem wit_windows_and_reads :
    (queued {}).portUp = true
    ∧ (let s : State := { queued {} with fab := { State.reset.fab with fifoEn := true, fifo := [7], forges := [(0, { st := .active })] } }
       s.portUp = true ∧ forgePowered (s.forge 0) = true ∧ s.fab.fifoEn = true ∧ s.fab.fifo.length < 256 ∧ s.fab.fifo = [7])
    ∧ (queued {}).fab.fifo = []
    ∧ ({ queued {} with tam := { State.reset.tam with fifo := [7] } } : State).tam.fifo = [7]
    ∧ ({ queued {} with ory := { State.reset.ory with mailbox := [7] } } : State).ory.mailbox = [7]
    ∧ (queued {}).ory.reply = []
    ∧ (let s : State := { queued {} with insts := [(5, { evts := [7] })] }
       s.portUp = true ∧ (s.inst 5).evts = [7] ∧ (s.inst 6).evts = [])
    ∧ (let s : State := { queued {} with dig := { State.reset.dig with measDone := 1 } }
       s.portUp = true ∧ s.dig.measDone.toNat.testBit 0 = true ∧ s.dig.measDone.toNat.testBit 3 = false) := by decide +kernel

theorem wit_bellows_control :
    (let s := forged [] { started := true, en := true }
     powered s = true ∧ s.fab.bellows.started = true ∧ s.fab.bellows.en = true ∧ s.fab.bellows.faulted = false)
    ∧ (let s := forged [(2, { st := .gated }), (0, { st := .active })] {}
       gatedForges s = [2] ∧ (activeForges s).length < 8)
    ∧ (let s := forged ((List.range 8).map fun k => (k, { st := .active, logical := k })) { code := 0x10, maxCode := 0x30, minCode := 0x8 }
       8 ≤ (activeForges s).length ∧ s.fab.bellows.code < s.fab.bellows.hi ∧ s.fab.bellows.lo < s.fab.bellows.code
         ∧ s.port.fault.toNat.testBit 19 = false ∧ 8 ≤ min (max (s.fab.bellows.code - s.fab.bellows.inc) s.fab.bellows.lo) s.fab.bellows.hi)
    ∧ (let s := forged ((List.range 8).map fun k => (k, { st := .active, logical := k })) { code := 0x8, maxCode := 0x30, minCode := 0x8, minForges := 1 }
       s.fab.bellows.code ≤ s.fab.bellows.lo ∧ s.fab.bellows.keep < (activeForges s).length ∧ (activeForges s).getLast? = some 7)
    ∧ (let s := forged [(2, { st := .active, draining := true, logical := 2 })] {}
       (s.forge 2).st = .active ∧ (s.forge 2).draining = true ∧ forgeBusy s 2 = false)
    ∧ (let s := forged [(2, { st := .gated, waking := true, logical := 2 }), (3, { st := .gated, waking := true, cmd := some 4 })] {}
       (s.forge 2).st = .gated ∧ (s.forge 2).waking = true ∧ (s.forge 2).cmd = none ∧ (s.forge 3).cmd ≠ none) := by decide +kernel

theorem wit_forge_faults :
    (let s := retiringOne { st := .active, logical := 1 } { st := .spare }
     forgeRuns s 1 = true ∧ (s.forge 1).st = .active ∧ (s.forge 1).failing = false ∧ freeSpare s = some 8 ∧ s.fab.rotation = none)
    ∧ freeSpare (retiringOne { st := .active } { st := .failed }) = none
    ∧ ((retiringOne { st := .gated } {}).forge 1).st = .gated
    ∧ (let s := retiringOne { st := .active, failing := true, logical := 1 } { st := .spare, waking := true, logical := 1 }
       (s.forge 1).failing = true ∧ takingSpare s (s.forge 1).logical = some 8)
    ∧ ((retiringOne { st := .retiring } {}).forge 1).st = .retiring
    ∧ (let s := retiringOne { st := .restoring } {}
       (s.forge 1).st = .restoring ∧ (List.range 8).find? (fun l => decide (9 ≤ s.phys l)) = none
         ∧ (List.range 8).find? (fun l => decide (9 ≤ (setMap 3 15 s).phys l)) = some 3)
    ∧ (let r : Rotation := { slot := 0, version := 2, loaded := [], raise := false, svn := 0 }
       let s : State := { retiringOne { st := .active, logical := 1 } { st := .spare } with fab := {
         (retiringOne { st := .active, logical := 1 } { st := .spare }).fab with rotation := some r } }
       let g : State := { s with fab := { s.fab with forges := [(0, { st := .gated }), (8, { st := .spare })], map := [0, 15, 15, 15, 15, 15, 15, 15] } }
       freeSpare s = some 8 ∧ oldForges (loadSpare 8 r s) { r with loaded := [8] } = [0, 1, 2, 3, 4, 5, 6, 7]
         ∧ (oldForges (loadSpare 8 r s) { r with loaded := [8] }).filter (logicalUp (loadSpare 8 r s)) ≠ []
         ∧ oldForges (loadSpare 8 r s) { r with loaded := (8 :: (List.range 8)) } = []
         ∧ freeSpare g = some 8 ∧ oldForges (loadSpare 8 r g) { r with loaded := [8] } = [0]
         ∧ [0].filter (logicalUp (loadSpare 8 r g)) = []) := by decide +kernel

theorem wit_tamper_sources :
    (let s := sensing {} { arm := true }
     s.takes 0x414 { data := 1, ic := 0 } = true ∧ powered s = true ∧ fuseIntact s 0 = true ∧ isReport 0 = false ∧ (s.tsrc 0).test ≠ some .a ∧ isReport 13 = true
       ∧ fuseIntact s 13 = true ∧ armed s 0 = true ∧ (s.tsrc 0).active = false ∧ (∀ k < 16, (s.tsrc k).test = none)
       ∧ readClass s 0 (tRec s 0) (.mesh .own .own) = 0 ∧ (readClass s 0 (tRec s 0) (.mesh .high .own) != 0) = true)
    ∧ (armed (sensing { ready := true } { arm := true, debounce := 1 }) 0 = true
       ∧ 0 < (tRec (sensing { ready := true } { arm := true, debounce := 1 }) 0).debounce)
    ∧ (tRec (sensing { ready := true } { arm := true, debounce := 0 }) 0).debounce = 0
    ∧ ((sensing { ready := false } {}).tsrc 0).ready = false
    ∧ ((sensing { waiting := true } { arm := true }).tsrc 0).waiting = true
    ∧ detectorsDiffer 0 { a := true } = true
    ∧ ((sensing { test := some .b } {}).tsrc 0).test = some .b
    ∧ powered { queued {} with modes := { State.reset.modes with mode := .vigil } } = false := by decide +kernel

theorem wit_zeroise_line :
    (let s := clearing .idle .running
     s.modes.halted = false ∧ (∀ h, s.cruc.zRun ≠ .verify h) ∧ s.modes.mode ≠ .boot ∧ s.modes.mode ≠ .zeroised
       ∧ powered s = true ∧ s.port.zDriven = false ∧ s.port.zExt = false)
    ∧ ((clearing (.verify true) .running).cruc.zRun = .verify true ∧ (clearing (.verify false) .running).cruc.zRun = .verify false)
    ∧ ((clearing .fill .running).cruc.zRun = .fill ∧ (clearing .fill .running).anv.drbg = .running) := by decide +kernel

theorem wit_banks_and_burnish :
    (let s := banked 0x1F false
     powered s = true ∧ drbgUp s = true ∧ s.cruc.stalled = false ∧ s.cruc.passDone = false ∧ s.cruc.bankUp = 0x1F)
    ∧ (banked 0x1F true).cruc.passDone = true
    ∧ ((banked 0x1E false).cruc.bankUp ≠ 0x1F ∧ (banked 0x1E false).cruc.bankUp.toNat.testBit 4 = true) := by decide +kernel

theorem wit_engine_faults :
    (let s : State := { queued {} with dig := { State.reset.dig with pipeUp := 0xFE }, anv := { State.reset.anv with up := 0xE } }
     powered s = true ∧ s.dig.pipeUp.toNat.testBit 7 = true ∧ s.dig.pipeUp.toNat.testBit 0 = false ∧ s.anv.up.toNat.testBit 3 = true
       ∧ s.anv.up.toNat.testBit 0 = false) := by decide +kernel

theorem wit_entropy_and_drbg :
    (let s := seeded { State.reset.anv with aUp := true, bUp := true, drbg := .running, aBuf := 1, bBuf := 1 }
     powered s = true ∧ s.anv.aUp = true ∧ s.anv.bUp = true ∧ s.anv.drbg ≠ .starting ∧ s.anv.wantReseed = false ∧ drbgUp s = true
       ∧ 1 ≤ s.anv.aBuf ∧ 1 ≤ s.anv.bBuf ∧ s.anv.drbg ≠ .stopped)
    ∧ (let s := seeded { State.reset.anv with aUp := true, bUp := true, drbg := .starting, aBuf := 2, bBuf := 1 }
       s.anv.drbg = .starting ∧ 2 ≤ s.anv.aBuf ∧ 1 ≤ s.anv.bBuf)
    ∧ (let s := seeded { State.reset.anv with aUp := true, bUp := true, drbg := .starting, aBuf := 1, bBuf := 0 }
       s.anv.drbg = .starting ∧ s.anv.aBuf < 2)
    ∧ (let s := seeded { State.reset.anv with aUp := true, bUp := false, drbg := .single, aBuf := 2, bBuf := 0 }
       drbgUp s = true ∧ s.anv.bUp = false ∧ s.anv.drbg = .single ∧ 2 ≤ s.anv.aBuf)
    ∧ (let s := seeded { State.reset.anv with drbg := .running, aBuf := 0, bBuf := 0 }
       drbgUp s = true ∧ s.anv.aBuf = 0 ∧ s.anv.bBuf = 0) := by decide +kernel

theorem wit_orrery_events :
    (let s := orried { State.reset.ory with halfA := true, halfB := true } { st := .offered } []
     powered s = true ∧ s.ory.halfA = true ∧ s.ory.halfB = true ∧ (s.parent 7).st = .offered ∧ inTest s = false)
    ∧ (orried { State.reset.ory with halfA := false, halfB := true } {} []).ory.halfA = false
    ∧ (let s := orried { State.reset.ory with st := .restarting } {} []
       s.ory.st = .restarting ∧ s.ory.commit = none)
    ∧ (orried { State.reset.ory with st := .restarting, commit := some (3, true) } {} []).ory.commit = some (3, true)
    ∧ (let s := orried { State.reset.ory with st := .running, packets := [{ slot := 4, opc := 0x41, flags := 0, ctx := 0, ps := [] }] } {} []
       cmdOn s = true ∧ (s.ory.packets.find? fun p => p.slot = 4 && (p.res.isNone || closeHeld s p))
         = some { slot := 4, opc := 0x41, flags := 0, ctx := 0, ps := [] } ∧ cmdHeld s 0x41 = false
         ∧ cmdHeld { s with modes := { s.modes with dpStopped := true } } 0x10 = true)
    ∧ (let p : Packet := { slot := 4, opc := 0x41, flags := 0, ctx := 0, ps := [], res := some (res 4 1) }
       let s := orried { State.reset.ory with st := .running, packets := [p] } {} []
       orreryUp s = true ∧ s.ory.packets.find? (fun p => decide (p.slot = 4) && p.res.isSome) = some p ∧ cmdWriting s 4 = false ∧ closeHeld s p = false)
    ∧ (let e : Entry := { slot := 4, verdict := some (res 4 1) }
       let s := orried { State.reset.ory with st := .running } {} [e]
       cmdOn s = true ∧ s.ory.packets.find? (fun p => decide (p.slot = 4) && p.res.isSome) = none ∧ badHead s 4 = some e
         ∧ s.port.att = .attached ∧ cmdHeld s (hOpc e.hdr) = false)
    ∧ inTest { queued {} with modes := { State.reset.modes with mode := .test } } = true := by decide +kernel

theorem wit_modes_and_lifecycle :
    (let s := inMode { State.reset.modes with mode := .service } { State.reset.glb with lcArmed := some (1, 0), instSel := 128 } .manufacture
     s.takes 0x14 { data := 1, ic := 0 } = true ∧ s.takes 0x30 { data := 4, ic := 0 } = true ∧ s.takes 0x30 { data := 9, ic := 0 } = true ∧ s.takes 0x6014 { data := 0x40000000, ic := 0 } = true
       ∧ s.pathTakes .i3c 0x2C { data := 0xB0070000, ic := 0 } = true ∧ s.modes.mode = .service ∧ s.glb.lcArmed = some (1, now s) ∧ s.life = .manufacture ∧ s.glb.instSel = 128
       ∧ s.mem.invDone = true)
    ∧ (let s := inMode { State.reset.modes with mode := .eclipse, cause := 1, endAsked := false } {} .deployed
       s.takes 0x14 { data := 0, ic := 0 } = true ∧ s.takes 0x14 { data := 1, ic := 0 } = true ∧ s.modes.cause = 1 ∧ s.modes.endAsked = false ∧ quiesced s = true)
    ∧ (let s := inMode { State.reset.modes with mode := .eclipse, cause := 2, endAsked := true } {} .deployed
       s.takes 0x14 { data := 1, ic := 0 } = true ∧ s.modes.cause ≠ 1 ∧ s.modes.endAsked = true ∧ quiesced s = true)
    ∧ (let s := inMode { State.reset.modes with mode := .zeroised } {} .deployed
       let t := (s.answered .rap).modModes fun m => { m with cfgErr := m.cfgErr && !bit 2 3 }
       s.takes 0x14 { data := 2, ic := 0 } = true ∧ resumeOk t = true)
    ∧ (let s := inMode { State.reset.modes with mode := .service } { State.reset.glb with lcArmed := some (2, 0) } .deployed
       s.takes 0x30 { data := 0xA, ic := 0 } = true ∧ s.glb.lcArmed = some (2, now s) ∧ s.life ≠ .terminated ∧ inTest s = false)
    ∧ (let s : State := { queued {} with mem := { State.reset.mem with invDone := false } }
       s.mem.invDone = false ∧ invHeld s = false)
    ∧ fld (0xB0070000 : Word).toNat 16 16 = 0xB007 ∧ fld (0xA : Word).toNat 0 2 = 2 ∧ bit (0xA : Word).toNat 3 = true := by
  decide +kernel

theorem wit_board_mailbox :
    (let s := inMode { State.reset.modes with mode := .service } {} .deployed
     s.portUp = true ∧ s.glb.h2bFull = false ∧ s.glb.b2hFull = false
       ∧ (∀ a ∈ [0x300, 0x200, 0x27C, 0x280, 0x2FC], s.takes a { data := 1, ic := 7 } = true))
    ∧ (let s := inMode { State.reset.modes with mode := .service } { State.reset.glb with h2bFull := true, b2hFull := true } .deployed
       s.portUp = true ∧ s.glb.h2bFull = true ∧ s.glb.b2hFull = true)
    ∧ (let s := orried { State.reset.ory with st := .running } {} []
       s.pathTakes .rap 0x50C { data := 0x10, ic := 0 } = true ∧ s.pathTakes .i3c 0x50C { data := 0x10, ic := 0 } = true ∧ orreryUp s = true) := by decide +kernel

theorem wit_lane_computations :
    (∀ o ∈ [0x00, 0x10, 0x11, 0x20, 0x21, 0x22, 0x23],
      readyJob (engines (ready o (.lane 0 0))) 0 o = some (ready o (.lane 0 0))) ∧ (ready 0x10 (.lane 0 0)).ends = none
        ∧ ({ ready 0x10 (.lane 0 0) with ends := some (res 2 1) } : Job).ends = some (res 2 1)
        ∧ decrypts 0x11 = true ∧ decrypts 0x10 = false
        ∧ (ready 0x11 (.lane 0 0)).textTag State.reset = (ready 0x11 (.lane 0 0)).sc.given
        ∧ ({ ready 0x11 (.lane 0 0) with sc := { given := [0] } } : Job).textTag State.reset ≠ [0] := by decide +kernel

theorem wit_digest_computations :
    (∀ o ∈ [0x30, 0x31, 0x32], readyJob (engines (ready o (.pipe 0))) 0 o = some (ready o (.pipe 0)))
    ∧ readyJob (engines (ready 0x33 .none)) 0 0x33 = some (ready 0x33 .none)
    ∧ (ready 0x32 .none).opc = 0x32 ∧ (ready 0x30 .none).opc ≠ 0x32 := by decide +kernel

theorem wit_anvil_computations :
    (∀ o ∈ [0x40, 0x41, 0x42, 0x43, 0x47, 0x48], readyJob (engines (ready o (.unit 0))) 0 o = some (ready o (.unit 0))
      ∧ (engines (ready o (.unit 0))).anv.drbg = .running ∧ bit (ready o (.unit 0)).flags 4 = false ∧ avAlg (ready o (.unit 0)).body ≠ 1)
    ∧ (let s : State := { engines (ready 0x40 (.unit 0)) with anv := { State.reset.anv with up := 0xF, drbg := .stopped } }
       readyJob s 0 0x40 = some (ready 0x40 (.unit 0)) ∧ s.anv.drbg = .stopped)
    ∧ (countWrap 0 (orried {} { st := .valid } [])).isSome = true
    ∧ (countWrap 7 (orried {} { st := .valid, wraps := 2 ^ 32 } [])).isNone = true
    ∧ ((engines (ready 0x40 (.unit 0))).job? 0).isSome = true := by decide +kernel
theorem wit_anvil_computations_pair :
    (∃ x, genPair 0x20 State.reset = some x) ∧ (∃ pub, pairOk 0x20 pub (zeros 32) = true) := by
  refine ⟨⟨_, rfl⟩, ⟨agreePublic 0x20 (zeros 32), ?_⟩⟩
  simp [pairOk]

theorem wit_next_key_jobs :
    (∀ o ∈ [0x44, 0x45, 0x46, 0x50, 0x51], ∃ j : Job, readyJob (engines j) 0 o = some j ∧ j.ctxEnt = some 3 ∧ nextInUse (engines j) 3 = false
      ∧ childDepth (engines j) j.parent < 6 ∧ (engines j).anv.drbg = .running ∧ avKeyLen j.body = 0
      ∧ hybridPoint (avAlg j.body) (avInput (engines j) j) = false) := by
  intro o h
  exact ⟨keyJob o (if o < 0x50 then .unit 0 else .lane 0 0) 0, by revert o; decide +kernel⟩
theorem wit_next_key_jobs_wrapped :
    (let j : Job := { keyJob 0x44 (.unit 0) 0 with body := List.replicate 64 1 }
     readyJob (engines j) 0 0x44 = some j ∧ j.ctxEnt = some 3 ∧ nextInUse (engines j) 3 = false ∧ childDepth (engines j) j.parent < 6
       ∧ avKeyLen j.body ≠ 0 ∧ hybridPoint (avAlg j.body) (avInput (engines j) j) = false)
    ∧ (let j := keyJob 0x50 (.lane 0 0) 0
       let k : Job := { j with tag := 1, opc := 0x10, keySlot := 1 }
       let s : State := { engines j with jobs := [j, k] }
       readyJob s 0 0x50 = some j ∧ nextInUse s 3 = true)
    ∧ (let j := keyJob 0x50 (.lane 0 0) (2 ^ 28 + 7)
       let s : State := { engines j with cruc := { State.reset.cruc with parents := [(7, { st := .valid, depth := 5 })] } }
       readyJob s 0 0x50 = some j ∧ nextInUse s 3 = false ∧ 6 ≤ childDepth s j.parent) := by decide +kernel

theorem wit_instance_commands_create :
    (let p := packet 0x00 0 0 [] 0
     (serve p [] {} (queued {})).serving 4 0x00 noReads = some (p, serve p [] {} (queued {})))
    ∧ (let p := packet 0x01 0 0 [5, 0] 1
       let d := natLe 256 (2 ^ 76 + 64 * 2 ^ 192 + 2 ^ 208 + 2 ^ 216 + 2 ^ 288)
       let s := serve p [d] { st := .unused } (queued {})
       let x := cmdDesc s p
       s.serving 4 0x01 descRead = some (p, s) ∧ descReservedSet x = false ∧ descRangeOk s 5 x (descGroups true x) = true
         ∧ epochBad s 5 (fld x 0 32) = false ∧ hasRoot s = true ∧ (s.inst 5).st = .unused ∧ iotlbOver s 5 (fld x 256 14) = false)
    ∧ (let p := packet 0x01 0 0 [5, 0] 1
       let d := natLe 256 (2 ^ 76 + 64 * 2 ^ 192 + 2 ^ 208 + 2 ^ 216 + 2 ^ 288)
       let s := serve p [d] { st := .enabled } (queued {})
       let x := cmdDesc s p
       s.serving 4 0x01 descRead = some (p, s) ∧ descReservedSet x = false ∧ descRangeOk s 5 x (descGroups true x) = true
         ∧ epochBad s 5 (fld x 0 32) = false ∧ hasRoot s = true ∧ (s.inst 5).st ≠ .unused)
    ∧ (let p := packet 0x02 0 0 [5, 0] 1
       let d := natLe 256 (2 ^ 34 + 2 ^ 39 + 2 ^ 128 + 64 * 2 ^ 256)
       let s := serve p [d] { st := .enabled } (queued {})
       let x := cmdDesc s p
       let g := descGroups false x
       s.serving 4 0x02 descRead = some (p, s) ∧ descReservedSet x = false ∧ descRangeOk s 5 x g = true ∧ (s.inst 5).st ≠ .unused
         ∧ rangeHeld s 5 x g = false ∧ g 2 = true ∧ pinnedOf s 5 ≤ fld x 128 19 ∧ g 7 = true
         ∧ iotlbOver s 5 (fld x 256 14) = false) := by
  decide +kernel
theorem wit_instance_commands_states :
    (let p := packet 0x03 0 0 [5] 0
     let s := serve p [] { st := .enabled } (queued {})
     s.serving 4 0x03 noReads = some (p, s) ∧ bit p.flags 0 = false ∧ p.stage = 0 ∧ (s.inst 5).st ≠ .unused ∧ (s.inst 5).st ≠ .resetting)
    ∧ (let p := packet 0x03 1 0 [5] 0
       let s := serve p [] { st := .disabled } (queued {})
       let t : State := { s with ctx := [(0, { handle := 9, owner := 5 })] }
       s.serving 4 0x03 noReads = some (p, s) ∧ t.serving 4 0x03 noReads = some (p, t) ∧ bit p.flags 0 = true
         ∧ (s.inst 5).st = .disabled ∧ (t.inst 5).st = .disabled ∧ ownsKeys s 5 = false ∧ ownsKeys t 5 = true)
    ∧ (∀ v : IState × Bool, v ∈ [(.disabled, false), (.disabled, true), (.stopping, false)] →
        let p := packet 0x04 0 0 [5] 0
        let s := serve p [] { st := v.1, resetHeld := v.2 } (queued {})
        s.serving 4 0x04 noReads = some (p, s) ∧ p.stage = 0 ∧ (s.inst 5).st = v.1 ∧ (s.inst 5).resetHeld = v.2)
    ∧ (∀ f ∈ [0, 1],
        let p := packet 0x05 f 0 [5] 0
        let s := serve p [] { st := .enabled } (queued {})
        s.serving 4 0x05 noReads = some (p, s) ∧ bit p.flags 0 = (f == 1) ∧ p.stage = 0 ∧ (s.inst 5).st = .enabled) := by
  decide +kernel
theorem wit_instance_commands_shut :
    (∀ m : IState, m ∈ [.resetting, .stopping] →
        let s := serve (packet 0x03 0 0 [5] 0) [] { st := m, cmd := some 4 } (queued {})
        powered s = true ∧ sequenceInst s 4 (fun v => v.st == m || (v.st == .pendingEnable && v.pendBase == m)) = some 5
          ∧ instQuiet s 5 = true ∧ instStopped s 5 = true ∧ (s.inst 5).st ≠ .pendingEnable ∧ (s.inst 5).cmd = some 4) := by
  decide +kernel

theorem wit_context_commands_create :
    (let p := packet 0x10 1 9 [5, 0] 1
     let blk := fun (b : Nat) => natLe 128 (5 * 2 ^ 32 + 8 * 2 ^ 40 + 2 ^ 192 + b * (2 ^ 69 + 2 ^ 705) + handleOf 5 * 2 ^ 512)
     let s := fun (b : Nat) => serve p [blk b] { st := .enabled, ctxQuota := 4 } (keyed [] false)
     ∀ b ∈ [0, 1],
       let t := s b
       let d := createBlock t p
       let c := createCtx p t
       t.serving 4 0x10 (fun p => if bit p.flags 0 then [(p.p 1, 128)] else []) = some (p, t) ∧ bit p.flags 0 = true
         ∧ createReserved d = false ∧ createParamBad d = false ∧ hasRoot t = true ∧ t.ctxOf p.ctx = none ∧ t.vault.en = false
         ∧ createChecks p c t = none ∧ bit d 704 = false ∧ bit d 706 = false ∧ bit d 705 = (b == 1)
         ∧ (sourceKey t c (fld d 512 32) (fld d 576 64) none).any (fun a => !halvesEqual c a) = true
         ∧ (sourceKey t c (fld d 512 32) (fld d 640 64) none).isSome = true ∧ roomFor t c.owner = .here) := by
  decide +kernel
theorem wit_context_commands_resident :
    (let p := packet 0x10 0 9 [5, 0] 0
     let s := serve p [] { st := .enabled, ctxQuota := 4 } (keyed [(0, { handle := 9, owner := 5 })] true)
     let t := serve p [] { st := .enabled, ctxQuota := 4 } (keyed [] true)
     let reads := fun (p : Packet) => if bit p.flags 0 then [(p.p 1, 128)] else []
     s.serving 4 0x10 reads = some (p, s) ∧ t.serving 4 0x10 reads = some (p, t) ∧ bit p.flags 0 = false
       ∧ s.ctxOf p.ctx = some 0 ∧ (s.ctxAt 0).st ≠ .evicting ∧ (s.ctxAt 0).owner = p.p 0 ∧ t.ctxOf p.ctx = none ∧ t.vault.en = true)
    ∧ (∀ f ∈ [0, 1, 2],
        let p := packet 0x11 f 9 [] 0
        let s := serve p [] { st := .enabled } (keyed [(0, { handle := 9, owner := 5 })] true)
        s.serving 4 0x11 noReads = some (p, s) ∧ p.stage = 0 ∧ s.ctxOf p.ctx = some 0 ∧ (s.ctxAt 0).st ≠ .evicting ∧ s.vault.en = true
          ∧ p.flags = f)
    ∧ (let p := packet 0x12 0 9 [] 0
       let s := serve p [] { st := .enabled } (keyed [(0, { handle := 9, owner := 5 })] true)
       s.serving 4 0x12 noReads = some (p, s) ∧ s.ctxOf p.ctx = some 0 ∧ (s.ctxAt 0).st ≠ .evicting)
    ∧ (let p := packet 0x13 0 9 [handleOf 7, 0] 0
       let s := serve p [] { st := .enabled } (keyed [(0, { handle := 9, owner := 5 })] true)
       s.serving 4 0x13 noReads = some (p, s) ∧ parentCheck s (p.p 0) mi [.transport] = none ∧ s.ctxOf p.ctx = some 0
         ∧ (s.ctxAt 0).st ≠ .evicting ∧ (s.ctxAt 0).st ≠ .stale ∧ entryInUse s 0 = false)
    ∧ (let p := { packet 0x14 0 9 [handleOf 7, 0, 5, handleOf 5] 1 with probed := true }
       let s := serve p [zeros 256] { st := .enabled, ctxQuota := 4 } (keyed [] true)
       s.serving 4 0x14 (fun p => [(p.p 1, 256)]) = some (p, s) ∧ p.stage = 0 ∧ parentCheck s (p.p 0) mi [.transport] = none
         ∧ parentCheck s (p.p 3) (p.p 2) [.inst, .parent] = none ∧ s.vault.en = true ∧ s.ctxOf p.ctx = none ∧ p.probed = true
         ∧ childDepth s (p.p 3) < 6 ∧ roomFor s (p.p 2) = .here) := by
  decide +kernel
theorem wit_context_commands_rekey :
    (let p := packet 0x14 0 9 [handleOf 7, 0, 5, handleOf 5] 1
     let b : Opened := { hd := natLe 64 (2 ^ 64), pt := zeros 176 }
     let c := importedCtx p b (keyed [] true)
     recHasKey c b.hd b.pt 0 = true ∧ recHasKey c b.hd b.pt 1 = false)
    ∧ (∀ f ∈ [0, 8, 256],
        let p := packet 0x15 f 9 [handleOf 5, 0] 0
        let s := serve p [] { st := .enabled } (keyed [(0, { handle := 9, owner := 5, kind := 0x10, nA := 1 })] true)
        let u := modPacket p.slot (fun x => { x with waits := false }) s
        let c := u.ctxAt 0
        s.serving 4 0x15 noReads = some (p, s) ∧ s.ctxOf p.ctx = some 0 ∧ (s.ctxAt 0).st ≠ .evicting ∧ c.st ≠ .stale
          ∧ rekeyParamBad p c = false ∧ slotInUse u 0 (1 - c.role) = false ∧ entryInUse u 0 = false ∧ bit p.flags 8 = (f == 256)
          ∧ bit p.flags 4 = false ∧ bit p.flags 3 = (f == 8) ∧ parentCheck u (p.p 0) c.owner [.inst, .parent] = none
          ∧ childDepth u (p.p 0) < 6 ∧ c.kind ≠ 5
          ∧ (sourceKey u c (p.p 0) (p.p 1) none).any (fun m => !halvesEqual c m) = true) := by
  decide +kernel

theorem wit_key_commands_derive :
    (∀ f ∈ [0, 1],
      let p := packet 0x20 f 0 [handleOf 5 + 5 * 2 ^ 32, 7, 0, 2 ^ 16] 0
      let s := serve p [] { st := .enabled, slotQuota := 4 } (keyed [] false)
      s.serving 4 0x20 deriveRead = some (p, s) ∧ parentCheck s p.srcKey p.owner [.inst, .parent] = none ∧ childDepth s p.srcKey < 6
        ∧ takeParent s p.owner = some 129 ∧ p.save = (f == 1) ∧ cmdWriting s p.slot = false ∧ p.stage = 0 ∧ s.anv.drbg = .running ∧ p.srcKey ≠ 0
        ∧ (countWrap (hIndex p.srcKey) s).isSome = true)
    ∧ (let p := packet 0x21 0 0 [handleOf 5 + 5 * 2 ^ 32, 0, 0, 2 ^ 16] 1
       let s := serve p [zeros 60] { st := .enabled, slotQuota := 4 } (keyed [] false)
       s.serving 4 0x21 (envRead 0) = some (p, s) ∧ bit p.flags 1 = false ∧ bit p.flags 3 = false ∧ unwrapSource s p.srcKey p.owner = none
         ∧ childDepth s p.srcKey < 6 ∧ takeParent s p.owner = some 129 ∧ p.save = false ∧ cmdWriting s p.slot = false)
    ∧ (∀ f ∈ [2, 6],
      let p := packet 0x21 f 0 [5 * 2 ^ 32, 0, 0, 2 ^ 16] 1
      let s := serve p [zeros 1148] { st := .enabled, slotQuota := 4 } (keyed [] false)
      s.serving 4 0x21 (envRead 1088) = some (p, s) ∧ bit p.flags 1 = true ∧ bit p.flags 3 = false ∧ bit p.flags 2 = (f == 6)
        ∧ takeParent s p.owner = some 129 ∧ p.save = false ∧ cmdWriting s p.slot = false ∧ s.anv.drbg = .running) := by
  decide +kernel
theorem wit_key_commands_restore :
    (∀ n ∈ [0, 1],
      let p := packet 0x21 8 0 [handleOf 5 + 5 * 2 ^ 32, 0, handleOf 130] n
      let s := serve p [zeros 60] { st := .enabled } (keyed [] false)
      let t := s.modParent 130 fun k => { k with st := .valid, kind := .parent, owner := 5, depth := 2, absent := true }
      t.serving 4 0x21 noReads = some (p, t) ∧ bit p.flags 3 = true ∧ restoreTarget t (p.p 2) = none
        ∧ restoreSource t p.srcKey (p.p 2) = none ∧ p.reads.length = n ∧ p.save = false ∧ cmdWriting t p.slot = false)
    ∧ (∀ f ∈ [0, 1],
      let p := packet 0x22 f 0 [handleOf 7] 0
      let s := serve p [] { st := .enabled } (keyed [] false)
      s.serving 4 0x22 noReads = some (p, s) ∧ invalidateCheck s (p.p 0) (bit p.flags 0) = none ∧ bit p.flags 0 = (f == 1)) := by
  decide +kernel
theorem wit_key_commands_hmac :
    (let p := packet 0x28 0 0 [3 + 5 * 2 ^ 16, handleOf 5, 0, 32 + 64 * 2 ^ 16] 0
     let s := serve p [] { st := .enabled } (keyed [] false)
     s.serving 4 0x28 noReads = some (p, s) ∧ p.stage = 0 ∧ hmacReads p = [(0, 64)])
    ∧ (let p := packet 0x28 1 0 [3] 0
       let s := serve p [] { st := .enabled } (keyed [] false)
       let u := modPacket p.slot (fun x => { x with stage := 1 }) (s.modHslot 3 fun h => { h with pending := true })
       s.serving 4 0x28 noReads = some (p, s) ∧ p.stage = 0 ∧ hmacReads p = []
         ∧ (livePacket u p.slot p.opc).any (fun q => q.reads.isEmpty && bit q.flags 0 && !hslotInUse u (fld (q.p 0) 0 12)) = true)
    ∧ (let p := { packet 0x28 0 0 [3 + 5 * 2 ^ 16, handleOf 5, 0, 32] 0 with stage := 1 }
       let s := serve p [] { st := .enabled } (keyed [] false)
       s.serving 4 0x28 noReads = some (p, s) ∧ p.stage ≠ 0 ∧ bit p.flags 0 = false
         ∧ parentCheck s (p.p 1) 5 [.inst, .parent] = none ∧ childDepth s (p.p 1) < 6 ∧ s.anv.drbg = .running ∧ hslotInUse s 3 = false) := by
  decide +kernel

theorem wit_attest_commands :
    (∀ f ∈ [0, 1, 3],
      let p := packet 0x31 f 0 [0, 0, 0, 0, 4096] 1
      let s := attesting p [zeros 32]
      s.serving 4 0x31 nonceRead = some (p, s) ∧ attestMode f p.flags = true ∧ p.stage = 0 ∧ (attestSecret s p.verifier).isSome = true
        ∧ s.anv.drbg = .running ∧ (takeParent s mi).isSome = true)
    ∧ (let p := packet 0x31 0 0 [0, 0, 0, 0, 4096] 1
       let s := attesting p [zeros 32]
       (report s p.verifier 0 (cmdData s p 0) []).length ≤ fld (p.p 4) 0 16)
    ∧ (let p := { packet 0x31 1 0 [0] 1 with stage := 1 }
       let s := attesting p [zeros 32]
       s.serving 4 0x31 nonceRead = some (p, s) ∧ attestMode 1 p.flags = true ∧ p.stage ≠ 0 ∧ cmdWriting s p.slot = false
         ∧ (takeParent s mi).isSome = true)
    ∧ (∀ n ∈ [0, 1],
      let p := { packet 0x31 2 0 [0] 2 with stage := n }
      let s := attesting p [zeros 32, zeros 1504]
      s.serving 4 0x31 respondReads = some (p, s) ∧ attestMode 2 p.flags = true ∧ p.stage = n ∧ (attestSecret s p.verifier).isSome = true
        ∧ s.anv.drbg = .running ∧ (takeParent s mi).isSome = true ∧ cmdWriting s p.slot = false)
    ∧ (let p := packet 0x31 4 0 [0, handleOf 130] 1
       let s := attesting p [zeros 1408]
       s.serving 4 0x31 (fun p => [(p.p 3, 1408)]) = some (p, s) ∧ attestMode 4 p.flags = true ∧ offerCheck s (p.p 1) = none
         ∧ (attestSecret s p.verifier).isSome = true) := by
  decide +kernel

theorem wit_ledger_commands_config :
    (∀ f ∈ [0, 2],
      let p := packet 0x30 f 0 [0] 1
      let s := serve p [tamperBytes] {} (queued {})
      s.serving 4 0x30 (fun p => [(p.p 0, 144)]) = some (p, s) ∧ tamperOk (cmdData s p 0) = true ∧ s.tam.locked = false
        ∧ bit p.flags 1 = (f == 2) ∧ ledgerFull s (mergedBody s 2 (cmdData s p 0)) = false)
    ∧ (∀ f ∈ [0, 1],
      let p := packet 0x48 f 0 [0, 8] 1
      let s := serve p [natLe 8 (1 + 640 * 2 ^ 32)] {} (queued {})
      s.serving 4 0x48 (fun p => [(p.p 0, p.p 1)]) = some (p, s) ∧ calibOk (cmdData s p 0) = true ∧ bit p.flags 0 = (f == 1)
        ∧ ledgerFull s (mergedBody s 3 (mergedCalib s (cmdData s p 0))) = false)
    ∧ (let c := natLe 2 1 ++ natLe 2 3 ++ natLe 4 0 ++ natLe 4 8 ++ zeros 60
       let img := putBytes c 32 (natLe 4 (copyCrc c 0))
       let p := packet 0x50 0 0 [0, 72] 1
       let s := serve p [img] {} (queued {})
       s.serving 4 0x50 configRead = some (p, s) ∧ ledgerItem 0 p.flags = true ∧ p.reads ≠ [] ∧ headerOk img = true
         ∧ cmdData s p 0 = img ∧ leAt img 32 4 = copyCrc img 0 ∧ (goodRecords img).isSome = true ∧ headerReserved img = false
         ∧ s.ldg.seq < 0xFFFFFFFF)
    ∧ (∀ f ∈ [1, 2],
      let p := packet 0x50 f 0 [] 0
      let s := serve p [] {} (queued {})
      s.serving 4 0x50 noReads = some (p, s) ∧ ledgerItem f p.flags = true ∧ s.ldg.reseal = false) := by
  decide +kernel
theorem wit_ledger_commands_image :
    (let img := natLe 2 1 ++ natLe 2 3 ++ zeros 3580
     let p := packet 0x38 0 0 [0, 3584] 1
     let s := serve p [img] {} (queued {})
     s.serving 4 0x38 imageRead = some (p, s) ∧ p.reads ≠ [] ∧ imageShapeOk (cmdData s p 0) = true ∧ leAt (cmdData s p 0) 9 3 = 0
       ∧ allZero (bytesAt (cmdData s p 0) 3469 115) = true)
    ∧ (∀ b ∈ [false, true], ∀ f ∈ [0, 1],
      let p := packet (if b then 0x3A else 0x39) f 0 [] 0
      let g : Image := { usable := true, svn := 255, prev := b, staged := !b }
      let s := serve p [] {} (forged [(8, { st := .spare })] {})
      let s : State := { s with ldg := { s.ldg with yA := g, yB := g, mA := g, mB := g } }
      s.serving 4 (if b then 0x3A else 0x39) noReads = some (p, s) ∧ p.stage = 0 ∧ bit p.flags 0 = (f == 1)
        ∧ canFlip s (b2n (bit p.flags 0)) b = true ∧ (freeSpare s).isSome = true) := by
  decide +kernel

theorem wit_upkeep_commands_forge :
    (∀ g : FState, g ∈ [.active, .gated] →
      let p := packet 0x40 0 0 [1] 0
      let s := serve p [] {} (forged [(1, { st := g }), (8, { st := .spare })] {})
      s.serving 4 0x40 noReads = some (p, s) ∧ p.stage = 0 ∧ (s.forge 1).st = g ∧ (s.forge 1).failing = false ∧ lastForge s 1 = false)
    ∧ (∀ g : FState, g ∈ [.retired, .failed, .retiring, .active] →
      let p := packet 0x41 0 0 [1] 0
      let s := serve p [] {} (forged [(1, { st := g })] {})
      s.serving 4 0x41 noReads = some (p, s) ∧ p.stage = 0 ∧ (s.forge 1).st = g) := by
  decide +kernel
theorem wit_upkeep_commands_rest :
    (∀ n ∈ [0, 1],
      let p := { packet 0x58 0 0 [5] 0 with stage := n }
      let s := serve p [] { st := .enabled, dlEn := true } (queued {})
      s.serving 4 0x58 noReads = some (p, s) ∧ p.stage = n ∧ (s.inst 5).st ≠ .unused ∧ (s.inst 5).dlEn = true
        ∧ (s.inst 5).dlFault = false ∧ marksOut s p.marks = false)
    ∧ (∀ f ∈ [1, 2],
      let p := packet 0x60 f 0 [7, 9] 0
      let s := serve p [] {} (queued {})
      s.serving 4 0x60 noReads = some (p, s) ∧ bit p.flags 0 = (f == 1))
    ∧ (∀ out : List Req, out ∈ [[], [{ tag := 7, op := .write, addr := 0x1000, inst := 5, own := .rd 0 0, len := 64, dp := true }]] →
      let p := packet 0x68 0 0 [5] 0
      let s0 := serve p [] {} (queued {})
      let s : State := { s0 with mem := { s0.mem with hmp0 := { out := out } } }
      let u := modPacket p.slot (fun x => { x with stage := 1, waits := true, marks := fenceMarks s 5 }) s
      s.serving 4 0x68 noReads = some (p, s) ∧ p.stage = 0 ∧ marksOut u (fenceMarks s 5) = !out.isEmpty)
    ∧ (let p := packet 0x70 0 0 [1, 0, 2] 0
       let e : LogEnt := { seq := 1, time := 0, cls := 1, code := 0, arg := 0 }
       let s0 := serve p [] {} (queued {})
       let s : State := { s0 with ldg := { s0.ldg with log := [e] } }
       s.serving 4 0x70 noReads = some (p, s) ∧ s.ldg.log.head? = some e ∧ s.ldg.log.getLast? = some e) := by
  decide +kernel

theorem wit_packet_start :
    (∀ n ∈ [0, 1],
      let s := heading { slot := 4, hdr := 0x48 * 2 ^ 48 + (2 - n) * 2 ^ 56, body := natLe 16 (0x1000 + 8 * 2 ^ 64) }
      let t := startCmd { slot := 4, hdr := 0x48 * 2 ^ 48 + (2 - n) * 2 ^ 56, body := natLe 16 (0x1000 + 8 * 2 ^ 64) } (fun p => [(p.p 0, p.p 1)]) s
      cmdOn s = true ∧ cmdHeld s 0x48 = false ∧ livePacket s 4 0x48 = none ∧ (cmdHead s 4 0x48).isSome = true
        ∧ (cmdHead s 4 0x48).any (cmdMayStart s) = true ∧ s.port.att = .attached
        ∧ (cmdHead s 4 0x48).map (fun e => (cmdCheck s e).isNone) = some (n == 0)
        ∧ (n = 0 → (livePacket t 4 0x48).map (cmdReads t) = some .wait)) := by decide +kernel

theorem wit_power_forms_complete : powered State.reset = true
    ∧ powered { State.reset with modes := { State.reset.modes with mode := .vigil } } = false
    ∧ (∀ h ∈ [false, true], let s : State := { State.reset with modes := { State.reset.modes with stage := .awaitAttach, halted := h } }
       s.modes.mode = .boot ∧ s.modes.stage = .awaitAttach ∧ s.modes.halted = h)
    ∧ (State.reset.modes.mode = .boot ∧ State.reset.modes.stage = .atStart)
    ∧ (queued {}).modes.mode ≠ .boot := by decide

theorem wit_notification_forms_complete :
    (∀ v ∈ [0x01, 0x00, 0x81],
       let s := notified {} { enabled := v != 0x01, ovf := v == 0x81 } []
       s.takes (pageBase 5 + 0x2C) { data := BitVec.ofNat 32 v, ic := 0 } = true ∧ winNr s 5 = some 8 ∧ (s.nr 8).enabled = (v != 0x01)
         ∧ bit (BitVec.ofNat 32 v).toNat 0 = (v != 0x00) ∧ bit (BitVec.ofNat 32 v).toNat 7 = (v == 0x81))
    ∧ (let s := windowed {}
       s.takes (pageBase 5 + 0x2C) { data := 1, ic := 0 } = true ∧ winNr s 5 = none)
    ∧ ((notified {} {} []).nr 8).rdId.bind (notified {} {} []).buf? = none
    ∧ (∀ r ∈ [RdRes.ok, .xlate 1 0 0, .ic, .pending], ∀ again ∈ [false, true],
        let b : RdBuf := { id := 4, own := .notif 8, res := r }
        let s := notified {} { enabled := true, rdId := some 4, retry := again } [b]
        (s.nr 8).rdId.bind s.buf? = some b ∧ b.res = r ∧ (s.nr 8).retry = again)
    ∧ ((notified {} { owed := some (1, true) } []).nr 8).owed = some (1, true)
    ∧ ((notified {} {} []).nr 8).owed = none := by decide

theorem wit_sit_forms_complete :
    (∀ r ∈ [RdRes.ok, .xlate 1 0 0, .ic, .pending],
       let s := looking false 0 r (zeros 64)
       ∃ l b, s.sit.lookups.find? (fun l => decide (l.id = 2) && !l.again) = some l ∧ s.buf? l.rid = some b ∧ b.res = r
         ∧ frameInst s l.port l.frame = some 5
         ∧ s.sit.lookups.find? (fun l => decide (l.id = 3) && !l.again) = none
         ∧ s.sit.lookups.find? (fun l => decide (l.id = 2) && l.again) = none) := by
  intro r h
  simp only [List.mem_cons, List.not_mem_nil, or_false] at h
  rcases h with rfl | rfl | rfl | rfl <;> exact ⟨_, _, rfl, rfl, rfl, rfl, rfl, rfl⟩
theorem wit_sit_forms_complete_rest :
    (let s := looking false 0 .ok (zeros 64)
     let t : State := { s with mem := { s.mem with bufs := [] } }
     let u : State := { s with str := State.reset.str }
     (t.sit.lookups.find? (fun l => decide (l.id = 2) && !l.again)).any (fun l => (t.buf? l.rid).isNone) = true
       ∧ (u.sit.lookups.find? (fun l => decide (l.id = 2) && !l.again)).any (fun l => (u.buf? l.rid).isSome && (frameInst u l.port l.frame).isNone) = true)
    ∧ (let s := looking true 1 .ok []
       (s.sit.lookups.find? (fun l => decide (l.id = 2) && l.again)).isSome = true)
    ∧ (∀ b ∈ [0, 1],
       let s := tabled { st := .stopping, rdId := some 9, events := [{ bytes := zeros 16 }] } (natLe 16 (b * 2 ^ 127))
       (s.inst 3).sit.wr = none ∧ ((s.inst 3).sit.rdId.bind s.buf?).map (fun x => (x.res, bit (leAt x.data 15 1) 7)) = some (.ok, b == 1)
         ∧ (s.inst 3).sit.events ≠ [])
    ∧ (((tabled {} []).inst 3).sit.wr = none ∧ ((tabled {} []).inst 3).sit.rdId.bind (tabled {} []).buf? = none
       ∧ ((tabled {} []).inst 3).sit.holding = false ∧ ((tabled {} []).inst 3).sit.st = .disabled)
    ∧ (let s := tabled { st := .enabled, wr := some true, holding := true, owed := some 2 } []
       (s.inst 3).sit.wr ≠ none ∧ (s.inst 3).sit.holding = true ∧ (s.inst 3).sit.owed = some 2)
    ∧ ((tabled { holding := true } []).inst 3).sit.owed = none
    ∧ (∀ v ∈ [0, 1],
       let s := tabled { st := .stopping } []
       s.takes (pageBase 3 + 0x4C) { data := BitVec.ofNat 32 v, ic := 0 } = true ∧ bit (BitVec.ofNat 32 v).toNat 0 = (v == 1)
         ∧ sitBusy s 3 = false ∧ (s.inst 3).sit.st = .stopping)
    ∧ (sitBusy (tabled { st := .pendingEnable } []) 3 = false ∧ ((tabled { st := .pendingEnable } []).inst 3).sit.st = .pendingEnable) := by
  decide +kernel

theorem wit_binding_of_rings :
    (let s := notified { nrEn := true, nrn := 8 } {} []
     (s.ring 1024).nrEn = true ∧ (s.nr (s.ring 1024).nrn).enabled = false)
    ∧ (let v : RapWord := { data := 1 + 8 * 2 ^ 8 + 2 ^ 16, ic := 0 }
       let s := windowed { base := 0x10000 }
       let t := ctlTaken { base := 0x10000 } (1 + 8 * 2 ^ 8 + 2 ^ 16)
       s.takes (pageBase 5 + 0x2C) v = true ∧ winRing s 5 = some 1024 ∧ bit v.toNat 0 = true ∧ (s.ring 1024).st = .disabled
         ∧ enableHeld t 1024 = false ∧ (t.ring 1024).nrEn = true ∧ (t.nr (t.ring 1024).nrn).enabled = false)
    ∧ (let s := windowed { base := 0x10000, st := .pendingEnable, nrEn := true, nrn := 8 }
       let t := endNote 1024 ((writeDoneHead 1024 s).modRing 1024 fun x => { x with
         st := .disabled, endFlags := 0, chained := false, flags := if x.nrEn then x.flags ||| x.endFlags else x.flags })
       ringQuiet s 1024 = true ∧ (s.ring 1024).st = .pendingEnable ∧ (t.ring 1024).nrEn = true ∧ (t.nr (t.ring 1024).nrn).enabled = false)
    ∧ (∀ m : RState, m ∈ [.enabled, .stopping] →
       let s := notified { nrEn := true, nrn := 8, st := m } { enabled := true } []
       s.takes (pageBase 5 + 0x2C) { data := 0, ic := 0 } = true ∧ winNr s 5 = some 8 ∧ (s.nr 8).enabled = true ∧ (s.nr 8).ovf = false
         ∧ (1024, s.ring 1024) ∈ s.rings ∧ (s.ring 1024).st = m ∧ (s.ring 1024).nrEn = true ∧ (s.ring 1024).nrn = 8) := by decide +kernel
theorem wit_binding_of_rings_enabled :
    (let s := { windowed { base := 0x10000, nrEn := true, nrn := 8 } with notifs := [(8, { enabled := true })] }
     ((applyEnable 1024 s).ring 1024).st = .enabled ∧ ((applyEnable 1024 s).ring 1024).nrEn = true) := by decide +kernel

end Sys2Proof.Tests
end

section
/-! PROOFS. What the shared operations of submission and notification rings do: writes leave the rings, retirement, enabling,
stopping and binding; then the two statements about retirement (R105) and binding (R135). -/

namespace Sys2Proof.Machine

/-! ### Writes queue accesses and leave the rings -/

@[simp] theorem pushAcc_rings (a : Access) (s : State) : (pushAcc a s).rings = s.rings := by
  unfold pushAcc; split <;> rfl

theorem foldl_rings {α : Type} (g : State → α → State) (h : ∀ t x, (g t x).rings = t.rings) (l : List α) (s : State) :
    (l.foldl g s).rings = s.rings := by
  induction l generalizing s with
  | nil => rfl
  | cons x l ih => rw [List.foldl_cons, ih, h]

@[simp] theorem startWrite_rings (i addr : Nat) (data : List Byte) (phys : Bool) (own : Owner) (dp : Bool) (s : State) :
    (startWrite i addr data phys own dp s).rings = s.rings :=
  foldl_rings _ (fun _ _ => pushAcc_rings _ _) _ _

@[simp] theorem writeDoneHead_rings (n : Nat) (s : State) : (writeDoneHead n s).rings = s.rings :=
  startWrite_rings ..

@[simp] theorem retireWrites_rings (n : Nat) (it : RobItem) (r : Res) (s : State) :
    (retireWrites n it r s).rings = s.rings := by
  have h (a : Nat × Nat → Nat) (b : Nat × Nat → List Byte) (o : Owner) (d : Bool) (t : State) :
      (it.ent.headers.foldl (fun t x => startWrite (ringInst s n) (a x) (b x) false o d t) t).rings = t.rings :=
    foldl_rings _ (fun _ _ => startWrite_rings ..) _ _
  unfold retireWrites
  dsimp only
  rw [h, h]
  split <;> split <;> simp

theorem State.ring_eq_of_rings {s t : State} (h : s.rings = t.rings) (n : Nat) : s.ring n = t.ring n := by
  simp [State.ring, h]

/-! ### Retirement (R105, R121, R122) -/

/-- A data ring retires a chain without a written IV by its statuses and its headers alone. -/
theorem retireWrites_chain {s : State} {n : Nat} {it : RobItem} (hctl : isControl s n = false) (hiv : it.iv = [])
    (hchain : it.ent.chain ≠ []) (r : Res) :
    retireWrites n it r s =
      it.ent.chain.foldl (fun t h => startWrite (ringInst s n) ((s.ring n).addr h.1) (natLe 8 (h.2 % 2 ^ 63)) false
          (.ringWr n it.ent.slot) true t)
        (it.ent.chain.foldl (fun t h => startWrite (ringInst s n) ((s.ring n).addr h.1 + 8) (natLe 8 (statusWord r)) false
          (.ringWr n it.ent.slot) true t) s) := by
  simp [retireWrites, ringDp, Entry.headers, hctl, hiv, hchain]

theorem retireOne_rob (n : Nat) (it : RobItem) (r : Res) (s : State) :
    ((retireOne n it r s).ring n).rob = (s.ring n).rob.drop 1 := by
  simp [retireOne, State.ring_eq_of_rings (retireWrites_rings n it r s)]

/-- A burst goes on from a finished head entry, unless that is IRQ_NOW. -/
theorem retireRun_finished {s : State} {n : Nat} {it : RobItem} {rest : List RobItem} {r : Res}
    (hrob : (s.ring n).rob = it :: rest) (hfin : it.fin = some r) (fuel : Nat) :
    retireRun (fuel + 1) n s =
      if hIrq it.ent.hdr then (retireOne n it r s, true) else retireRun fuel n (retireOne n it r s) := by
  simp [retireRun, hrob, hfin]

/-- A burst ends where no finished entry is at the head. -/
theorem retireRun_unfinished {s : State} {n : Nat}
    (h : ((s.ring n).rob.head?.map fun x => x.fin.isSome).getD false = false) (fuel : Nat) :
    retireRun fuel n s = (s, false) := by
  cases fuel with
  | zero => rfl
  | succ f =>
    cases hrob : (s.ring n).rob with
    | nil => simp [retireRun, hrob]
    | cons it rest =>
      have hfin : it.fin = none := by simpa [hrob] using h
      simp [retireRun, hrob, hfin]

theorem retireBurst_irq {s : State} {n : Nat} {it : RobItem} {rest : List RobItem} {r : Res}
    (hrob : (s.ring n).rob = it :: rest) (hfin : it.fin = some r) (hirq : hIrq it.ent.hdr = true) :
    retireBurst n s = noteRing n true (writeDoneHead n (retireOne n it r s)) := by
  simp [retireBurst, retireRun_finished hrob hfin, hirq]

theorem retireBurst_one {s : State} {n : Nat} {it : RobItem} {rest : List RobItem} {r : Res}
    (hrob : (s.ring n).rob = it :: rest) (hfin : it.fin = some r) (hirq : hIrq it.ent.hdr = false)
    (hrest : (rest.head?.map fun x => x.fin.isSome).getD false = false) :
    retireBurst n s = noteRing n false (writeDoneHead n (retireOne n it r s)) := by
  have hnext : (((retireOne n it r s).ring n).rob.head?.map fun x => x.fin.isSome).getD false = false := by
    rw [retireOne_rob, hrob]; exact hrest
  simp [retireBurst, retireRun_finished hrob hfin, hirq, retireRun_unfinished hnext]

theorem exec_entryRetire {s : State} {n : RingId} {it : RobItem} {rest : List RobItem} {r : Res}
    (hmay : mayRetire s n.val = true) (hrob : (s.ring n.val).rob = it :: rest) (hfin : it.fin = some r) :
    exec (.entryRetire n) s = .next (conclude (retireBurst n.val s)) := by
  change execEntryRetire n s = _
  simp [execEntryRetire, hmay, hrob, hfin]

/-- Settles O23: a run over one finished entry retires it and stops, at IRQ_NOW or at the unfinished entry behind it, and a chain's
headers are what its retirement writes. -/
theorem entriesRetire : Obligations.EntriesRetire := by
  unfold Obligations.EntriesRetire
  refine ⟨?burst, ?chain, ?joined⟩
  case burst =>
    intro s n it rest r hmay hrob hfin
    rw [exec_entryRetire hmay hrob hfin]
    exact ⟨fun hirq => by rw [retireBurst_irq hrob hfin hirq],
      fun hirq hrest => by rw [retireBurst_one hrob hfin hirq hrest]⟩
  case chain =>
    intro s n it r hctl hiv hchain
    rw [retireOne, retireWrites_chain hctl hiv hchain]
    rfl
  case joined => exact fun c v => ⟨rfl, rfl⟩

/-! ### Binding to a notification ring (R135) -/

/-- R135 bars the binding that ring `n` is configured with: its notification ring has another owner, or is not ENABLED. -/
def BindBarred (s : State) (n : Nat) : Prop :=
  (s.ring n).nrEn = true ∧ (nrOwner s (s.ring n).nrn ≠ ringOwner s n ∨ (s.nr (s.ring n).nrn).enabled = false)

theorem ringCfgBad_of_bindBarred {s : State} {n : Nat} (h : BindBarred s n) : ringCfgBad s n = true := by
  obtain ⟨hen, hbar⟩ := h
  simp only [ringCfgBad, hen, Bool.true_and, Bool.or_eq_true, bne_iff_ne, Bool.not_eq_true']
  exact .inr hbar

theorem bindable_of_ringCfgOk {s : State} {n : Nat} (h : ringCfgBad s n = false) (hen : (s.ring n).nrEn = true) :
    nrOwner s (s.ring n).nrn = ringOwner s n ∧ (s.nr (s.ring n).nrn).enabled = true := by
  by_contra hnot
  have hbad : ringCfgBad s n = true := ringCfgBad_of_bindBarred ⟨hen, by
    simpa only [not_and_or, Bool.not_eq_true] using hnot⟩
  simp [h] at hbad

theorem applyEnable_refused {s : State} {n : Nat} (h : ringCfgBad s n = true) :
    applyEnable n s = s.modRing n fun r => { r with st := .disabled, cfgErr := true } := by
  simp [applyEnable, h]

theorem applyEnable_barred {s : State} {n : Nat} (h : BindBarred s n) :
    applyEnable n s = s.modRing n fun r => { r with st := .disabled, cfgErr := true } :=
  applyEnable_refused (ringCfgBad_of_bindBarred h)

/-- An enable keeps the binding that the ring is configured with. -/
theorem applyEnable_binding (n : Nat) (s : State) :
    ((applyEnable n s).ring n).nrn = (s.ring n).nrn ∧ ((applyEnable n s).ring n).nrEn = (s.ring n).nrEn := by
  unfold applyEnable
  split
  · simp
  · simp [State.ring_eq_of_rings (writeDoneHead_rings _ _)]

theorem ringCfgOk_of_applyEnable_enabled {s : State} {n : Nat} (h : ((applyEnable n s).ring n).st = .enabled) :
    ringCfgBad s n = false := by
  by_contra hbad
  rw [applyEnable_refused (by simpa using hbad)] at h
  simp at h

@[simp] theorem winRing_answered (s : State) (path : Path) (i : Nat) : winRing (s.answered path) i = winRing s i := by
  cases path <;> rfl

@[simp] theorem winNr_answered (s : State) (path : Path) (i : Nat) : winNr (s.answered path) i = winNr s i := by
  cases path <;> rfl

theorem exec_ringEnable {s : State} {page : InstId} {v : RapWord} {n : Nat} (ht : s.takes (pageBase page.val + 0x2C) v = true)
    (hw : winRing s page.val = some n) (hv : bit v.toNat 0 = true) :
    exec (.ringEnable page v) s = .next (conclude (ringCtl n v.toNat (s.answered .rap))) := by
  change execRingEnable page v s = _
  simp [execRingEnable, rapDo_takes ht, hw, hv]

theorem exec_nrDisable {s : State} {page : InstId} {v : RapWord} {k : Nat} (ht : s.takes (pageBase page.val + 0x2C) v = true)
    (hw : winNr s page.val = some k) (hv : bit v.toNat 0 = false) :
    exec (.nrDisable page v) s = .next (conclude (nrCtl k v.toNat (s.answered .rap))) := by
  change execNrDisable page v s = _
  simp [execNrDisable, rapDo_takes ht, hw, hv]

theorem exec_ringStopComplete {s : State} {n : RingId} (hq : ringQuiet s n.val = true)
    (hst : (s.ring n.val).st = .pendingEnable) :
    exec (.ringStopComplete n) s = .next (conclude (ringStopped n.val s)) := by
  change execRingStopComplete n s = _
  simp [execRingStopComplete, hq, hst]

theorem ringConfig_st (n v : Nat) (s : State) : ((ringConfig n v s).ring n).st = (s.ring n).st := by
  simp only [ringConfig, State.ring_modRing]
  split
  · rfl
  · split <;> rfl

theorem enableRing_disabled {s : State} {n : Nat} (hst : (s.ring n).st = .disabled) (hheld : enableHeld s n = false) :
    enableRing n s = applyEnable n s := by
  simp [enableRing, hst, hheld]

/-- ENABLE = 1 on a DISABLED ring applies at once, after the rest of the word. -/
theorem ringCtl_enable {s t : State} {n v : Nat}
    (htaken : ringConfig n v (s.modRing n fun r => { r with fault := r.fault && !bit v 5, cfgErr := r.cfgErr && !bit v 6 }) = t)
    (hv : bit v 0 = true) (hst : (s.ring n).st = .disabled) (hheld : enableHeld t n = false) :
    ringCtl n v s = applyEnable n t := by
  have hst' : (t.ring n).st = .disabled := by rw [← htaken, ringConfig_st]; simpa using hst
  simp [ringCtl, htaken, hv, hst', hheld, enableRing_disabled hst' hheld]

/-- An ENABLED or STOPPING ring of the table with record writing on is bound to its notification ring. -/
theorem nrBound_of_mem {s : State} {n k : Nat} (hmem : (n, s.ring n) ∈ s.rings)
    (hst : (s.ring n).st = .enabled ∨ (s.ring n).st = .stopping) (hen : (s.ring n).nrEn = true) (hk : (s.ring n).nrn = k) :
    nrBound s k = true :=
  List.any_eq_true.mpr ⟨_, hmem, by simpa [hen, hk] using hst⟩

theorem nrBound_congr {s t : State} (h : s.rings = t.rings) (k : Nat) : nrBound s k = nrBound t k := by
  simp [nrBound, h]

/-- ENABLE = 0 on a notification ring that is bound only sets CFG_ERR. -/
theorem nrDisable_bound {s : State} {k : Nat} (hen : (s.nr k).enabled = true) (hb : nrBound s k = true) :
    nrDisable k s = s.modNr k fun x => { x with cfgErr := true } := by
  simp [nrDisable, hen, hb]

/-- The same write of RING_CTL, where no NR_OVF is to be cleared: the rest of the word is taken, and CFG_ERR is set. -/
theorem nrCtl_bound {s : State} {k v : Nat} (hv : bit v 0 = false) (hen : (s.nr k).enabled = true) (hovf : (s.nr k).ovf = false)
    (hb : nrBound s k = true) :
    nrCtl k v s = (s.modNr k fun r =>
      { r with fault := r.fault && !bit v 5, cfgErr := r.cfgErr && !bit v 6, ovf := r.ovf && !bit v 7, vec := fld v 8 3,
               irqEn := bit v 11, holdoff := fld v 12 8 }).modNr k fun x => { x with cfgErr := true } := by
  simp only [nrCtl, hv, hovf, Bool.false_and, Bool.false_eq_true, if_false]
  rw [nrDisable_bound (by simpa using hen) (by rw [nrBound_congr (State.modNr_rings ..), hb])]

/-- Settles O59: an enable goes through `applyEnable`, which refuses a barred binding, and a bound notification ring refuses
ENABLE = 0. -/
theorem bindingOfRings : Obligations.BindingOfRings := by
  unfold Obligations.BindingOfRings
  refine ⟨?applied, ?atOnce, ?afterStop, ?bound⟩
  case applied =>
    refine fun s n => ⟨applyEnable_barred, ?_⟩
    rintro _ rfl hst hen
    obtain ⟨hnrn, hnrEn⟩ := applyEnable_binding n s
    rw [hnrn]
    exact bindable_of_ringCfgOk (ringCfgOk_of_applyEnable_enabled hst) (hnrEn ▸ hen)
  case atOnce =>
    intro s page v n ht hw t hv hst hheld hbar
    rw [exec_ringEnable ht hw hv, ringCtl_enable rfl hv (by simpa using hst) hheld, applyEnable_barred hbar]
  case afterStop =>
    intro s n hq hst r t hbar
    have hstop : ringStopped n.val s = applyEnable n.val t := by simp [ringStopped, hst, t]
    rw [exec_ringStopComplete hq hst, hstop, applyEnable_barred hbar]
  case bound =>
    intro s page v k n ht hw hv hen hovf hmem hst hnrEn hnrn
    have hb : nrBound (s.answered .rap) k = true := by
      rw [nrBound_congr (State.answered_rings s .rap), nrBound_of_mem hmem hst hnrEn hnrn]
    refine ⟨_, exec_nrDisable ht hw hv, ?_⟩
    rw [nrCtl_bound hv (by simpa using hen) (by simpa using hovf) hb]
    exact ⟨by simpa using hen, by simp, State.ring_eq_of_rings (by simp) n⟩

end Sys2Proof.Machine
end

section
/-! PROOFS. What `sendVector` does with an event of a masked and of an unmasked vector, and what a write of INST_VEC_CTL does; then the
statement about masked and unmasked vectors (R422). -/

namespace Sys2Proof.Machine

/-! ### Events of a vector (R421, R422) -/

theorem sendVector_masked {s : State} {i v : Nat} (h : (s.inst i).mask.toNat.testBit v = true) (dp : Bool) :
    sendVector i v dp s = s.modInst i fun x =>
      { x with pend := x.pend ||| BitVec.ofNat 8 (2 ^ v),
               pendCp := if dp then x.pendCp else x.pendCp ||| BitVec.ofNat 8 (2 ^ v) } := by
  simp [sendVector, h]

theorem sendVector_masked_pend {s : State} {i v : Nat} (h : (s.inst i).mask.toNat.testBit v = true) (dp : Bool) :
    ((sendVector i v dp s).inst i).pend = (s.inst i).pend ||| BitVec.ofNat 8 (2 ^ v) := by
  rw [sendVector_masked h, State.inst_modInst]

theorem sendVector_masked_mem {s : State} {i v : Nat} (h : (s.inst i).mask.toNat.testBit v = true) (dp : Bool) :
    (sendVector i v dp s).mem = s.mem := by
  rw [sendVector_masked h, State.modInst_mem]

theorem sendVector_unmasked {s : State} {i v : Nat} (h : (s.inst i).mask.toNat.testBit v = false)
    (haddr : (tget (s.inst i).vecs (0, 0) v).1 ≠ 0) (dp : Bool) :
    sendVector i v dp s = pushAcc { inst := i, op := .writeMask, addr := (tget (s.inst i).vecs (0, 0) v).1, phys := true, len := 4,
                                    data := natLe 4 (tget (s.inst i).vecs (0, 0) v).2.toNat, own := .vec i, dp := dp } s := by
  rw [sendVector, if_neg (by simp [h]), if_neg haddr]

/-! ### A write of INST_VEC_CTL (R422) -/

theorem filter_range_eight {p : Nat → Bool} {v : Fin 8} (h : ∀ u : Fin 8, p u.val = true ↔ u = v) :
    (List.range 8).filter p = [v.val] := by
  have hp : ∀ n ∈ List.range 8, p n = (n == v.val) := fun n hn => by
    rw [Bool.eq_iff_iff, h ⟨n, List.mem_range.mp hn⟩, Fin.ext_iff, beq_iff_eq]
  have hone : ∀ u : Fin 8, (List.range 8).filter (· == u.val) = [u.val] := by decide
  rw [List.filter_congr hp, hone v]

/-- A word that unmasks one pending vector clears the PEND bit of that vector alone and sends one message, of that vector. -/
theorem vecCtl_frees_one {s : State} {i w : Nat} {v : Fin 8}
    (h : ∀ u : Fin 8, ((s.inst i).mask.toNat.testBit u.val = true ∧ (s.inst i).pend.toNat.testBit u.val = true ∧
      bit w u.val = false) ↔ u = v) :
    vecCtl i w s = sendVector i v.val (!(s.inst i).pendCp.toNat.testBit v.val) (s.modInst i fun x =>
      { x with mask := BitVec.ofNat 8 w, lost := x.lost && !bit w 16,
               pend := x.pend &&& ~~~(BitVec.ofNat 8 (2 ^ v.val)), pendCp := x.pendCp &&& ~~~(BitVec.ofNat 8 (2 ^ v.val)) }) := by
  have hfreed : (List.range 8).filter (fun n => (s.inst i).mask.toNat.testBit n && (s.inst i).pend.toNat.testBit n && !bit w n)
      = [v.val] := filter_range_eight fun u => by simpa [and_assoc] using h u
  simp [vecCtl, hfreed]

theorem exec_vectorUnmask {s : State} {page : InstId} {w : RapWord} (ht : s.takes (pageBase page.val + 4) w = true) :
    exec (.vectorUnmask page w) s = .next (conclude (vecCtl page.val w.toNat (s.answered .rap))) := by
  change execVectorUnmask page w s = _
  simp [execVectorUnmask, rapDo_takes ht]

/-- Settles O22: a masked event only ORs the vector's bit into PEND, which a second one finds set, and the vectors that a write of
INST_VEC_CTL frees are the pending ones whose mask bit it clears. -/
theorem interruptVectors : Obligations.InterruptVectors := by
  unfold Obligations.InterruptVectors
  refine ⟨?masked, ?unmasked, ?cleared⟩
  case masked =>
    intro s i v dp hmask t
    have hmask' : (t.inst i).mask = (s.inst i).mask := by simp [t]
    have hpend : (t.inst i).pend = (s.inst i).pend ||| BitVec.ofNat 8 (2 ^ v) := by simp only [t, State.inst_modInst]
    refine ⟨sendVector_masked hmask dp, State.modInst_mem .., hmask', ?_, sendVector_masked_mem (hmask' ▸ hmask) dp⟩
    rw [sendVector_masked_pend (hmask' ▸ hmask), hpend, BitVec.or_assoc, BitVec.or_self]
  case unmasked => exact fun s i v dp hmask haddr => sendVector_unmasked hmask haddr dp
  case cleared =>
    intro s page w v ht hfreed
    rw [exec_vectorUnmask ht, vecCtl_frees_one (by simpa using hfreed), State.answered_inst]

end Sys2Proof.Machine
end

section
/-! PROOFS. What one command and one step do to the queue and the fuses; then the statements about the queue, the lifecycle and the
Silver root (R360, R361, R493), and that every command answers a next state. -/

namespace Sys2Proof.Machine
open Sys2Proof.Laws

/-! ### One command -/

/-- What a command may do to the queue and the fuses: fuse a Silver root of 256 bits where none is in DEPLOYED, or advance the lifecycle. -/
structure State.Advances (s t : State) : Prop where
  pending : t.pending = s.pending
  silver : t.silver = s.silver ∨ (s.silver = none ∧ s.life = .deployed ∧ t.life = .deployed ∧ ∃ k, k.length = 32 ∧ t.silver = some k)
  life : t.life = s.life ∨ (s.life = .manufacture ∧ t.life = .deployed) ∨ (s.life ≠ .terminated ∧ t.life = .terminated)

theorem State.Advances.of_keep {s t : State} (h : t.keep = s.keep) : s.Advances t :=
  ⟨State.keep_pending h, .inl (State.keep_silver h), .inl (State.keep_life h)⟩

theorem State.Advances.of_fused {s t : State} (h : s.fused t) : s.Advances t := by
  obtain ⟨hpending, hlife, hsilver | ⟨hnone, hdeployed, hkey⟩⟩ := h
  · exact ⟨hpending, .inl hsilver, .inl hlife⟩
  · exact ⟨hpending, .inr ⟨hnone, hdeployed, hlife.trans hdeployed, hkey⟩, .inl hlife⟩

theorem State.Advances.rank_le {s t : State} (h : s.Advances t) : s.life.rank ≤ t.life.rank := by
  obtain hlife | ⟨hs, ht⟩ | ⟨-, ht⟩ := h.life
  · rw [hlife]
  · simp [hs, ht, Lifecycle.rank]
  · rw [ht]; cases s.life <;> decide

theorem State.Advances.silver_kept {s t : State} (h : s.Advances t) {k : List Byte} (hk : s.silver = some k) : t.silver = some k := by
  obtain hsilver | ⟨hnone, -⟩ := h.silver
  · rw [hsilver, hk]
  · simp [hnone] at hk

theorem State.Advances.silverSound {s t : State} (h : s.Advances t) (hs : s.silverSound) : t.silverSound := by
  obtain ⟨hblank, hlen⟩ := hs
  obtain hsilver | ⟨-, -, hdeployed, k, hk, hsilver⟩ := h.silver
  · have hback : t.life = .manufacture → s.life = .manufacture := fun ht => by
      obtain hlife | ⟨-, hl⟩ | ⟨-, hl⟩ := h.life
      · rw [← hlife, ht]
      · simp [ht] at hl
      · simp [ht] at hl
    exact ⟨fun ht => hsilver ▸ hblank (hback ht), fun k hk => hlen k (hsilver ▸ hk)⟩
  · exact ⟨fun ht => by simp [ht] at hdeployed, fun k' hk' => by simp_all⟩

/-- A command keeps the queue and advances the fuses at most: three rows reach them, and every other row keeps them. -/
theorem exec_advances (c : Instr) {s t : State} (h : exec c s = .next t) : s.Advances t := by
  cases c with
  | mainPgRise _ => exact .of_fused (execMainPgRise_fused _ _ h)
  | startUpComplete _ => exact .of_fused (execStartUpComplete_fused _ _ h)
  | lcCommit _ _ =>
    obtain ⟨hpending, hsilver, hlife⟩ := execLcCommit_fuses _ _ _ h
    exact ⟨hpending, .inl hsilver, hlife⟩
  | mainPgFall => exact .of_keep (execMainPgFall_keep _ h)
  | attReqRise => exact .of_keep (execAttReqRise_keep _ h)
  | detReqRise => exact .of_keep (execDetReqRise_keep _ h)
  | detReqFall _ => exact .of_keep (execDetReqFall_keep _ _ h)
  | detachDrainLimit => exact .of_keep (execDetachDrainLimit_keep _ h)
  | doorbell _ _ => exact .of_keep (execDoorbell_keep _ _ _ h)
  | autoSweep _ => exact .of_keep (execAutoSweep_keep _ _ h)
  | scanContinue _ => exact .of_keep (execScanContinue_keep _ _ h)
  | hmpResponse _ _ _ _ _ => exact .of_keep (execHmpResponse_keep _ _ _ _ _ _ h)
  | hmpTimeout _ => exact .of_keep (execHmpTimeout_keep _ _ h)
  | hmpMapWrite _ _ => exact .of_keep (execHmpMapWrite_keep _ _ _ h)
  | hmpMoveComplete _ => exact .of_keep (execHmpMoveComplete_keep _ _ h)
  | hmpReturn _ _ => exact .of_keep (execHmpReturn_keep _ _ _ h)
  | ringSelWrite _ _ => exact .of_keep (execRingSelWrite_keep _ _ _ h)
  | ringEnable _ _ => exact .of_keep (execRingEnable_keep _ _ _ h)
  | ringStop _ _ => exact .of_keep (execRingStop_keep _ _ _ h)
  | ringStopComplete _ => exact .of_keep (execRingStopComplete_keep _ _ h)
  | nrEnable _ _ => exact .of_keep (execNrEnable_keep _ _ _ h)
  | nrDisable _ _ => exact .of_keep (execNrDisable_keep _ _ _ h)
  | nrOvfClear _ _ => exact .of_keep (execNrOvfClear_keep _ _ _ h)
  | ringInv _ _ => exact .of_keep (execRingInv_keep _ _ _ h)
  | ringInvComplete _ => exact .of_keep (execRingInvComplete_keep _ _ h)
  | configRegisterWrite _ _ _ => exact .of_keep (execConfigRegisterWrite_keep _ _ _ _ h)
  | rapUnmappedAccess _ _ => exact .of_keep (execRapUnmappedAccess_keep _ _ _ h)
  | schedulerRound _ => exact .of_keep (execSchedulerRound_keep _ _ h)
  | admission _ => exact .of_keep (execAdmission_keep _ _ h)
  | vaultFetch _ => exact .of_keep (execVaultFetch_keep _ _ h)
  | vaultFetchComplete _ => exact .of_keep (execVaultFetchComplete_keep _ _ h)
  | contextEviction _ => exact .of_keep (execContextEviction_keep _ _ h)
  | evictionSeal _ => exact .of_keep (execEvictionSeal_keep _ _ h)
  | segmentBoundary _ _ => exact .of_keep (execSegmentBoundary_keep _ _ _ h)
  | jobComplete _ => exact .of_keep (execJobComplete_keep _ _ h)
  | cometCombine _ _ => exact .of_keep (execCometCombine_keep _ _ _ h)
  | entryRetire _ => exact .of_keep (execEntryRetire_keep _ _ h)
  | notificationRecord _ => exact .of_keep (execNotificationRecord_keep _ _ h)
  | interruptHoldoffExpiry _ => exact .of_keep (execInterruptHoldoffExpiry_keep _ _ h)
  | vectorUnmask _ _ => exact .of_keep (execVectorUnmask_keep _ _ _ h)
  | faultRecordWrite _ => exact .of_keep (execFaultRecordWrite_keep _ _ h)
  | streamFrameEof _ _ => exact .of_keep (execStreamFrameEof_keep _ _ _ h)
  | sitLookup _ => exact .of_keep (execSitLookup_keep _ _ h)
  | sitLockRetry _ => exact .of_keep (execSitLockRetry_keep _ _ h)
  | sitEventWrite _ => exact .of_keep (execSitEventWrite_keep _ _ h)
  | sitEventMemoryExpiry => exact .of_keep (execSitEventMemoryExpiry_keep _ h)
  | sitInterruptHoldoff _ => exact .of_keep (execSitInterruptHoldoff_keep _ _ h)
  | sitEnable _ _ => exact .of_keep (execSitEnable_keep _ _ _ h)
  | sitStop _ _ => exact .of_keep (execSitStop_keep _ _ _ h)
  | sitStopComplete _ => exact .of_keep (execSitStopComplete_keep _ _ h)
  | frameCommit _ => exact .of_keep (execFrameCommit_keep _ _ h)
  | egressFrameStart _ _ => exact .of_keep (execEgressFrameStart_keep _ _ _ h)
  | egressFrameDone _ => exact .of_keep (execEgressFrameDone_keep _ _ h)
  | watermarkWrite _ _ _ => exact .of_keep (execWatermarkWrite_keep _ _ _ _ h)
  | gateEdge _ => exact .of_keep (execGateEdge_keep _ _ h)
  | gateChange _ _ => exact .of_keep (execGateChange_keep _ _ _ h)
  | gateEnable _ _ => exact .of_keep (execGateEnable_keep _ _ _ h)
  | gateDisable _ _ => exact .of_keep (execGateDisable_keep _ _ _ h)
  | gateTakeover _ => exact .of_keep (execGateTakeover_keep _ _ h)
  | policerEnable _ => exact .of_keep (execPolicerEnable_keep _ _ h)
  | policerStop _ => exact .of_keep (execPolicerStop_keep _ _ h)
  | policerStopComplete _ _ => exact .of_keep (execPolicerStopComplete_keep _ _ _ h)
  | policerApply _ => exact .of_keep (execPolicerApply_keep _ _ h)
  | shaperConfig _ => exact .of_keep (execShaperConfig_keep _ _ h)
  | shaperRefill _ => exact .of_keep (execShaperRefill_keep _ _ h)
  | tenantEventWindow _ => exact .of_keep (execTenantEventWindow_keep _ _ h)
  | laneRateWindow _ => exact .of_keep (execLaneRateWindow_keep _ _ h)
  | privilegedFifoRead _ _ => exact .of_keep (execPrivilegedFifoRead_keep _ _ _ h)
  | ordinaryFifoRead _ => exact .of_keep (execOrdinaryFifoRead_keep _ _ h)
  | counterRead _ _ => exact .of_keep (execCounterRead_keep _ _ _ h)
  | timeRead _ => exact .of_keep (execTimeRead_keep _ _ h)
  | measRead _ _ _ => exact .of_keep (execMeasRead_keep _ _ _ _ h)
  | i3cPointerWrite _ => exact .of_keep (execI3cPointerWrite_keep _ _ h)
  | i3cRegisterWrite _ _ => exact .of_keep (execI3cRegisterWrite_keep _ _ _ h)
  | i3cRefusedWrite _ => exact .of_keep (execI3cRefusedWrite_keep _ _ h)
  | i3cPrivateRead _ => exact .of_keep (execI3cPrivateRead_keep _ _ h)
  | entdaa _ => exact .of_keep (execEntdaa_keep _ _ h)
  | setdasa _ => exact .of_keep (execSetdasa_keep _ _ h)
  | enec => exact .of_keep (execEnec_keep _ h)
  | disec => exact .of_keep (execDisec_keep _ h)
  | rstdaa => exact .of_keep (execRstdaa_keep _ h)
  | setmwl _ => exact .of_keep (execSetmwl_keep _ _ h)
  | getmwl => exact .of_keep (execGetmwl_keep _ h)
  | getmrl => exact .of_keep (execGetmrl_keep _ h)
  | getpid => exact .of_keep (execGetpid_keep _ h)
  | getbcr => exact .of_keep (execGetbcr_keep _ h)
  | getdcr => exact .of_keep (execGetdcr_keep _ h)
  | getstatus => exact .of_keep (execGetstatus_keep _ h)
  | tpTodSample _ _ => exact .of_keep (execTpTodSample_keep _ _ _ h)
  | tpPpsEdge _ => exact .of_keep (execTpPpsEdge_keep _ _ h)
  | tpClockStopped => exact .of_keep (execTpClockStopped_keep _ h)
  | tpPpsMissing => exact .of_keep (execTpPpsMissing_keep _ h)
  | portClockStop _ => exact .of_keep (execPortClockStop_keep _ _ h)
  | portClockReturn _ => exact .of_keep (execPortClockReturn_keep _ _ h)
  | srpAckRise => exact .of_keep (execSrpAckRise_keep _ h)
  | srpAckFall => exact .of_keep (execSrpAckFall_keep _ h)
  | srpTimeout => exact .of_keep (execSrpTimeout_keep _ h)
  | srpTimeoutClear _ => exact .of_keep (execSrpTimeoutClear_keep _ _ h)
  | bellowsStep => exact .of_keep (execBellowsStep_keep _ h)
  | forgeGate _ => exact .of_keep (execForgeGate_keep _ _ h)
  | forgeWakeComplete _ => exact .of_keep (execForgeWakeComplete_keep _ _ h)
  | bellowsFault => exact .of_keep (execBellowsFault_keep _ h)
  | zeroiseNLow => exact .of_keep (execZeroiseNLow_keep _ h)
  | bypass => exact .of_keep (execBypass_keep _ h)
  | idcode => exact .of_keep (execIdcode_keep _ h)
  | samplePreload => exact .of_keep (execSamplePreload_keep _ h)
  | extest => exact .of_keep (execExtest_keep _ h)
  | clamp => exact .of_keep (execClamp_keep _ h)
  | highz => exact .of_keep (execHighz_keep _ h)
  | dbgChallenge => exact .of_keep (execDbgChallenge_keep _ h)
  | dbgResponse _ => exact .of_keep (execDbgResponse_keep _ _ h)
  | tamperSourceChange _ _ _ _ => exact .of_keep (execTamperSourceChange_keep _ _ _ _ _ h)
  | tamperDebounceExpiry _ => exact .of_keep (execTamperDebounceExpiry_keep _ _ h)
  | tamperRearmExpiry _ => exact .of_keep (execTamperRearmExpiry_keep _ _ h)
  | detectorDisagree _ => exact .of_keep (execDetectorDisagree_keep _ _ h)
  | detectorSelfTest _ _ => exact .of_keep (execDetectorSelfTest_keep _ _ _ h)
  | detectorSelfTestTimeout _ _ => exact .of_keep (execDetectorSelfTestTimeout_keep _ _ _ h)
  | zeroiseVerifyComplete _ => exact .of_keep (execZeroiseVerifyComplete_keep _ _ h)
  | zeroiseFillComplete => exact .of_keep (execZeroiseFillComplete_keep _ h)
  | freezeThaw _ => exact .of_keep (execFreezeThaw_keep _ _ h)
  | fuseReread _ => exact .of_keep (execFuseReread_keep _ _ h)
  | vigilSample _ _ => exact .of_keep (execVigilSample_keep _ _ _ h)
  | xtalStop => exact .of_keep (execXtalStop_keep _ h)
  | burnishSlot _ => exact .of_keep (execBurnishSlot_keep _ _ h)
  | burnishPeriodEnd => exact .of_keep (execBurnishPeriodEnd_keep _ h)
  | bankWatchdog _ => exact .of_keep (execBankWatchdog_keep _ _ h)
  | stageFault _ => exact .of_keep (execStageFault_keep _ _ h)
  | laneSelfTest _ _ => exact .of_keep (execLaneSelfTest_keep _ _ _ h)
  | rateCheck _ _ _ => exact .of_keep (execRateCheck_keep _ _ _ _ h)
  | forgeRetireComplete _ => exact .of_keep (execForgeRetireComplete_keep _ _ h)
  | forgeRestoreTestDone _ _ => exact .of_keep (execForgeRestoreTestDone_keep _ _ _ h)
  | microcodeRotationStep _ => exact .of_keep (execMicrocodeRotationStep_keep _ _ h)
  | pipeSelfTest _ _ => exact .of_keep (execPipeSelfTest_keep _ _ _ h)
  | pipeFault _ _ => exact .of_keep (execPipeFault_keep _ _ _ h)
  | anvilSelfTest _ _ => exact .of_keep (execAnvilSelfTest_keep _ _ _ h)
  | anvilUnitFault _ _ => exact .of_keep (execAnvilUnitFault_keep _ _ _ h)
  | entropyBlockReady _ => exact .of_keep (execEntropyBlockReady_keep _ _ h)
  | entropyHealthFail _ _ => exact .of_keep (execEntropyHealthFail_keep _ _ _ h)
  | drbgReseed => exact .of_keep (execDrbgReseed_keep _ h)
  | drbgKat _ => exact .of_keep (execDrbgKat_keep _ _ h)
  | dispatcherMismatch _ => exact .of_keep (execDispatcherMismatch_keep _ _ h)
  | orreryFault _ => exact .of_keep (execOrreryFault_keep _ _ h)
  | yuhamRestartComplete => exact .of_keep (execYuhamRestartComplete_keep _ h)
  | commandTimeout _ => exact .of_keep (execCommandTimeout_keep _ _ h)
  | offerTimeout _ => exact .of_keep (execOfferTimeout_keep _ _ h)
  | faultMsgHoldoff => exact .of_keep (execFaultMsgHoldoff_keep _ h)
  | counterCheckpoint => exact .of_keep (execCounterCheckpoint_keep _ h)
  | calendarCheckpoint => exact .of_keep (execCalendarCheckpoint_keep _ h)
  | vaultEnable _ => exact .of_keep (execVaultEnable_keep _ _ h)
  | vaultDisable _ => exact .of_keep (execVaultDisable_keep _ _ h)
  | vaultInit _ => exact .of_keep (execVaultInit_keep _ _ h)
  | vaultInitComplete => exact .of_keep (execVaultInitComplete_keep _ h)
  | resealSweep => exact .of_keep (execResealSweep_keep _ h)
  | xlInvGo _ => exact .of_keep (execXlInvGo_keep _ _ h)
  | xlInvDone => exact .of_keep (execXlInvDone_keep _ h)
  | glbReset _ _ => exact .of_keep (execGlbReset_keep _ _ _ h)
  | lcArm _ => exact .of_keep (execLcArm_keep _ _ h)
  | eclipseRequest _ => exact .of_keep (execEclipseRequest_keep _ _ h)
  | eclipseQuiesceComplete => exact .of_keep (execEclipseQuiesceComplete_keep _ h)
  | eclipseEnd _ => exact .of_keep (execEclipseEnd_keep _ _ h)
  | resume _ => exact .of_keep (execResume_keep _ _ h)
  | oryAttestGo _ _ => exact .of_keep (execOryAttestGo_keep _ _ _ h)
  | h2bPost _ => exact .of_keep (execH2bPost_keep _ _ h)
  | h2bAck _ => exact .of_keep (execH2bAck_keep _ _ h)
  | b2hPost _ => exact .of_keep (execB2hPost_keep _ _ h)
  | b2hAck _ => exact .of_keep (execB2hAck_keep _ _ h)
  | mboxWordWrite _ _ _ _ => exact .of_keep (execMboxWordWrite_keep _ _ _ _ _ h)
  | pad _ => exact .of_keep (execPad_keep _ _ h)
  | symEnc _ => exact .of_keep (execSymEnc_keep _ _ h)
  | symDec _ => exact .of_keep (execSymDec_keep _ _ h)
  | macsecTx _ => exact .of_keep (execMacsecTx_keep _ _ h)
  | macsecRx _ => exact .of_keep (execMacsecRx_keep _ _ h)
  | espOut _ => exact .of_keep (execEspOut_keep _ _ h)
  | espIn _ => exact .of_keep (execEspIn_keep _ _ h)
  | digest _ => exact .of_keep (execDigest_keep _ _ h)
  | mac _ => exact .of_keep (execMac_keep _ _ h)
  | macVerify _ => exact .of_keep (execMacVerify_keep _ _ h)
  | compare _ => exact .of_keep (execCompare_keep _ _ h)
  | rsaPriv _ => exact .of_keep (execRsaPriv_keep _ _ h)
  | rsaPub _ => exact .of_keep (execRsaPub_keep _ _ h)
  | sign _ => exact .of_keep (execSign_keep _ _ h)
  | verify _ => exact .of_keep (execVerify_keep _ _ h)
  | keyAgree _ => exact .of_keep (execKeyAgree_keep _ _ h)
  | kemEncaps _ => exact .of_keep (execKemEncaps_keep _ _ h)
  | kemDecaps _ => exact .of_keep (execKemDecaps_keep _ _ h)
  | keygen _ => exact .of_keep (execKeygen_keep _ _ h)
  | random _ => exact .of_keep (execRandom_keep _ _ h)
  | nextKeyDerive _ => exact .of_keep (execNextKeyDerive_keep _ _ h)
  | nextKeyUnwrap _ => exact .of_keep (execNextKeyUnwrap_keep _ _ h)
  | controlPad _ => exact .of_keep (execControlPad_keep _ _ h)
  | instCreate _ => exact .of_keep (execInstCreate_keep _ _ h)
  | instResize _ => exact .of_keep (execInstResize_keep _ _ h)
  | instReset _ => exact .of_keep (execInstReset_keep _ _ h)
  | instResetRelease _ => exact .of_keep (execInstResetRelease_keep _ _ h)
  | instResetComplete _ => exact .of_keep (execInstResetComplete_keep _ _ h)
  | instEnable _ => exact .of_keep (execInstEnable_keep _ _ h)
  | instDisable _ => exact .of_keep (execInstDisable_keep _ _ h)
  | instDisableEclipse _ => exact .of_keep (execInstDisableEclipse_keep _ _ h)
  | instStopComplete _ => exact .of_keep (execInstStopComplete_keep _ _ h)
  | ctxLoad _ => exact .of_keep (execCtxLoad_keep _ _ h)
  | ctxEvict _ => exact .of_keep (execCtxEvict_keep _ _ h)
  | ctxEvictDelete _ => exact .of_keep (execCtxEvictDelete_keep _ _ h)
  | ctxEvictFlush _ => exact .of_keep (execCtxEvictFlush_keep _ _ h)
  | ctxPin _ => exact .of_keep (execCtxPin_keep _ _ h)
  | ctxExport _ => exact .of_keep (execCtxExport_keep _ _ h)
  | ctxImport _ => exact .of_keep (execCtxImport_keep _ _ h)
  | ctxRekey _ => exact .of_keep (execCtxRekey_keep _ _ h)
  | keyDerive _ => exact .of_keep (execKeyDerive_keep _ _ h)
  | keyUnwrap _ => exact .of_keep (execKeyUnwrap_keep _ _ h)
  | keyUnwrapKem _ => exact .of_keep (execKeyUnwrapKem_keep _ _ h)
  | keyUnwrapRestore _ => exact .of_keep (execKeyUnwrapRestore_keep _ _ h)
  | keyInvalidate _ => exact .of_keep (execKeyInvalidate_keep _ _ h)
  | hmacSlotLoad _ => exact .of_keep (execHmacSlotLoad_keep _ _ h)
  | tamperCfg _ => exact .of_keep (execTamperCfg_keep _ _ h)
  | attestPlain _ => exact .of_keep (execAttestPlain_keep _ _ h)
  | attestOffer _ => exact .of_keep (execAttestOffer_keep _ _ h)
  | attestRespond _ => exact .of_keep (execAttestRespond_keep _ _ h)
  | attestProvKey _ => exact .of_keep (execAttestProvKey_keep _ _ h)
  | attestFinish _ => exact .of_keep (execAttestFinish_keep _ _ h)
  | imageStage _ => exact .of_keep (execImageStage_keep _ _ h)
  | imageCommit _ => exact .of_keep (execImageCommit_keep _ _ h)
  | imageRollback _ => exact .of_keep (execImageRollback_keep _ _ h)
  | forgeRetire _ => exact .of_keep (execForgeRetire_keep _ _ h)
  | forgeRestore _ => exact .of_keep (execForgeRestore_keep _ _ h)
  | calibrate _ => exact .of_keep (execCalibrate_keep _ _ h)
  | ledgerWriteConfig _ => exact .of_keep (execLedgerWriteConfig_keep _ _ h)
  | vaultRotate _ => exact .of_keep (execVaultRotate_keep _ _ h)
  | ledgerWriteCheckpoint _ => exact .of_keep (execLedgerWriteCheckpoint_keep _ _ h)
  | dirtySwap _ => exact .of_keep (execDirtySwap_keep _ _ h)
  | clockSetCal _ => exact .of_keep (execClockSetCal_keep _ _ h)
  | clockSetStep _ => exact .of_keep (execClockSetStep_keep _ _ h)
  | fence _ => exact .of_keep (execFence_keep _ _ h)
  | logRead _ => exact .of_keep (execLogRead_keep _ _ h)
  | attachSequenceComplete _ => exact .of_keep (execAttachSequenceComplete_keep _ _ h)
  | forgeFailoverComplete _ _ => exact .of_keep (execForgeFailoverComplete_keep _ _ _ h)
  | commandPacketComplete _ => exact .of_keep (execCommandPacketComplete_keep _ _ h)
  | yuhamRunningTimeout => exact .of_keep (execYuhamRunningTimeout_keep _ h)
  | uncontainedFault => exact .of_keep (execUncontainedFault_keep _ h)
  | bothSuppliesLost => exact .of_keep (execBothSuppliesLost_keep _ h)
  | xtalReturn => exact .of_keep (execXtalReturn_keep _ h)
  | zeroiseNHigh => exact .of_keep (execZeroiseNHigh_keep _ h)

/-! ### One step -/

theorem calendarTick_keep (s : State) : (calendarTick s).keep = s.keep :=
  State.modVigil_keep ..

theorem step_empty {s : State} (h : s.pending = []) : step s = .next (calendarTick s) := by
  simp [step, h]

theorem step_front {s : State} {c : Instr} {rest : List Instr} (h : s.pending = c :: rest) :
    step s = exec c { s with pending := rest } := by
  simp [step, h]

/-- A step advances the state whose queue is the rest: a command does by `exec_advances`, and a crystal period keeps all of it. -/
theorem step_advances {s t : State} (h : step s = .next t) : State.Advances { s with pending := s.pending.tail } t := by
  cases hq : s.pending with
  | nil =>
    rw [step_empty hq, Host.Outcome.next.injEq] at h
    subst h
    exact .of_keep (by rw [calendarTick_keep, List.tail_nil, ← hq])
  | cons c rest => exact exec_advances c (step_front hq ▸ h)

/-- Settles O3: every command advances the fuses at most, and an advance raises the lifecycle and keeps the root. -/
theorem fusesOneWay : Obligations.FusesOneWay := by
  unfold Obligations.FusesOneWay
  exact fun s t h => ⟨(step_advances h).rank_le, fun k hk => (step_advances h).silver_kept hk⟩

/-- Settles O4: the lifecycle never goes back to MANUFACTURE, and a root is only fused with 256 bits outside it. -/
theorem silverStaysSound : Obligations.SilverStaysSound := by
  unfold Obligations.SilverStaysSound
  exact fun s t hs h => (step_advances h).silverSound hs

/-- Settles O2: no command touches the queue it finds, and a crystal period leaves the empty one. -/
theorem stepKeepsQueueOrder : Obligations.StepKeepsQueueOrder := by
  unfold Obligations.StepKeepsQueueOrder
  exact fun s t h => (step_advances h).pending

/-- Settles O1: `step` on a queue with a front. -/
theorem stepTakesFront : Obligations.StepTakesFront := by
  unfold Obligations.StepTakesFront
  exact fun c rest s h => step_front h

/-- Settles O5: the fuses are blank at reset. -/
theorem silverSoundAtReset : Obligations.SilverSoundAtReset := by
  unfold Obligations.SilverSoundAtReset
  exact ⟨fun _ => rfl, fun k hk => by simp [State.reset] at hk⟩

/-- Settles O60: every arm of `exec` is a `.next` on all its paths. -/
theorem noCommandStops : Obligations.NoCommandStops := by
  unfold Obligations.NoCommandStops
  intro c s
  cases c <;> exact ⟨_, rfl⟩

end Sys2Proof.Machine
end

section
/-! PROOFS. Lengths of the byte strings of AES-256-GCM and KMAC, and that the text of GCM undoes itself; then the statement about
envelopes (R365, R366). -/

namespace Sys2Proof.Machine

/-! ### Byte strings -/

@[simp] theorem natLe_length (len n : Nat) : (natLe len n).length = len := by
  induction len generalizing n with
  | zero => rfl
  | succ len ih => simp [natLe, ih]

@[simp] theorem natBe_length (len n : Nat) : (natBe len n).length = len := by simp [natBe]

@[simp] theorem zeros_length (n : Nat) : (zeros n).length = n := by simp [zeros]

@[simp] theorem xorBytes_length (a b : List Byte) : (xorBytes a b).length = min a.length b.length := by simp [xorBytes]

@[simp] theorem bytesAt_length (l : List Byte) (off len : Nat) : (bytesAt l off len).length = len := by
  simp [bytesAt]

theorem xorBytes_xorBytes {a k : List Byte} (h : a.length ≤ k.length) : xorBytes (xorBytes a k) k = a := by
  induction a generalizing k with
  | nil => rfl
  | cons x a ih =>
    cases k with
    | nil => simp at h
    | cons y k =>
      have htail : xorBytes (xorBytes a k) k = a := ih (by simpa using h)
      simp only [xorBytes] at htail
      simp [xorBytes, htail]

/-- A middle part of a string is what `bytesAt` gives at its place. -/
theorem bytesAt_append (a b c : List Byte) : bytesAt (a ++ b ++ c) a.length b.length = b := by
  simp [bytesAt]

/-! ### Cutting into pieces -/

theorem chunks_nil (f n : Nat) : chunks f n [] = [] := by cases f <;> simp [chunks]

theorem chunks_length_of_eq {f n : Nat} {l : List Byte} (hn : 0 < n) (h : l.length = n * f) : (chunks f n l).length = f := by
  induction f generalizing l with
  | zero => rfl
  | succ f ih =>
    have hl : l ≠ [] := by rintro rfl; simp only [List.length_nil, Nat.mul_succ] at h; omega
    have hdrop : (l.drop n).length = n * f := by rw [List.length_drop, h, Nat.mul_succ]; omega
    simp [chunks, hl, ih hdrop]

theorem length_of_mem_chunks {f n : Nat} {l w : List Byte} (h : l.length = n * f) (hw : w ∈ chunks f n l) : w.length = n := by
  induction f generalizing l with
  | zero => simp [chunks] at hw
  | succ f ih =>
    rw [Nat.mul_succ] at h
    simp only [chunks] at hw
    split at hw
    · simp at hw
    · rcases List.mem_cons.mp hw with rfl | hw
      · rw [List.length_take]; omega
      · exact ih (by rw [List.length_drop]; omega) hw

theorem flatten_length_of_all {n : Nat} {l : List (List Byte)} (h : ∀ w ∈ l, w.length = n) : l.flatten.length = n * l.length := by
  induction l with
  | nil => rfl
  | cons w l ih =>
    rw [List.flatten_cons, List.length_append, h w List.mem_cons_self, ih fun v hv => h v (List.mem_cons_of_mem _ hv),
      List.length_cons, Nat.mul_succ]
    omega

/-! ### AES-256 gives blocks of 16 bytes -/

theorem aesExpand_words (nk fuel : Nat) (hnk : 0 < nk) {i : Nat} {rcon : Byte} {ws : List (List Byte)} (hi : ws.length = i)
    (hnki : nk ≤ i) (hws : ∀ w ∈ ws, w.length = 4) :
    (aesExpand fuel nk i rcon ws).length = i + fuel ∧ ∀ w ∈ aesExpand fuel nk i rcon ws, w.length = 4 := by
  induction fuel generalizing i rcon ws with
  | zero => exact ⟨hi, hws⟩
  | succ f ih =>
    have hget (k : Nat) (hk : k < i) : (ws.getD k []).length = 4 := by
      rw [List.getD_eq_getElem _ _ (hi ▸ hk)]
      exact hws _ (List.getElem_mem _)
    have hprev := hget (i - 1) (by omega)
    have hback := hget (i - nk) (by omega)
    have hnext (w : List Byte) (hw : w.length = 4) (r : Byte) :
        (aesExpand f nk (i + 1) r (ws ++ [w])).length = i + (f + 1) ∧
          ∀ v ∈ aesExpand f nk (i + 1) r (ws ++ [w]), v.length = 4 := by
      have hstep := ih (i := i + 1) (rcon := r) (ws := ws ++ [w]) (by simp [hi]) (by omega) (by
        intro v hv
        rcases List.mem_append.mp hv with hv | hv
        · exact hws v hv
        · rw [List.mem_singleton.mp hv, hw])
      exact ⟨by rw [hstep.1]; omega, hstep.2⟩
    simp only [aesExpand]
    split
    · exact hnext _ (by rw [xorBytes_length, hback]; rfl) _
    · split
      · exact hnext _ (by rw [xorBytes_length, List.length_map, hback, hprev]; rfl) _
      · exact hnext _ (by rw [xorBytes_length, hback, hprev]; rfl) _

theorem aesKeys_lengths {key : List Byte} (h : key.length = 32) :
    (aesKeys key).length = 15 ∧ ∀ k ∈ aesKeys key, k.length = 16 := by
  obtain ⟨hlen, hwords⟩ := aesExpand_words 8 52 (by decide) (i := 8) (rcon := 1) (ws := chunks 8 4 key)
    (chunks_length_of_eq (by decide) h) le_rfl fun w => length_of_mem_chunks h
  refine ⟨by simp [aesKeys, h], fun k hk => ?_⟩
  simp only [aesKeys, h, Nat.reduceDiv, Nat.reduceAdd, Nat.reduceMul, Nat.reduceSub, List.mem_map, List.mem_range] at hk
  obtain ⟨r, hr, rfl⟩ := hk
  rw [flatten_length_of_all fun w hw => hwords w (List.mem_of_mem_drop (List.mem_of_mem_take hw)), List.length_take,
    List.length_drop, hlen]
  omega

theorem mixWith_length {l : List Byte} (a b c d : Nat) (h : l.length = 16) : (mixWith a b c d l).length = 16 := by
  unfold mixWith
  rw [flatten_length_of_all (n := 4), List.length_map, chunks_length_of_eq (by decide) h]
  intro w hw
  obtain ⟨v, -, rfl⟩ := List.mem_map.mp hw
  rfl

theorem aesRounds_length {rks : List (List Byte)} {b : List Byte} (hk : ∀ k ∈ rks, k.length = 16) (hb : b.length = 16) :
    (aesRounds rks b).length = 16 := by
  induction rks generalizing b with
  | nil => exact hb
  | cons k rks ih =>
    have hk0 : k.length = 16 := hk k List.mem_cons_self
    have hshift (x : List Byte) : (shiftRows x).length = 16 := by simp [shiftRows]
    cases rks with
    | nil => simp [aesRounds, hshift, hk0]
    | cons k' rks =>
      simp only [aesRounds]
      exact ih (fun v hv => hk v (List.mem_cons_of_mem _ hv)) (by simp [mixWith_length, hshift, hk0])

theorem aesEncBlock_length {rks : List (List Byte)} (hne : rks ≠ []) (hk : ∀ k ∈ rks, k.length = 16) (b : List Byte) :
    (aesEncBlock rks b).length = 16 := by
  obtain ⟨k, rks, rfl⟩ := List.exists_cons_of_ne_nil hne
  have hk0 : k.length = 16 := hk k List.mem_cons_self
  exact aesRounds_length (fun v hv => hk v (List.mem_cons_of_mem _ hv)) (by simp [hk0])

/-! ### The text of GCM undoes itself -/

section
variable {rks : List (List Byte)} (hblock : ∀ b, (aesEncBlock rks b).length = 16)
include hblock

theorem ctrStream_chunks_length (next : List Byte → List Byte) {f : Nat} {l : List Byte} (hf : l.length ≤ 16 * f)
    (c : List Byte) : (ctrStream rks next (chunks f 16 l) c).length = l.length := by
  induction f generalizing l c with
  | zero =>
    obtain rfl : l = [] := by simpa using hf
    rfl
  | succ f ih =>
    by_cases hl : l = []
    · simp [hl, chunks_nil, ctrStream]
    · have hrest := ih (l := l.drop 16) (by rw [List.length_drop]; omega) (next c)
      simp only [chunks, List.isEmpty_iff, hl, if_false, ctrStream, List.length_append, xorBytes_length, List.length_take, hblock,
        hrest, List.length_drop]
      omega

theorem ctrStream_ctrStream (next : List Byte → List Byte) {f : Nat} {l : List Byte} (hf : l.length ≤ 16 * f) (c : List Byte) :
    ctrStream rks next (chunks f 16 (ctrStream rks next (chunks f 16 l) c)) c = l := by
  induction f generalizing l c with
  | zero =>
    obtain rfl : l = [] := by simpa using hf
    rfl
  | succ f ih =>
    by_cases hl : l = []
    · simp [hl, chunks_nil, ctrStream]
    · have hfd : (l.drop 16).length ≤ 16 * f := by rw [List.length_drop]; omega
      have hout : ctrStream rks next (chunks (f + 1) 16 l) c
          = xorBytes (l.take 16) (aesEncBlock rks c) ++ ctrStream rks next (chunks f 16 (l.drop 16)) (next c) := by
        simp [chunks, hl, ctrStream]
      have hx : (xorBytes (l.take 16) (aesEncBlock rks c)).length = min 16 l.length := by simp [hblock]
      have hrest := ctrStream_chunks_length hblock next hfd (next c)
      rw [List.length_drop] at hrest
      have hne : ctrStream rks next (chunks (f + 1) 16 l) c ≠ [] := by
        rw [← List.length_pos_iff, hout, List.length_append, hx, hrest]
        have := List.length_pos_iff.mpr hl
        omega
      have hcut : (xorBytes (l.take 16) (aesEncBlock rks c)).length = 16 ∨
          ctrStream rks next (chunks f 16 (l.drop 16)) (next c) = [] := by
        rw [hx, ← List.length_eq_zero_iff, hrest]
        omega
      have htake : (ctrStream rks next (chunks (f + 1) 16 l) c).take 16 = xorBytes (l.take 16) (aesEncBlock rks c) := by
        rw [hout]
        rcases hcut with h | h
        · exact List.take_left' h
        · rw [h, List.append_nil, List.take_of_length_le (by omega)]
      have hdrop : (ctrStream rks next (chunks (f + 1) 16 l) c).drop 16
          = ctrStream rks next (chunks f 16 (l.drop 16)) (next c) := by
        rw [hout]
        rcases hcut with h | h
        · exact List.drop_left' h
        · rw [h, List.append_nil, List.drop_of_length_le (by omega)]
      rw [chunks, if_neg (by simpa using hne), htake, hdrop, ctrStream, ih hfd,
        xorBytes_xorBytes (by simp [hblock]), List.take_append_drop]

theorem gcmText_length (iv text : List Byte) : (gcmText rks iv text).length = text.length :=
  ctrStream_chunks_length hblock _ (by omega) _

theorem gcmText_gcmText (iv text : List Byte) : gcmText rks iv (gcmText rks iv text) = text := by
  have h := gcmText_length hblock iv text
  unfold gcmText blocks16 at h ⊢
  rw [h]
  exact ctrStream_ctrStream hblock _ (by omega) _

theorem gcmTag_length (iv aad ct : List Byte) : (gcmTag rks iv aad ct).length = 16 := by simp [gcmTag, hblock]

end

/-! ### KMAC gives as many bytes as asked, up to 136 -/

theorem keccakRound_length (a : List Nat) (rc : Nat) : (keccakRound a rc).length = 25 := rfl

theorem foldl_keccakRound_length {l : List Nat} (h : l ≠ []) (a : List Nat) : (l.foldl keccakRound a).length = 25 := by
  obtain ⟨l, x, rfl⟩ := (List.eq_nil_or_concat l).resolve_left h
  rw [List.concat_eq_append, List.foldl_append, List.foldl_cons, List.foldl_nil, keccakRound_length]

theorem keccakF_length (a : List Nat) : (keccakF a).length = 25 :=
  foldl_keccakRound_length (by simp [keccakRc]) a

theorem keccakFrom_zero_length (rate : Nat) (l : List Byte) : (keccakFrom rate keccakZero l).length = 25 := by
  unfold keccakFrom
  induction (chunks (l.length / rate + 1) rate l) using List.reverseRecOn with
  | nil => simp [keccakZero]
  | append_singleton l x _ => rw [List.foldl_append, List.foldl_cons, List.foldl_nil, keccakF_length]

theorem kmac136_length {n : Nat} (hn : n ≤ 136) (key msg custom : List Byte) : (kmac 136 key msg n custom).length = n := by
  unfold kmac sponge
  generalize hs : keccakFrom 136 keccakZero _ = st
  have hst : st.length = 25 := by rw [← hs, keccakFrom_zero_length]
  have hbytes : (st.map fun x => natLe 8 x).flatten.length = 200 := by
    rw [flatten_length_of_all (n := 8), List.length_map, hst]
    intro w hw
    obtain ⟨x, -, rfl⟩ := List.mem_map.mp hw
    exact natLe_length 8 x
  simp only [keccakSqueeze, hn, if_true, List.length_take, hbytes]
  omega

theorem wrappingKey_length (key : List Byte) : (wrappingKey key).length = 32 := kmac136_length (n := 32) (by decide) ..

/-! ### Envelopes -/

theorem envHeader_length (typ alg n : Nat) : (envHeader typ alg n).length = 16 := by simp [envHeader]

/-- A header's TYPE and ALG are its bytes 1 and 2. -/
theorem envHeader_inj {typ alg n typ' alg' n' : Nat} (h : envHeader typ alg n = envHeader typ' alg' n') :
    byte typ = byte typ' ∧ byte alg = byte alg' := by
  simp only [envHeader, List.cons_append, List.cons.injEq] at h
  exact ⟨h.2.1, h.2.2.1⟩

/-- What an envelope is made of: header, IV, ciphertext and tag, each of its length. -/
theorem envMake_parts (key : List Byte) (typ alg : Nat) (pt iv : List Byte) :
    ∃ ct tag, envMake key typ alg pt iv = envHeader typ alg pt.length ++ iv ++ ct ++ tag ∧ ct.length = pt.length ∧
      tag.length = 16 ∧ gcmDec (wrappingKey key) iv (envHeader typ alg pt.length) ct = (pt, tag) := by
  obtain ⟨hlen, hkeys⟩ := aesKeys_lengths (wrappingKey_length key)
  have hblock := aesEncBlock_length (List.ne_nil_of_length_eq_add_one hlen) hkeys
  refine ⟨_, _, rfl, gcmText_length hblock iv pt, gcmTag_length hblock .., ?_⟩
  simp [gcmDec, gcmEnc, gcmText_gcmText hblock]

/-- Settles O6: the four parts of an envelope stand at fixed places, the text of GCM undoes itself, and the header names the use. -/
theorem envelopesOpen : Obligations.EnvelopesOpen := by
  unfold Obligations.EnvelopesOpen
  intro key typ alg pt iv hiv env
  obtain ⟨ct, tag, henv, hct, htag, hdec⟩ := envMake_parts key typ alg pt iv
  have hhd := envHeader_length typ alg pt.length
  have hlen : env.length = 44 + pt.length := by simp only [env, henv, List.length_append, hhd, hiv, hct, htag]; omega
  have htake : env.take 16 = envHeader typ alg pt.length := by
    simp only [env, henv, List.append_assoc]
    rw [← hhd, List.take_left]
  refine ⟨hlen, ?opens, ?refuses⟩
  case opens =>
    have hivAt : bytesAt env 16 12 = iv := by
      have h := bytesAt_append (envHeader typ alg pt.length) iv (ct ++ tag)
      rwa [hhd, hiv, ← List.append_assoc, ← henv] at h
    have hctAt : bytesAt env 28 pt.length = ct := by
      have h := bytesAt_append (envHeader typ alg pt.length ++ iv) ct tag
      rwa [List.length_append, hhd, hiv, hct, ← henv] at h
    have htagAt : bytesAt env (28 + pt.length) 16 = tag := by
      have h := bytesAt_append (envHeader typ alg pt.length ++ iv ++ ct) tag []
      rwa [List.append_nil, List.length_append, List.length_append, hhd, hiv, hct, htag, ← henv] at h
    simp [envOpen, htake, hivAt, hctAt, htagAt, hdec, hlen]
  case refuses =>
    intro typ' alg' n hother
    unfold envOpen
    dsimp only
    refine if_neg fun hopen => ?_
    simp only [Bool.and_eq_true, decide_eq_true_eq, beq_iff_eq, htake, hlen] at hopen
    obtain ⟨⟨hn, hheader⟩, -⟩ := hopen
    obtain ⟨htyp, halg⟩ := envHeader_inj hheader
    rcases hother with h | h | h
    · exact h htyp.symm
    · exact h halg.symm
    · omega

end Sys2Proof.Machine
end

section
/-! PROOFS. What the receive update does to the number and the bitmap of its slot; then the statement about replay (R185, R186, R193). -/

namespace Sys2Proof.Machine

/-! ### Numbers as byte strings -/

theorem leNat_natLe (len n : Nat) : leNat (natLe len n) = n % 256 ^ len := by
  induction len generalizing n with
  | zero => simp [natLe, leNat, Nat.mod_one]
  | succ len ih =>
    have hbyte : (byte n).toNat = n % 256 := by simp [byte]
    rw [natLe, leNat, ih, hbyte, Nat.pow_succ', Nat.mod_mul]

theorem leNat_lt (l : List Byte) : leNat l < 256 ^ l.length := by
  induction l with
  | nil => simp [leNat]
  | cons b l ih =>
    have hb : b.toNat < 256 := b.isLt
    rw [leNat, List.length_cons, Nat.pow_succ']
    omega

theorem leAt_lt (l : List Byte) (off len : Nat) : leAt l off len < 256 ^ len := by
  simpa [leAt] using leNat_lt (bytesAt l off len)

theorem bytesAt_putBytes {l d : List Byte} {off : Nat} (h : off ≤ l.length) : bytesAt (putBytes l off d) off d.length = d := by
  have hat := bytesAt_append (l.take off) d (l.drop (off + d.length))
  rwa [List.length_take, Nat.min_eq_left h] at hat

/-! ### The slots of a receive context -/

@[simp] theorem Ctx.setRx_kind (c : Ctx) (slot n : Nat) : (c.setRx slot n).kind = c.kind := by unfold Ctx.setRx; split <;> rfl
@[simp] theorem Ctx.setRx_w (c : Ctx) (slot n : Nat) : (c.setRx slot n).w = c.w := by unfold Ctx.setRx; split <;> rfl
@[simp] theorem Ctx.setRx_replay (c : Ctx) (slot n : Nat) : (c.setRx slot n).replay = c.replay := by unfold Ctx.setRx; split <;> rfl
@[simp] theorem Ctx.rxNum_setRx (c : Ctx) (slot n : Nat) : (c.setRx slot n).rxNum slot = n := by
  unfold Ctx.rxNum Ctx.setRx; split <;> rfl
@[simp] theorem Ctx.rxNum_setBitmap (c : Ctx) (slot n k : Nat) : (c.setBitmap slot n).rxNum k = c.rxNum k := rfl

theorem Ctx.bitmap_setBitmap (c : Ctx) {slot n : Nat} (hslot : slot < 2) (hn : n < 2 ^ 64) :
    (c.setBitmap slot n).bitmap slot = n := by
  have h := bytesAt_putBytes (l := bytesAt c.tail 0 24) (d := natLe 8 n) (off := 8 + 8 * slot) (by simp; omega)
  rw [natLe_length] at h
  unfold Ctx.bitmap Ctx.setBitmap leAt
  rw [h, leNat_natLe]
  exact Nat.mod_eq_of_lt (by omega)

theorem Ctx.bitmap_lt (c : Ctx) (slot : Nat) : c.bitmap slot < 2 ^ 64 := leAt_lt ..

theorem Ctx.espWin_bounds (c : Ctx) : 32 ≤ c.espWin ∧ c.espWin ≤ 64 := by
  unfold Ctx.espWin; split <;> decide

/-! ### The update's number and bitmap (R186, R193) -/

/-- The bitmap of a window whose top moves up from `t` to `n`. -/
def movedBits (b t n : Nat) : Nat := if n - t ≥ 64 then 1 else (b * 2 ^ (n - t) + 1) % 2 ^ 64

/-- The update decides number and bitmap; the switch of keys after it leaves both, and no update changes kind, window or protection. -/
theorem Ctx.rxUpdate_fields (c : Ctx) (slot n : Nat) :
    (c.rxUpdate slot n).kind = c.kind ∧ (c.rxUpdate slot n).w = c.w ∧ (c.rxUpdate slot n).replay = c.replay := by
  unfold Ctx.rxUpdate
  dsimp only
  split <;> split <;> (try split) <;> (try split) <;> simp [Ctx.setBitmap]

theorem Ctx.rxUpdate_esp_above {c : Ctx} {slot n : Nat} (hslot : slot < 2) (hesp : isEsp c.kind = true) (hn : c.rxNum slot < n) :
    (c.rxUpdate slot n).rxNum slot = n ∧ (c.rxUpdate slot n).bitmap slot = movedBits (c.bitmap slot) (c.rxNum slot) n := by
  have hlt : movedBits (c.bitmap slot) (c.rxNum slot) n < 2 ^ 64 := by unfold movedBits; split <;> omega
  have hnum := Ctx.rxNum_setRx c slot n
  have hbits := Ctx.bitmap_setBitmap (c.setRx slot n) hslot hlt
  unfold Ctx.rxUpdate
  simp only [hesp, if_true, hn]
  split
  · exact ⟨hnum, hbits⟩
  · exact ⟨hnum, hbits⟩

theorem Ctx.rxUpdate_esp_within {c : Ctx} {slot n : Nat} (hslot : slot < 2) (hesp : isEsp c.kind = true) (hn : n ≤ c.rxNum slot) :
    (c.rxUpdate slot n).rxNum slot = c.rxNum slot ∧ (c.rxUpdate slot n).bitmap slot
      = if c.rxNum slot - n < 64 then c.bitmap slot ||| 2 ^ (c.rxNum slot - n) else c.bitmap slot := by
  unfold Ctx.rxUpdate
  simp only [hesp, if_true, Nat.not_lt.mpr hn, if_false]
  by_cases hk : c.rxNum slot - n < 64
  · have hlt := Nat.or_lt_two_pow (c.bitmap_lt slot) (Nat.pow_lt_pow_right (by decide : 1 < 2) hk)
    have hbits := Ctx.bitmap_setBitmap c hslot hlt
    simp only [hk, if_true]
    split
    · exact ⟨rfl, hbits⟩
    · exact ⟨rfl, hbits⟩
  · simp only [hk, if_false]
    split
    · exact ⟨rfl, rfl⟩
    · exact ⟨rfl, rfl⟩

theorem Ctx.rxUpdate_pn {c : Ctx} {slot n : Nat} (hesp : isEsp c.kind = false) :
    (c.rxUpdate slot n).rxNum slot = max (c.rxNum slot) (min (n + 1) (2 ^ 64 - 1)) := by
  have hnum := Ctx.rxNum_setRx c slot (max (c.rxNum slot) (min (n + 1) (2 ^ 64 - 1)))
  unfold Ctx.rxUpdate
  simp only [hesp, Bool.false_eq_true, if_false]
  split
  · exact hnum
  · exact hnum

/-- In a moved window the new top is taken, and a number in the old window keeps its bit. -/
theorem movedBits_top (b t n : Nat) (hn : t < n) : (movedBits b t n).testBit 0 = true := by
  unfold movedBits
  split
  · rfl
  · have hone : 1 < 2 ^ (n - t) := Nat.one_lt_two_pow (by omega)
    rw [Nat.testBit_mod_two_pow, Nat.mul_comm, Nat.testBit_two_pow_mul_add _ hone, if_pos (by omega)]
    rfl

theorem movedBits_old {b t n m : Nat} (hn : t < n) (hm : m ≤ t) (hin : n - m < 64) :
    (movedBits b t n).testBit (n - m) = b.testBit (t - m) := by
  have hsmall : ¬ n - t ≥ 64 := by omega
  have hone : 1 < 2 ^ (n - t) := Nat.one_lt_two_pow (by omega)
  rw [movedBits, if_neg hsmall, Nat.testBit_mod_two_pow, Nat.mul_comm, Nat.testBit_two_pow_mul_add _ hone,
    if_neg (by omega : ¬ n - m < n - t), decide_eq_true hin, Bool.true_and]
  congr 1
  omega

/-! ### The pre-check (R185, R193) -/

theorem Ctx.replayCheck_esp {c : Ctx} (hr : c.replay = true) (hesp : isEsp c.kind = true) (slot n : Nat) :
    c.replayCheck slot n =
      if n + c.espWin ≤ c.rxNum slot then some (replayRes 1)
      else if n ≤ c.rxNum slot ∧ (c.bitmap slot).testBit (c.rxNum slot - n) = true then some (replayRes 2) else none := by
  simp [Ctx.replayCheck, hr, hesp]

theorem Ctx.replayCheck_esp_ne_none {c : Ctx} (hr : c.replay = true) (hesp : isEsp c.kind = true) (slot n : Nat) :
    c.replayCheck slot n ≠ none ↔
      n + c.espWin ≤ c.rxNum slot ∨ n ≤ c.rxNum slot ∧ (c.bitmap slot).testBit (c.rxNum slot - n) = true := by
  rw [Ctx.replayCheck_esp hr hesp]
  split
  · next h => simp [h]
  · next h => simp [h]

theorem Ctx.replayCheck_pn_ne_none {c : Ctx} (hr : c.replay = true) (hesp : isEsp c.kind = false) (slot n : Nat) :
    c.replayCheck slot n ≠ none ↔ n < c.lowest slot := by
  simp [Ctx.replayCheck, hr, hesp]

/-- Settles O7: an ESP update moves the top up with its bits, or sets a bit below it, and a packet number's update only raises NextPN. -/
theorem replayWindowMovesUp : Obligations.ReplayWindowMovesUp := by
  unfold Obligations.ReplayWindowMovesUp
  intro c slot n hslot hr
  obtain ⟨hkind, hw, hr'⟩ := c.rxUpdate_fields slot n
  rw [hr] at hr'
  have hwin : (c.rxUpdate slot n).espWin = c.espWin := by simp only [Ctx.espWin, hw]
  obtain ⟨hwin32, hwin64⟩ := c.espWin_bounds
  refine ⟨?duplicate, ?rises, ?stays⟩
  case duplicate =>
    intro hesp hpass
    rw [Ctx.replayCheck_esp hr' (hkind ▸ hesp), hwin]
    have hfresh := mt (Ctx.replayCheck_esp_ne_none hr hesp slot n).mpr (not_not.mpr hpass)
    rcases Nat.lt_or_ge (c.rxNum slot) n with hn | hn
    · obtain ⟨hnum, hbits⟩ := Ctx.rxUpdate_esp_above hslot hesp hn
      rw [hnum, hbits, if_neg (by omega), if_pos ⟨le_rfl, by rw [Nat.sub_self]; exact movedBits_top _ _ _ hn⟩]
    · obtain ⟨hnum, hbits⟩ := Ctx.rxUpdate_esp_within hslot hesp hn
      rw [hnum, hbits, if_neg (by omega), if_pos (by omega : c.rxNum slot - n < 64), if_pos ⟨hn, by simp⟩]
  case rises =>
    intro hesp
    simp only [Ctx.lowest, hw, Ctx.rxUpdate_pn hesp]
    generalize 2 ^ 64 = top
    omega
  case stays =>
    intro m
    cases hesp : isEsp c.kind with
    | false =>
      rw [Ctx.replayCheck_pn_ne_none hr hesp, Ctx.replayCheck_pn_ne_none hr' (hkind ▸ hesp)]
      simp only [Ctx.lowest, hw, Ctx.rxUpdate_pn hesp]
      generalize 2 ^ 64 = top
      omega
    | true =>
      rw [Ctx.replayCheck_esp_ne_none hr hesp, Ctx.replayCheck_esp_ne_none hr' (hkind ▸ hesp), hwin]
      rcases Nat.lt_or_ge (c.rxNum slot) n with hn | hn
      · obtain ⟨hnum, hbits⟩ := Ctx.rxUpdate_esp_above hslot hesp hn
        rw [hnum, hbits]
        rintro (hold | ⟨hm, hbit⟩)
        · exact .inl (by omega)
        · rcases Nat.lt_or_ge n (m + c.espWin) with hin | hout
          · exact .inr ⟨by omega, by rw [movedBits_old hn hm (by omega), hbit]⟩
          · exact .inl hout
      · obtain ⟨hnum, hbits⟩ := Ctx.rxUpdate_esp_within hslot hesp hn
        rw [hnum, hbits]
        refine Or.imp_right fun ⟨hm, hbit⟩ => ⟨hm, ?_⟩
        split
        · rw [Nat.testBit_or, hbit, Bool.true_or]
        · exact hbit

end Sys2Proof.Machine
end

section
/-! PROOFS. Where the register groups stand in the map, and what a group reads of the state after reset; then the statement about reset
values (R507, R508). -/

namespace Sys2Proof.Machine

/-! ### The map's groups -/

theorem regShown_glb {a : Nat} (h : a < 0x400) (path : Path) (s : State) : regShown path a s = glbRead path a s := by
  simp [regShown, h]

theorem regShown_lane {a : Nat} (h : 0x1000 ≤ a) (h' : a < 0x3000) (path : Path) (s : State) : regShown path a s = laneRead a s := by
  have h1 : ¬ a < 0x400 := by omega
  have h2 : ¬ a < 0x500 := by omega
  have h3 : ¬ a < 0x1000 := by omega
  simp only [regShown, h1, h2, h3, h', if_true, if_false]

/-- Offset `o` of page `n` (R94). -/
theorem regShown_page {n o : Nat} (hn : n ≤ 128) (ho : o < 0x10000) (path : Path) (s : State) :
    regShown path (0x100000 + 0x10000 * n + o) s = pageRead n o s := by
  have hbelow (b : Nat) (hb : b ≤ 0x100000) : ¬ 0x100000 + 0x10000 * n + o < b := by omega
  have hin : 0x100000 + 0x10000 * n + o < 0x910000 := by omega
  have hpage : (0x100000 + 0x10000 * n + o - 0x100000) / 0x10000 = n := by omega
  have hoff : (0x100000 + 0x10000 * n + o) % 0x10000 = o := by omega
  simp only [regShown, hbelow _ (by decide : 0x400 ≤ 0x100000), hbelow _ (by decide : 0x500 ≤ 0x100000),
    hbelow _ (by decide : 0x1000 ≤ 0x100000), hbelow _ (by decide : 0x3000 ≤ 0x100000), hbelow _ (by decide : 0x3400 ≤ 0x100000),
    hbelow _ (by decide : 0x4000 ≤ 0x100000), hbelow _ (by decide : 0x4800 ≤ 0x100000), hbelow _ (by decide : 0x5000 ≤ 0x100000),
    hbelow _ (by decide : 0x5200 ≤ 0x100000), hbelow _ le_rfl, hin, hpage, hoff, if_true, if_false]

/-! ### The state after reset -/

@[simp] theorem inst_reset (n : Nat) : State.reset.inst n = {} := rfl

theorem ctxUsed_reset (n : Nat) : ctxUsed State.reset n = 0 := rfl
theorem instStatus_reset (n : Nat) : instStatus State.reset n = 0 := by
  simp [instStatus, overQuota, ctxUsed_reset, iCode, flags, b2n]
theorem slotsUsed_reset (n : Nat) : slotsUsed State.reset n = 0 := rfl
theorem jobs_reset : State.reset.jobs = [] := rfl
theorem winRing_reset (i : Nat) : winRing State.reset i = none := rfl
theorem winNr_reset (i : Nat) : winNr State.reset i = none := rfl
theorem ringWindow_reset (i o : Nat) : ringWindow i o State.reset = 0 := by
  simp [ringWindow, winRing_reset, winNr_reset]
theorem sitShown_reset : sitShown {} = 0 := rfl

/-- What a page other than that of MI reads at reset, of the offsets with a fixed value. -/
theorem pageRead_reset {n : Nat} (hn : n ≠ mi) :
    ∀ x ∈ [(0x0, 0), (0x4, 0xFF), (0x8, 0), (0xC, 0), (0x20, 0), (0x24, 0), (0x28, 0), (0x34, 0), (0x40, 0), (0x44, 0), (0x48, 0),
      (0x4C, 0), (0x54, 0x1000)], pageRead n x.1 State.reset = x.2 := by
  simp [pageRead, hn, instStatus_reset, slotsUsed_reset, jobs_reset, ringWindow_reset, sitShown_reset, fld, flags, b2n]

/-- Settles O8: each listed address stands in one group, whose reads of the empty tables and cleared fields are the fixed values. -/
theorem resetRegisters : Obligations.ResetRegisters := by
  unfold Obligations.ResetRegisters
  refine ⟨?fixed, ?instEn, ?scratch, ?mailbox, ?hmp, ?notif, ?pages⟩
  case fixed => decide +kernel
  case instEn => decide +kernel
  case scratch => decide +kernel
  case mailbox => decide +kernel
  case hmp => decide +kernel
  case notif => decide +kernel
  case pages =>
    intro n hn x hx
    have ho : x.1 < 0x10000 := by revert x; decide
    rw [regShown_page (by omega) ho, pageRead_reset (by unfold mi; omega) x hx]

end Sys2Proof.Machine
end

section
/-! PROOFS. What follows a command, and what one crystal period does (log entries 1 and 3). -/

namespace Sys2Proof.Machine
open Sys2Proof.Laws

/-- Settles O9: what follows a command keeps the quiet part of the state, and one crystal period moves the calendar. -/
theorem whatFollows : Obligations.WhatFollows := by
  unfold Obligations.WhatFollows
  refine ⟨fun s => ?quiet, fun s hempty => ⟨fun hfrac => ?tick, fun hfrac => ?second⟩⟩
  case quiet =>
    have h := conclude_still s
    simp only [State.still, Quiet.mk.injEq, TimeSt.kept, FabricSt.kept] at h
    exact h
  case tick =>
    have hroom : s.vigil.frac + 1 < 32768 := by omega
    simp [step_empty hempty, calendarTick, State.modVigil, hroom]
  case second =>
    have hfull : ¬ s.vigil.frac + 1 < 32768 := by omega
    simp [step_empty hempty, calendarTick, State.modVigil, hfull]

end Sys2Proof.Machine
end

section
/-! PROOFS. The TAP, debug authentication, and the I3C target's common command codes and transfers (R56, R57, R83, R492). -/

namespace Sys2Proof.Machine

/-! ### The TAP (R83) -/

theorem tapLoad_powered {s : State} (h : powered s = true) (ir : TapIr) (out : List Byte) :
    tapLoad ir out s = { s with port := { s.port with tapIr := ir, tapPins := false, tapOut := out } } := by
  simp [tapLoad, h, State.modPort]

/-- An instruction that takes the pins does so where it is allowed, and is one TAPINTR occurrence elsewhere. -/
theorem tapPin_allowed {s : State} (h : powered s = true) (ir : TapIr) (hpins : s.life = .manufacture ∨ s.modes.mode = .test) :
    tapPin ir s = { s with port := { s.port with
      tapIr := ir, tapPins := true, tapOut := if ir == .extest then scanBytes s else [] } } := by
  simp [tapPin, h, tapPinsAllowed, hpins, State.modPort]

theorem tapPin_refused {s : State} (h : powered s = true) (ir : TapIr) (hlife : s.life ≠ .manufacture)
    (hmode : s.modes.mode ≠ .test) :
    tapPin ir s = conclude (occurrence 15 { s with port := { s.port with tapIr := ir, tapPins := false, tapOut := [] } }) := by
  simp [tapPin, h, tapPinsAllowed, hlife, hmode, tapLoad_powered h]

/-- Settles O10: the loads are `tapLoad`, and the three pin instructions are `tapPin`. -/
theorem tapInstructions : Obligations.TapInstructions := by
  unfold Obligations.TapInstructions
  intro s hp
  refine ⟨?bypass, ?sample, ?idcode, ?pins⟩
  case bypass => exact congrArg Host.Outcome.next (tapLoad_powered hp ..)
  case sample => exact congrArg Host.Outcome.next (tapLoad_powered hp ..)
  case idcode =>
    change execIdcode s = _
    have hword (m : Nat) : 1 + m * 2 + 0xA032 * 2 ^ 12 + 3 * 2 ^ 28 = 0x3A032001 + 2 * m := by omega
    rw [execIdcode, hword, tapLoad_powered hp]
  case pins =>
    intro c ir out hc
    have hpin : exec c s = .next (tapPin ir s) ∧ out = if ir == .extest then scanBytes s else [] := by
      simp only [List.mem_cons, Prod.mk.injEq, List.not_mem_nil, or_false] at hc
      rcases hc with ⟨rfl, rfl, rfl⟩ | ⟨rfl, rfl, rfl⟩ | ⟨rfl, rfl, rfl⟩ <;> exact ⟨rfl, rfl⟩
    obtain ⟨hexec, rfl⟩ := hpin
    rw [hexec]
    exact ⟨fun h => by rw [tapPin_allowed hp ir h], fun h1 h2 => by rw [tapPin_refused hp ir h1 h2]⟩

/-! ### Debug authentication (R492) -/

theorem drbgUp_eq_false_iff (s : State) : drbgUp s = false ↔ s.anv.drbg ≠ .running ∧ s.anv.drbg ≠ .single := by
  simp [drbgUp]

theorem mode_ne_test_of_not_inTest {s : State} (h : inTest s = false) : s.modes.mode ≠ .test := by
  simp only [inTest, Bool.or_eq_false_iff, beq_eq_false_iff_ne] at h
  exact h.1

/-- Settles O11: a challenge is drawn unless debug is locked or the DRBG is down, and a response is judged against it once. -/
theorem debugAuthentication : Obligations.DebugAuthentication := by
  unfold Obligations.DebugAuthentication
  refine ⟨fun s hp => ?challenge, fun s resp hp hh ht => ?response⟩
  case challenge =>
    change execDbgChallenge s = _
    by_cases hz : s.glb.dbgLocked = true ∨ drbgUp s = false
    · rw [if_pos (by rwa [← drbgUp_eq_false_iff])]
      simp only [execDbgChallenge, hp, tapLoad_powered hp, Bool.or_eq_true, Bool.not_eq_true', hz, if_true]
      rfl
    · rw [if_neg (by rwa [← drbgUp_eq_false_iff])]
      simp only [execDbgChallenge, hp, tapLoad_powered hp, Bool.or_eq_true, Bool.not_eq_true', hz, if_false]
      rfl
  case response =>
    intro u
    change execDbgResponse resp s = _
    have hmodes : dbgModes s = true := by simp [dbgModes, hp, hh, ht, mode_ne_test_of_not_inTest ht]
    simp only [execDbgResponse, hmodes, tapLoad_powered hp, Bool.not_true, Bool.false_eq_true, if_false]
    rfl

/-! ### Common command codes (R56) -/

theorem i3cDo_powered {s : State} (h : powered s = true) (f : PortSt → PortSt) : i3cDo f s = { s with port := f s.port } := by
  simp [i3cDo, h, State.modPort]

/-- Settles O12: each code acts through `i3cDo` on the port group alone. -/
theorem commonCommandCodes : Obligations.CommonCommandCodes := by
  unfold Obligations.CommonCommandCodes
  intro s hp
  have hport (f : PortSt → PortSt) : Host.Outcome.next (i3cDo f s) = (.next { s with port := f s.port } : Out) := by
    rw [i3cDo_powered hp]
  refine ⟨?address, hport _, hport _, hport _, fun w => hport _, hport _, hport _, hport _, hport _, hport _, ?status⟩
  case address =>
    intro c a hc
    have hexec : exec (c a) s = .next (i3cDo (fun p => if p.i3cDyn.isSome then p else { p with i3cDyn := some a }) s) := by
      simp only [List.mem_cons, List.not_mem_nil, or_false] at hc
      rcases hc with rfl | rfl <;> rfl
    rw [hexec, hport]
    exact ⟨fun h => by simp [h], fun h => by simp [Option.isSome_iff_ne_none.mpr h]⟩
  case status =>
    change execGetstatus s = _
    simp only [execGetstatus, hp, if_true]
    rfl

/-! ### Private transfers (R57) -/

theorem i3cTake_up {s : State} (hp : powered s = true) (hh : s.modes.halted = false) (f : State → State) : i3cTake f s = f s := by
  simp [i3cTake, hp, hh]

theorem i3cWrite_scratch {a : Nat} (h1 : 0x70 ≤ a) (h2 : a < 0xB0) (h4 : a % 4 = 0) (v : Word) (s : State) :
    i3cWrite a v s = s.modGlb fun g => { g with scratch := tset g.scratch 0 ((a - 0x70) / 4) v } := by
  have hreset : a ≠ 0x2C := by omega
  simp [i3cWrite, h4, hreset, h1, h2]

theorem i3cWrite_beyond {a : Nat} (h : 0x530 ≤ a) (v : Word) (s : State) : i3cWrite a v s = i3cRefuse s := by
  have hreset : a ≠ 0x2C := by omega
  have hscratch : ¬ a < 0xB0 := by omega
  have hmbox : ¬ a < 0x300 := by omega
  have hctl : a ≠ 0x300 := by omega
  have hatt : a ≠ 0x50C := by omega
  have hnonce : ¬ a < 0x530 := by omega
  simp [i3cWrite, hreset, hscratch, hmbox, hctl, hatt, hnonce]

theorem i3cWordRead_beyond {s : State} (h : 0xFFF < s.port.i3cPtr.toNat) :
    i3cWordRead s = ({ s with port := { s.port with
      fault := s.port.fault ||| word (2 ^ 25), i3cPtr := s.port.i3cPtr + 4 } }, 0) := by
  simp only [i3cWordRead, i3cWord, gt_iff_lt, h, if_true]
  rfl

theorem i3cWordRead_within {s : State} (h : s.port.i3cPtr.toNat ≤ 0xFFF) (h4 : s.port.i3cPtr.toNat % 4 = 0)
    (hh : s.modes.halted = false) :
    i3cWordRead s = (((regRead .i3c s.port.i3cPtr.toNat s).1.modPort fun p => { p with i3cPtr := p.i3cPtr + 4 }),
      word (regRead .i3c s.port.i3cPtr.toNat s).2) := by
  simp [i3cWordRead, i3cWord, Nat.not_lt.mpr h, hh, h4]

/-- Settles O13: each form of a transfer, by the range its address or length lies in. -/
theorem i3cTransfers : Obligations.I3cTransfers := by
  unfold Obligations.I3cTransfers
  intro s hp
  refine ⟨?pointer, ?scratch, ?refused, ?length, ?read, ?wordBeyond, ?wordWithin⟩
  case pointer => exact fun a => congrArg Host.Outcome.next (i3cDo_powered hp _)
  case scratch =>
    intro a v hh h1 h2 h4
    change execI3cRegisterWrite a v s = _
    rw [execI3cRegisterWrite, i3cTake_up hp hh, i3cWrite_scratch h1 h2 h4]
    rfl
  case refused =>
    intro a v hh h
    change execI3cRegisterWrite a v s = _
    rw [execI3cRegisterWrite, i3cTake_up hp hh, i3cWrite_beyond h]
    rfl
  case length =>
    intro n h3 h7
    change execI3cRefusedWrite n s = _
    simp [execI3cRefusedWrite, hp, h3, h7, i3cRefuse, portFault, State.modPort]
  case read =>
    intro n
    change execI3cPrivateRead n s = _
    simp [execI3cPrivateRead, hp]
  case wordBeyond =>
    intro n out h
    rw [i3cWords, i3cWordRead_beyond h]
  case wordWithin =>
    intro n out h h4 hh r
    rw [i3cWords, i3cWordRead_within h h4 hh]
    rfl

end Sys2Proof.Machine
end

section
/-! PROOFS. The Time Port, the port clocks and the supply handshake (R59 to R64, R71). -/

namespace Sys2Proof.Machine

/-! ### The Time Port (R59 to R61) -/

theorem exec_tpTodSample {s : State} (hp : powered s = true) (hclk : s.port.clkOk.toNat.testBit 4 = true) (sec : BitVec 48)
    (ns : BitVec 32) : exec (.tpTodSample sec ns) s = .next (fltServe (todSample sec.toNat ns.toNat s)) := by
  change execTpTodSample sec ns s = _
  simp [execTpTodSample, hp, hclk]

theorem exec_tpPpsEdge {s : State} (hp : powered s = true) (hclk : s.port.clkOk.toNat.testBit 4 = true) (aligned : Bool) :
    exec (.tpPpsEdge aligned) s = .next (if aligned then ppsGood s else timeLost 0x20000 s) := by
  change execTpPpsEdge aligned s = _
  simp [execTpPpsEdge, hp, hclk]

/-- A sample is taken, is out of format, or goes back. -/
theorem todSample_taken {sec ns : Nat} {s : State} (hns : ns < 1000000000) (hback : s.time.lastTod ≤ sec * 1000000000 + ns) :
    todSample sec ns s = { s with time := { s.time with
      lastTod := sec * 1000000000 + ns, now := if s.time.lost then s.time.now else sec * 1000000000 + ns } } := by
  simp [todSample, Nat.not_le.mpr hns, Nat.not_lt.mpr hback, State.modTime]

theorem todSample_badFormat {sec ns : Nat} {s : State} (hns : 1000000000 ≤ ns) : todSample sec ns s = timeLost 0x10000 s := by
  simp [todSample, hns]

theorem todSample_back {sec ns : Nat} {s : State} (hns : ns < 1000000000) (hback : sec * 1000000000 + ns < s.time.lastTod)
    (hleap : leapAllowed s (sec * 1000000000 + ns) = false) :
    todSample sec ns s = (timeLost 0x10000 s).modTime fun x => { x with lastTod := sec * 1000000000 + ns } := by
  simp [todSample, Nat.not_le.mpr hns, hback, hleap]

theorem fltServe_of_not_owed {s : State} (h : ∀ p ∈ s.insts, p.2.fltOwed = none) : fltServe s = s := by
  have hnone : s.insts.filter (fun p => p.2.fltOwed.isSome && fltDue s p.2) = [] :=
    List.filter_eq_nil_iff.mpr fun p hp => by simp [h p hp]
  rw [fltServe, hnone]

theorem ppsGood_running {s : State} (h : s.time.lost = false) : ppsGood s = setCalendar s.time.now s := by simp [ppsGood, h]

theorem ppsGood_first {s : State} (h : s.time.lost = true) (hgood : s.time.goodEdges = 0) :
    ppsGood s = { s with time := { s.time with goodEdges := 1 } } := by
  simp [ppsGood, h, hgood, State.modTime]

theorem ppsGood_second {s : State} (h : s.time.lost = true) (hgood : 1 ≤ s.time.goodEdges) :
    ppsGood s = portEvent 1 (setCalendar s.time.lastTod (s.modTime fun t =>
      { t with lost := false, goodEdges := 0, now := t.lastTod })) := by
  have h2 : ¬ s.time.goodEdges + 1 < 2 := by omega
  simp [ppsGood, h, h2]

theorem ledgerLog_time (e : LogEnt) (s : State) : (ledgerLog e s).time = s.time := State.modLdg_time s _
theorem ledgerLog_port (e : LogEnt) (s : State) : (ledgerLog e s).port = s.port := State.modLdg_port s _

theorem logEvent_time (cls code arg : Nat) (s : State) : (logEvent cls code arg s).time = s.time := by
  unfold logEvent
  split
  · exact ledgerLog_time ..
  · split <;> simp

theorem logEvent_port (cls code arg : Nat) (s : State) : (logEvent cls code arg s).port = s.port := by
  unfold logEvent
  split
  · exact ledgerLog_port ..
  · split <;> simp

theorem timeLost_time (cause : Nat) (s : State) : (timeLost cause s).time = { s.time with goodEdges := 0, lost := true } := by
  cases h : s.time.lost with
  | true => simp [timeLost, portFault, h]
  | false => simp [timeLost, portFault, portEvent, logEvent_time, h]

theorem timeLost_fault (cause : Nat) (s : State) :
    (timeLost cause s).port.fault = s.port.fault ||| word cause ||| (if s.time.lost then 0 else 0x40000) := by
  cases h : s.time.lost with
  | true => simp [timeLost, portFault, h]
  | false => simp [timeLost, portFault, portEvent, logEvent_port, h, word]

theorem clockStop_running {s : State} {k : Nat} (hp : powered s = true) (hclk : s.port.clkOk.toNat.testBit k = true) :
    clockStop k s =
      let t : State := { s with port := { s.port with
        clkOk := s.port.clkOk &&& ~~~(BitVec.ofNat 6 (2 ^ k)), fault := s.port.fault ||| word (2 ^ k) } }
      conclude (portEvent 6 (if k ≤ 1 then hmpFail k t else if k = 4 then timeLost 0 t else t)) := by
  simp [clockStop, hp, hclk, portFault, State.modPort]

/-- Settles O14: the branches of a sample and of an edge, and what a loss of time sets. -/
theorem timePort : Obligations.TimePort := by
  unfold Obligations.TimePort
  intro s hp
  refine ⟨?sample, fun u => fltServe_of_not_owed, ?edges, ?missing, fun cause => ⟨timeLost_time cause s, timeLost_fault cause s⟩⟩
  case sample =>
    intro sec ns hclk tod
    rw [exec_tpTodSample hp hclk]
    refine ⟨fun hns hback => ?_, fun hns => ?_, fun hns hback hleap => ?_⟩
    · rw [todSample_taken hns hback]
    · rw [todSample_badFormat hns]
    · rw [todSample_back hns hback hleap]; rfl
  case edges =>
    intro hclk
    rw [exec_tpPpsEdge hp hclk, exec_tpPpsEdge hp hclk]
    refine ⟨fun hlost => ?_, fun hlost hgood => ?_, fun hlost hgood => ?_, rfl, ?_⟩
    · rw [if_pos rfl, ppsGood_running hlost]; rfl
    · rw [if_pos rfl, ppsGood_first hlost hgood]
    · rw [if_pos rfl, ppsGood_second hlost hgood]; rfl
    · exact congrArg Host.Outcome.next (clockStop_running hp hclk)
  case missing =>
    change execTpPpsMissing s = _
    simp [execTpPpsMissing, hp]

/-! ### Port clocks and the supply handshake (R63, R64, R71) -/

/-- Settles O15: a clock's monitor and the four phases of SRP_REQ and SRP_ACK, each from the state its event finds. -/
theorem clocksAndSupply : Obligations.ClocksAndSupply := by
  unfold Obligations.ClocksAndSupply
  refine ⟨fun s k hp hclk => ?stop, fun s k hp hclk => ?back, fun s hreq hack => ⟨?rise, ?timeout⟩, fun s hack hfault => ?fall,
    fun s v ht hv => ?clear⟩
  case stop => exact congrArg Host.Outcome.next (clockStop_running hp hclk)
  case back =>
    change execPortClockReturn k s = _
    simp [execPortClockReturn, hp, hclk, State.modPort]
  case rise =>
    change execSrpAckRise s = _
    simp [execSrpAckRise, hreq, hack, State.modPort, State.modBlw, State.modFab]
  case timeout =>
    change execSrpTimeout s = _
    rw [execSrpTimeout, if_pos (by simp [hreq, hack])]
    rfl
  case fall =>
    change execSrpAckFall s = _
    simp [execSrpAckFall, hack, hfault, State.modPort]
  case clear =>
    change execSrpTimeoutClear v s = _
    simp [execSrpTimeoutClear, rapDo_takes ht, hv, portFaultWrite, State.answered, State.modPort]

end Sys2Proof.Machine
end

section
/-! PROOFS. Attach and detach, main power, and the mode at the end of the start-up (R84 to R89, R447, R485 to R487). -/

namespace Sys2Proof.Machine
open Sys2Proof.Laws

/-! ### Attach and detach (R84 to R89) -/

/-- After a change of the pins, levels that ask for an attach start it from DETACHED. -/
theorem attachMaybe_starts {s : State} {f : PortSt → PortSt} (hup : s.portUp = true) (hmode : s.modes.mode ≠ .boot)
    (hatt : (f s.port).att = .detached) (hreq : (f s.port).attReq = true) (hdet : (f s.port).detReq = false) :
    attachMaybe (s.modPort f) = attachStart (s.modPort f) := by
  obtain ⟨hp, hh⟩ := s.portUp_iff.mp hup
  have hp' : powered (s.modPort f) = true := hp
  simp [attachMaybe, hp', hmode, hh, hatt, hreq, hdet]

theorem attachMaybe_unasked {s : State} (hreq : s.port.attReq = false) : attachMaybe s = s := by
  simp [attachMaybe, hreq]

theorem exec_attachSequenceComplete {s : State} (hup : s.portUp = true) (hmode : s.modes.mode ≠ .boot) (rep : AttachReport) :
    exec (.attachSequenceComplete rep) s = .next (match s.port.att with
      | .attaching => if attachOk rep then conclude (attachGood (attachCheck rep s)) else attachFail (attachCheck rep s)
      | .detaching => if s.port.detach == .idle then conclude (detachStart (reread (attachCheck rep s))) else s
      | _ => s) := by
  obtain ⟨hp, hh⟩ := s.portUp_iff.mp hup
  change execAttachSequenceComplete rep s = _
  rw [execAttachSequenceComplete, if_neg (by simp [hp, hh, hmode])] <;> rfl

/-- Settles O16: the pins' edges and the attach's end, by the state of the port that each finds. -/
theorem attachAndDetach : Obligations.AttachAndDetach := by
  unfold Obligations.AttachAndDetach
  intro s
  refine ⟨fun hup hmode hatt => ⟨fun hdet => ?rise, ?fallAlone, ?fallAsked⟩, fun hh hatt => ?detach, fun hh hatt => ?meanwhile,
    fun hh => ?halted, fun hidle => ?limit, fun rep hup hmode => ⟨fun hatt hclk hloop => ?good, fun hatt hbad => ?bad,
    fun hatt hidle => ?goesOn⟩, fun rep htime => ?check⟩
  case rise =>
    change Host.Outcome.next (attachMaybe (s.modPort fun p => { p with attReq := true })) = _
    rw [attachMaybe_starts hup hmode (by exact hatt) rfl (by exact hdet)]
    rfl
  case fallAlone =>
    change execDetReqFall false s = _
    rw [execDetReqFall, if_pos (by simp [hatt]), attachMaybe_unasked rfl]
    rfl
  case fallAsked =>
    change execDetReqFall true s = _
    have hstart := attachMaybe_starts (s := s) (f := fun p => { p with detReq := false, attReq := true, detAck := false })
      hup hmode hatt rfl rfl
    rw [execDetReqFall, if_pos (by simp [hatt])]
    exact congrArg Host.Outcome.next hstart
  case detach =>
    change execDetReqRise s = _
    simp [execDetReqRise, hh, hatt, State.modPort]
  case meanwhile =>
    change execDetReqRise s = _
    simp [execDetReqRise, hh, hatt, State.modPort]
  case halted =>
    change execDetReqRise s = _
    simp [execDetReqRise, hh, State.modPort]
  case limit =>
    change execDetachDrainLimit s = _
    simp [execDetachDrainLimit, hidle, State.modPort]
  case good =>
    rw [exec_attachSequenceComplete hup hmode, hatt]
    simp [attachOk, hclk, hloop]
  case bad =>
    have hnot : attachOk rep = false := by
      rw [attachOk, Bool.and_eq_false_iff, beq_eq_false_iff_ne, beq_eq_false_iff_ne]
      exact hbad
    rw [exec_attachSequenceComplete hup hmode, hatt]
    simp only [hnot, Bool.false_eq_true, if_false]
    rfl
  case goesOn =>
    rw [exec_attachSequenceComplete hup hmode, hatt]
    simp [hidle]
  case check => simp [attachCheck, htime, portFault, State.modPort]

/-! ### What a transition of the mode changes (R485) -/

/-- An event goes into Orrery's buffer or into the Ledger, and neither stops or retires a half. -/
theorem logEvent_changes (cls code arg : Nat) (s : State) :
    ∃ o l, logEvent cls code arg s = { s with ory := o, ldg := l } ∧ o.halfA = s.ory.halfA ∧ o.halfB = s.ory.halfB := by
  unfold logEvent
  split
  · exact ⟨s.ory, _, rfl, rfl, rfl⟩
  · split
    · exact ⟨_, s.ldg, rfl, rfl, rfl⟩
    · exact ⟨_, s.ldg, rfl, rfl, rfl⟩

theorem enterMode_logs {m : Mode} (hm : m ≠ .zeroised) (s : State) :
    ∃ o l p, enterMode m s = { s with
        modes := { s.modes with mode := m }, fab := { s.fab with rounds := 0 }, port := p, ory := o, ldg := l } ∧
      o.halfA = s.ory.halfA ∧ o.halfB = s.ory.halfB := by
  obtain ⟨o, l, hlog, hA, hB⟩ := logEvent_changes 4 (modeCode m) 0
    (((s.modModes fun x => { x with mode := m }).modFab fun b => { b with rounds := 0 }).modPort fun p =>
      { p with tapPins := p.tapPins && (s.life == .manufacture || m == .test) })
  refine ⟨o, l, { s.port with tapPins := s.port.tapPins && (s.life == .manufacture || m == .test) }, ?_, hA, hB⟩
  simp only [enterMode, beq_iff_eq, hm, if_false, hlog]
  rfl

theorem pushAcc_modes (a : Access) (s : State) : (pushAcc a s).modes = s.modes := by
  unfold pushAcc; split <;> rfl

theorem faultMsg_mode (s : State) : (faultMsg s).modes.mode = s.modes.mode := by
  unfold faultMsg
  split
  · rfl
  · split
    · rfl
    · rw [pushAcc_modes]; rfl

theorem raiseIbi_modes (s : State) : (raiseIbi s).modes = s.modes := by
  unfold raiseIbi; split <;> rfl

@[simp] theorem enterMode_mode (m : Mode) (s : State) : (enterMode m s).modes.mode = m := by
  by_cases hm : m = .zeroised
  · obtain ⟨o, l, hlog, -⟩ := logEvent_changes 4 (modeCode m) 0
      (((s.modModes fun x => { x with mode := m }).modFab fun b => { b with rounds := 0 }).modPort fun p =>
        { p with tapPins := p.tapPins && (s.life == .manufacture || m == .test) })
    simp only [enterMode, hm, beq_self_eq_true, if_true, raiseIbi_modes, faultMsg_mode]
    rw [← hm, hlog]
    rfl
  · obtain ⟨o, l, p, h, -⟩ := enterMode_logs hm s
    rw [h]

theorem degrade_enterMode {m : Mode} (hm : m ≠ .zeroised) (s : State) : degrade (enterMode m s) = degrade s := by
  obtain ⟨o, l, p, h, hA, hB⟩ := enterMode_logs hm s
  rw [h]
  simp only [degrade, State.forge, hA, hB]

theorem serviceOrDegraded_ne_zeroised (s : State) : serviceOrDegraded s ≠ .zeroised := by
  unfold serviceOrDegraded; split <;> simp

/-! ### Main power (R447, R486, R487) -/

theorem restoreCounters_ldg (s : State) : ∃ l, restoreCounters s = { s with ldg := l } := by
  unfold restoreCounters
  split
  · exact ⟨s.ldg, rfl⟩
  · exact ⟨_, rfl⟩

/-- What the fall of main power leaves. -/
theorem execMainPgFall_leaves {s : State} (hp : powered s = true) :
    ∃ (l : LedgerSt) (src : Tbl Src), exec .mainPgFall s = .next
      { pending := s.pending, freeCtr := s.freeCtr, life := s.life, silver := s.silver, modes := { mode := .vigil },
        vault := { lost := true }, tam := { fused := s.tam.fused, disabled := s.tam.disabled },
        vigil := { s.vigil with src := src, samples := 0 }, ldg := { l with live := l.saved } } := by
  obtain ⟨o, l, p, hmode, -⟩ := enterMode_logs (m := .vigil) (by decide) s
  obtain ⟨l', hcount⟩ := restoreCounters_ldg (enterMode .vigil s)
  rw [show exec .mainPgFall s = execMainPgFall s from rfl, execMainPgFall, if_neg (by simp [hp])]
  rw [hmode] at hcount
  simp only [hmode, hcount]
  exact ⟨l', _, rfl⟩

/-- The mode that step 14 selects, by the conditions of R487 in their order. -/
theorem selectMode_mode (s : State) : (selectMode s).modes.mode =
    (if s.vigil.zpend then .zeroised
     else if s.life = .terminated ∨ s.cruc.rootFault ∨ s.modes.fault.toNat.testBit 1 ∨ s.ldg.factory ∨ s.ldg.yRom then .recovery
     else if s.port.att ≠ .attached then .eclipse
     else serviceOrDegraded (selectMode s)) := by
  generalize hs1 : (s.modModes fun m => { m with stage := .finished }).modBlw (fun b => { b with started := true }) = s1
  have hz : s1.vigil.zpend = s.vigil.zpend := by rw [← hs1]; rfl
  have hatt : s1.port.att = s.port.att := by rw [← hs1]; rfl
  have hrec : bootRecovery s1 = true ↔
      (s.life = .terminated ∨ s.cruc.rootFault ∨ s.modes.fault.toNat.testBit 1 ∨ s.ldg.factory ∨ s.ldg.yRom) := by
    rw [← hs1]
    simp [bootRecovery, State.modBlw, or_assoc]
  have hdef : selectMode s =
      if s.vigil.zpend then enterMode .zeroised (s1.modModes fun m => { m with zFrom := .boot })
      else if bootRecovery s1 then enterMode .recovery s1
      else if s.port.att ≠ .attached then
        enterMode .eclipse (s1.modModes fun m => { m with prior := serviceOrDegraded s1, cause := 3, eclipseDone := true, endAsked := false })
      else enterMode (serviceOrDegraded s1) s1 := by
    rw [← hz, ← hatt, ← hs1, selectMode]
    simp only [bne_iff_ne]
  rw [hdef]
  by_cases h1 : s.vigil.zpend = true
  · simp only [if_pos h1, enterMode_mode]
  by_cases h2 : bootRecovery s1 = true
  · simp only [if_neg h1, if_pos h2, if_pos (hrec.mp h2), enterMode_mode]
  have h2' := mt hrec.mpr h2
  by_cases h3 : s.port.att ≠ .attached
  · simp only [if_neg h1, if_neg h2, if_neg h2', if_pos h3, enterMode_mode]
  · simp only [if_neg h1, if_neg h2, if_neg h2', if_neg h3, enterMode_mode]
    rw [serviceOrDegraded, serviceOrDegraded, degrade_enterMode]
    exact serviceOrDegraded_ne_zeroised s1

theorem exec_startUpComplete_awaiting {s : State} (hm : s.modes.mode = .boot) (hst : s.modes.stage = .awaitAttach)
    (hh : s.modes.halted = false) (rep : BootReport) :
    exec (.startUpComplete rep) s = .next (conclude (reformatRings (selectMode (bootAttach rep.attach s)))) := by
  change execStartUpComplete rep s = _
  simp [execStartUpComplete, hm, hst, hh]

theorem exec_bothSuppliesLost {s : State} (hp : powered s = false) :
    exec .bothSuppliesLost s = .next { s with vigil := { retainLost := true, calLost := s.vigil.calLost, calGone := true } } := by
  change execBothSuppliesLost s = _
  simp [execBothSuppliesLost, hp]

/-- Settles O17: the fall rebuilds the state from what is kept, the rise runs the start-up, and its end takes the mode of step 14. -/
theorem powerAndStartUp : Obligations.PowerAndStartUp := by
  unfold Obligations.PowerAndStartUp
  refine ⟨fun s hp => ?fall, fun s rep hp => ?rise, fun s rep hm hst hh => exec_startUpComplete_awaiting hm hst hh rep,
    selectMode_mode, fun s hp => exec_bothSuppliesLost hp, fun s => ⟨rfl, rfl⟩⟩
  case fall =>
    obtain ⟨l, src, h⟩ := execMainPgFall_leaves hp
    exact ⟨_, h, rfl, rfl, rfl, rfl, rfl, rfl, rfl, rfl, rfl, rfl, rfl, rfl, rfl, rfl, rfl, rfl, rfl, rfl, rfl, rfl, rfl, rfl⟩
  case rise =>
    change execMainPgRise rep s = _
    rw [execMainPgRise, if_neg (by simp [hp])]
    rfl

end Sys2Proof.Machine
end

section
/-! PROOFS. The host memory ports: responses, timeouts, maps, moves and returns (R43, R46, R47, R502). -/

namespace Sys2Proof.Machine

/-- A response that can answer the outstanding request with its tag does. -/
theorem exec_hmpResponse {s : State} {k : PortId} {tag : Fin 2048} {r : Req} {status : Fin 4} {data : List Byte}
    (ics : List (BitVec 16)) (hfind : (s.hmp k.val).out.find? (fun x => x.tag == tag.val) = some r)
    (hans : answers r status.val data = true) :
    exec (.hmpResponse k tag status data ics) s = .next (conclude (hmpAnswer k.val r status.val data ics s)) := by
  change execHmpResponse k tag status data ics s = _
  simp only [execHmpResponse, hfind, hans, if_true]

theorem mapInst_moves {s : State} {i : Nat} {b : Bool} (hi : i ≠ mi) (hother : hmpOf s i ≠ b2n b)
    (hup : (s.hmp (b2n b)).failed = false) (hstill : i ∉ s.mem.moving) :
    mapInst s i b = { s with
      port := { s.port with hmpMap :=
        if b then s.port.hmpMap ||| BitVec.ofNat 128 (2 ^ i) else s.port.hmpMap &&& ~~~(BitVec.ofNat 128 (2 ^ i)) }
      mem := { s.mem with moving := i :: s.mem.moving } } := by
  have hmapped : ¬ ((hmpOf s i = 1) = (b = true)) := by
    rw [hmpOf, if_neg hi] at hother ⊢
    cases hbit : s.port.hmpMap.toNat.testBit i <;> cases b <;> simp_all [b2n]
  simp [mapInst, hmapped, hup, hi, hstill, State.modPort, State.modMem]

theorem exec_hmpReturn {s : State} {k : PortId} {v : RapWord} (ht : s.takes 0x14 v = true) (hfail : (s.hmp k.val).failed = true)
    (loopOk : Bool) :
    exec (.hmpReturn k ⟨v, loopOk⟩) s = .next (if loopOk && s.port.clkOk.toNat.testBit k.val then
        conclude (settleMode (portEvent 8 ((s.answered .rap).modHmp k.val fun h => { h with failed := false, icTimes := [] })))
      else (s.answered .rap).modModes fun m => { m with cfgErr := true }) := by
  change execHmpReturn k ⟨v, loopOk⟩ s = _
  have hclk : (s.answered .rap).port.clkOk = s.port.clkOk := rfl
  simp only [execHmpReturn, rapDo_takes ht, State.answered_hmp, hfail, hclk, Bool.not_true, Bool.false_eq_true, if_false]

/-- Settles O18: `hmpAnswer` splits a response by its status, and maps, moves and returns act where their condition holds. -/
theorem hostMemoryPorts : Obligations.HostMemoryPorts := by
  unfold Obligations.HostMemoryPorts
  refine ⟨?response, fun s k hout hup => ?timeout, fun s v => ⟨fun reg hreg ht => ?map, fun ht => ?mapMi⟩,
    fun s i b hi => mapInst_moves (by unfold mi; omega), fun s i hmov hout => ?move, fun s k v ht hfail => ⟨fun hclk => ?back, ?refused⟩⟩
  case response =>
    intro s k tag r data ics hfind t
    refine ⟨fun hop => ?_, fun hop hlen hgood => ?_, fun hop hlen hgood hbody => ?_, fun id hop hlen hgood hbody => ?_, ?_, ?_⟩
    · rw [exec_hmpResponse ics hfind (by simp [answers, hop])]
      simp [hmpAnswer, hop, t]
    · rw [exec_hmpResponse ics hfind (by simp [answers, hlen])]
      simp [hmpAnswer, hop, hgood, t]
    · rw [exec_hmpResponse ics hfind (by simp [answers, hlen])]
      simp [hmpAnswer, hop, hgood, hbody, t]
    · rw [exec_hmpResponse ics hfind (by simp [answers, hlen])]
      simp [hmpAnswer, hop, hgood, hbody, t]
    · exact exec_hmpResponse ics hfind (by simp [answers])
    · exact exec_hmpResponse ics hfind (by simp [answers])
  case timeout =>
    change execHmpTimeout k s = _
    simp [execHmpTimeout, hout, hup]
  case map =>
    change execHmpMapWrite reg v s = _
    have hne : reg.val ≠ 4 := fun h => hreg (Fin.ext h)
    rw [execHmpMapWrite, if_neg hne, rapDo_takes ht, hmpMapSet, if_neg hne]
  case mapMi => exact congrArg Host.Outcome.next (rapDo_takes ht _)
  case move =>
    change execHmpMoveComplete i s = _
    simp [execHmpMoveComplete, hmov, hout, State.modMem]
  case back => rw [exec_hmpReturn ht hfail, if_pos (by simp [hclk])]
  case refused => rw [exec_hmpReturn ht hfail, if_neg (by simp)]

end Sys2Proof.Machine
end

section
/-! PROOFS. Doorbells, scans and the registers of the submission rings (R94 to R98, R107 to R114, R127, R129). -/

namespace Sys2Proof.Machine

/-! ### Doorbells and scans (R97, R98, R107 to R110) -/

theorem exec_doorbell {s : State} {page : InstId} {k : Fin 1024} {v : RapWord}
    (ht : s.takes (0xA00000 + 0x1000 * page.val + 4 * k.val) v = true) :
    exec (.doorbell page ⟨k, v⟩) s = .next (match doorbellRing s page.val k.val with
      | none => s.answered .rap
      | some n => conclude (ringBell n (s.answered .rap))) := by
  change execDoorbell page ⟨k, v⟩ s = _
  rw [execDoorbell, rapDo_takes ht]
  rfl

theorem startScan_idle {s : State} {n : Nat} (h : (s.ring n).scanSt = .idle) : startScan n s = scanOn n s := by
  simp [startScan, h]

theorem startScan_running {s : State} {n : Nat} (h : (s.ring n).scanSt ≠ .idle) :
    startScan n s = s.modRing n fun r => { r with further := true } := by
  simp [startScan, h]

/-- Settles O19: `ringBell` starts the scan of an ENABLED ring that nothing holds back, and leaves any other ring. -/
theorem doorbellsAndScans : Obligations.DoorbellsAndScans := by
  unfold Obligations.DoorbellsAndScans
  refine ⟨fun s page k v n ht hbell => ⟨fun hst hoff hheld hinv => ?rings, fun hst => ?disabled⟩, fun s page k v ht hbell => ?none,
    fun s n hauto hst hidle hinv hscan hoff hheld => ?sweep, fun s n hwait hroom hinv => ?goOn,
    fun s n => ⟨startScan_idle, startScan_running⟩⟩
  case rings =>
    have hoff' : scansOff (s.answered .rap) n = false := hoff
    have hheld' : scansHeld (s.answered .rap) n = false := hheld
    rw [exec_doorbell ht, hbell]
    simp [ringBell, hst, hoff', hheld', hinv]
  case disabled =>
    rw [exec_doorbell ht, hbell]
    simp [ringBell, hst]
  case none => rw [exec_doorbell ht, hbell]
  case sweep =>
    change execAutoSweep n s = _
    rw [execAutoSweep, if_pos (by simp [hauto, hst, hidle, hinv, hscan, hoff, hheld])]
  case goOn =>
    change execScanContinue n s = _
    rw [execScanContinue, if_pos (by simp [hwait, hroom, hinv])]

/-! ### The ring window (R94, R95, R127) -/

theorem exec_ringStop {s : State} {page : InstId} {v : RapWord} {n : Nat} (ht : s.takes (pageBase page.val + 0x2C) v = true)
    (hw : winRing s page.val = some n) (hv : bit v.toNat 0 = false) :
    exec (.ringStop page v) s = .next (conclude (ringCtl n v.toNat (s.answered .rap))) := by
  change execRingStop page v s = _
  simp [execRingStop, rapDo_takes ht, hw, hv]

/-- ENABLE that differs from what the ring is or will be turns it on or off, after the rest of the word. -/
theorem ringCtl_turns {s t : State} {n v : Nat}
    (htaken : ringConfig n v (s.modRing n fun r => { r with fault := r.fault && !bit v 5, cfgErr := r.cfgErr && !bit v 6 }) = t)
    (hheld : enableHeld t n = false)
    (hturn : bit v 0 ≠ ((s.ring n).st == .enabled || (s.ring n).st == .pendingEnable)) :
    (t.ring n).st = (s.ring n).st ∧ ringCtl n v s = if bit v 0 then enableRing n t else stopRing n t := by
  have hst : (t.ring n).st = (s.ring n).st := by rw [← htaken, ringConfig_st, State.ring_modRing]
  refine ⟨hst, ?_⟩
  rw [ringCtl, htaken, hst, if_neg hturn, if_neg (by simp [hheld])]

theorem enableRing_stopping {s : State} {n : Nat} (hst : (s.ring n).st = .stopping) (hheld : enableHeld s n = false) :
    enableRing n s = s.modRing n fun r => { r with st := .pendingEnable } := by
  simp [enableRing, hst, hheld]

theorem stopRing_enabled {s : State} {n : Nat} (hst : (s.ring n).st = .enabled) :
    stopRing n s = drainRing n 0x24 (stopJobs n (res 0x24 0) (s.modRing n fun r => { r with st := .stopping, endFlags := 4 })) := by
  simp [stopRing, hst]

theorem stopRing_pendingEnable {s : State} {n : Nat} (hst : (s.ring n).st = .pendingEnable) :
    stopRing n s = s.modRing n fun r => { r with st := .stopping } := by
  simp [stopRing, hst]

theorem exec_ringStopComplete_of_quiet {s : State} {n : RingId} (hq : ringQuiet s n.val = true)
    (hst : (s.ring n.val).st = .stopping ∨ (s.ring n.val).st = .pendingEnable) :
    exec (.ringStopComplete n) s = .next (conclude (ringStopped n.val s)) := by
  change execRingStopComplete n s = _
  simp [execRingStopComplete, hq, hst]

/-- Settles O20: a write of RING_CTL turns the ring on or off through `enableRing` and `stopRing`, whose case is the ring's state. -/
theorem submissionRingRegisters : Obligations.SubmissionRingRegisters := by
  unfold Obligations.SubmissionRingRegisters
  refine ⟨fun s page v ht => ?select, fun s page v n ht hw hheld => ?control, fun s n => ⟨applyEnable_refused, fun hok => ?fresh⟩,
    fun s n hq hst => ?stopped, fun s page v n ht hw hinv hst => ?invalidate, fun s n hinv hscan hbell => ?invalidated⟩
  case select =>
    change execRingSelWrite page v s = _
    rw [execRingSelWrite, rapDo_takes ht, ringSelWrite]
    simp only [State.answered_inst]
  case control =>
    have hturn (hon : bit v.toNat 0 ≠ ((s.ring n).st == .enabled || (s.ring n).st == .pendingEnable)) :=
      ringCtl_turns (s := s.answered .rap) rfl hheld (by simpa using hon)
    simp only [State.answered_ring] at hturn
    refine ⟨fun hv hst => ?_, fun hv hst => ?_, fun hv hst => ?_, fun hv hst => ?_⟩
    · obtain ⟨hst', hctl⟩ := hturn (by simp [hv, hst])
      rw [exec_ringEnable ht hw hv, hctl, if_pos hv, enableRing_disabled (hst'.trans hst) hheld]
    · obtain ⟨hst', hctl⟩ := hturn (by simp [hv, hst])
      rw [exec_ringEnable ht hw hv, hctl, if_pos hv, enableRing_stopping (hst'.trans hst) hheld]
    · obtain ⟨hst', hctl⟩ := hturn (by simp [hv, hst])
      rw [exec_ringStop ht hw hv, hctl, if_neg (by simp [hv]), stopRing_enabled (hst'.trans hst)]
    · obtain ⟨hst', hctl⟩ := hturn (by simp [hv, hst])
      rw [exec_ringStop ht hw hv, hctl, if_neg (by simp [hv]), stopRing_pendingEnable (hst'.trans hst)]
  case fresh =>
    rw [applyEnable, if_neg (by simp [hok])]
    rfl
  case stopped =>
    rw [exec_ringStopComplete_of_quiet hq hst]
    simp [ringStopped]
  case invalidate =>
    change execRingInv page v s = _
    simp [execRingInv, rapDo_takes ht, hw, ringInvWrite, hinv, hst]
  case invalidated =>
    change execRingInvComplete n s = _
    simp [execRingInvComplete, hinv, hscan, hbell]

end Sys2Proof.Machine
end

section
/-! PROOFS. The notification rings: what a write of RING_CTL, the read before a record and the end of the holdoff do (R131 to R135,
R524), and that their forms complete. -/

namespace Sys2Proof.Machine

/-! ### RING_CTL of a notification ring -/

/-- The bits of RING_CTL that a notification ring takes with every write (R96). -/
def Notif.config (r : Notif) (v : Nat) : Notif :=
  { r with fault := r.fault && !bit v 5, cfgErr := r.cfgErr && !bit v 6, ovf := r.ovf && !bit v 7, vec := fld v 8 3,
           irqEn := bit v 11, holdoff := fld v 12 8 }

@[simp] theorem Notif.config_enabled (r : Notif) (v : Nat) : (r.config v).enabled = r.enabled := rfl
@[simp] theorem Notif.config_size (r : Notif) (v : Nat) : (r.config v).size = r.size := rfl
@[simp] theorem Notif.config_rdId (r : Notif) (v : Nat) : (r.config v).rdId = r.rdId := rfl

theorem exec_nrEnable {s : State} {page : InstId} {v : RapWord} (ht : s.takes (pageBase page.val + 0x2C) v = true) :
    exec (.nrEnable page v) s = .next (match winNr s page.val with
      | none => s.answered .rap
      | some k => if bit v.toNat 0 then conclude (nrCtl k v.toNat (s.answered .rap)) else s.answered .rap) := by
  change execNrEnable page v s = _
  rw [execNrEnable, rapDo_takes ht, winNr_answered] <;> rfl

theorem exec_nrDisable_window {s : State} {page : InstId} {v : RapWord} (ht : s.takes (pageBase page.val + 0x2C) v = true) :
    exec (.nrDisable page v) s = .next (match winNr s page.val with
      | none => s.answered .rap
      | some k => if bit v.toNat 0 then s.answered .rap else conclude (nrCtl k v.toNat (s.answered .rap))) := by
  change execNrDisable page v s = _
  rw [execNrDisable, rapDo_takes ht, winNr_answered] <;> rfl

theorem exec_nrOvfClear {s : State} {page : InstId} {v : RapWord} (ht : s.takes (pageBase page.val + 0x2C) v = true) :
    exec (.nrOvfClear page v) s = .next (match winNr s page.val with
      | none => s.answered .rap
      | some k => if bit v.toNat 7 then conclude (nrCtl k v.toNat (s.answered .rap)) else s.answered .rap) := by
  change execNrOvfClear page v s = _
  rw [execNrOvfClear, rapDo_takes ht, winNr_answered] <;> rfl

theorem nrEnable_config (k v : Nat) (s : State) :
    nrEnable k (s.modNr k (·.config v)) =
      if (s.nr k).enabled then s.modNr k (·.config v)
      else if 10 < (s.nr k).size then (s.modNr k (·.config v)).modNr k fun x => { x with cfgErr := true }
      else resumeNotes k ((s.modNr k (·.config v)).modNr k fun x => { x with enabled := true, scan := 0, half := false, ovf := false }) := by
  simp only [nrEnable, State.nr_modNr, Notif.config_enabled, Notif.config_size, gt_iff_lt]

theorem nrDisable_config (k v : Nat) (s : State) :
    nrDisable k (s.modNr k (·.config v)) =
      if (s.nr k).enabled = false then s.modNr k (·.config v)
      else if nrBound s k then (s.modNr k (·.config v)).modNr k fun x => { x with cfgErr := true }
      else (unwriteRecs k (match (s.nr k).rdId with
          | some id => dropBuf id (s.modNr k (·.config v))
          | none => s.modNr k (·.config v))).modNr k fun x => { x with enabled := false, rdId := none, retry := false } := by
  have hbound : nrBound (s.modNr k (·.config v)) k = nrBound s k := nrBound_congr (State.modNr_rings ..) k
  simp only [nrDisable, State.nr_modNr, hbound, Bool.not_eq_true', Notif.config_enabled, Notif.config_rdId] <;> rfl

/-- A write turns the ring on or off as ENABLE says, and one that clears NR_OVF then resumes the records. -/
theorem nrCtl_config (k v : Nat) (s : State) :
    nrCtl k v s =
      let w := if bit v 0 then nrEnable k (s.modNr k (·.config v)) else nrDisable k (s.modNr k (·.config v))
      if (s.nr k).ovf && bit v 7 then resumeNotes k w else w := rfl

/-! ### The read before a record and the holdoff (R131, R134) -/

theorem exec_notificationRecord {s : State} {k : NrId} {b : RdBuf} (h : (s.nr k.val).rdId.bind s.buf? = some b) :
    exec (.notificationRecord k) s = .next
      (let t := dropBuf b.id (s.modNr k.val fun x => { x with rdId := none, retry := false })
       match b.res with
        | .pending => s
        | .ok => conclude (nrDeliver k.val b.data t)
        | .xlate _ _ _ => conclude (nrFault k.val t)
        | .ic => if (s.nr k.val).retry then conclude (nrFault k.val t)
          else conclude (nrRead k.val (t.modNr k.val fun x => { x with retry := true }))) := by
  change execNotificationRecord k s = _
  rw [execNotificationRecord, h] <;> rfl

theorem exec_interruptHoldoffExpiry_owed {s : State} {k : NrId} {v : Nat} {dp : Bool} (h : (s.nr k.val).owed = some (v, dp)) :
    exec (.interruptHoldoffExpiry k) s = .next (conclude (sendVector (nrInst s k.val) v dp
      (s.modNr k.val fun x => { x with sent := some (now s), owed := none }))) := by
  change execInterruptHoldoffExpiry k s = _
  rw [execInterruptHoldoffExpiry, h]
  rfl

theorem exec_interruptHoldoffExpiry_idle {s : State} {k : NrId} (h : (s.nr k.val).owed = none) :
    exec (.interruptHoldoffExpiry k) s = .next (s.modNr k.val fun x => { x with sent := none }) := by
  change execInterruptHoldoffExpiry k s = _
  rw [execInterruptHoldoffExpiry, h]

/-- Settles O21: `nrCtl` turns the ring by its state and its bindings, and the read before a record ends by its result. -/
theorem notificationRings : Obligations.NotificationRings := by
  unfold Obligations.NotificationRings
  refine ⟨fun s n hen hbar => applyEnable_barred ⟨hen, hbar⟩, fun s page v k ht hw => ?control,
    fun s k n => nrBound_of_mem, fun s k id b hid hb => ?record,
    fun s k => ⟨fun v dp => exec_interruptHoldoffExpiry_owed, exec_interruptHoldoffExpiry_idle⟩⟩
  case control =>
    have henable := exec_nrEnable ht
    have hdisable := exec_nrDisable_window ht
    have hclear := exec_nrOvfClear ht
    have hbound : nrBound (s.answered .rap) k = nrBound s k := nrBound_congr (State.answered_rings ..) k
    simp only [hw, nrCtl_config, nrEnable_config, nrDisable_config, State.answered_nr, hbound] at henable hdisable hclear
    refine ⟨fun hv hen hsize hovf => ?_, fun hv hen hsize hovf => ?_, fun hv hen hb hovf => ?_, fun hv hen hb hovf hrd => ?_,
      fun hv hv7 hen hovf => ?_⟩
    · simp [henable, hv, hen, Nat.not_lt.mpr hsize, hovf, Notif.config]
    · simp [henable, hv, hen, hsize, hovf, Notif.config]
    · simp [hdisable, hv, hen, hb, hovf, Notif.config]
    · simp [hdisable, hv, hen, hb, hovf, hrd, Notif.config]
    · simp [hclear, hv, hv7, hen, hovf, Notif.config]
  case record =>
    have hread := exec_notificationRecord (s := s) (k := k) (b := b) (by rw [hid]; exact hb)
    refine ⟨fun hres => ?_, fun c a l hres => ?_, fun hres hretry => ?_, fun hres hretry => ?_⟩
    · rw [hread, hres]
    · rw [hread, hres]
    · simp only [hread, hres, hretry, if_true]
    · simp only [hread, hres, hretry, Bool.false_eq_true, if_false]

/-- Settles O57: each form is its shared operation on every path, and the operation's cases are those of R131 to R134 and R524. -/
theorem notificationFormsComplete : Obligations.NotificationFormsComplete := by
  unfold Obligations.NotificationFormsComplete
  refine ⟨fun s page v ht => ?forms, fun s k v => ?control, fun s k => ?record, fun s k =>
    ⟨fun v dp h => ⟨_, exec_interruptHoldoffExpiry_owed h, rfl⟩, fun h => ⟨_, exec_interruptHoldoffExpiry_idle h, rfl⟩⟩⟩
  case forms =>
    refine ⟨fun hw => ?_, fun k hw => ?_⟩
    · rw [exec_nrEnable ht, exec_nrDisable_window ht, exec_nrOvfClear ht, hw]
      exact ⟨rfl, rfl, rfl⟩
    · rw [exec_nrEnable ht, exec_nrDisable_window ht, exec_nrOvfClear ht, hw]
      exact ⟨fun hv => ⟨_, by simp only [hv, if_true], rfl⟩, fun hv => ⟨_, by simp only [hv, Bool.false_eq_true, if_false], rfl⟩,
        fun hv => ⟨_, by simp only [hv, if_true], rfl⟩⟩
  case control =>
    rw [nrCtl_config, nrEnable_config, nrDisable_config]
    simp only [Bool.not_eq_true']
    rfl
  case record =>
    refine ⟨fun hnone => ?_, fun b hb => ?_⟩
    · change execNotificationRecord k s = _
      rw [execNotificationRecord, hnone]
    · have hread := exec_notificationRecord hb
      refine ⟨fun hres => ?_, fun hres => ?_, fun hres hretry => ?_, ?_⟩
      · rw [hread, hres]
      · rw [hres] at hread
        exact ⟨_, hread, rfl⟩
      · simp only [hres, hretry, Bool.false_eq_true, if_false] at hread
        exact ⟨_, hread, rfl⟩
      · rintro (⟨hres, hretry⟩ | ⟨c, x, y, hres⟩)
        · simp only [hres, hretry, if_true] at hread
          exact ⟨_, hread, rfl⟩
        · rw [hres] at hread
          exact ⟨_, hread, rfl⟩

end Sys2Proof.Machine
end

section
/-! PROOFS. The SA Index Table: lookups, events, holdoffs and control (R282 to R294), and that its forms complete. -/

namespace Sys2Proof.Machine

@[simp] theorem State.table_modTable (s : State) (i : Nat) (f : Sit → Sit) : ((s.modTable i f).inst i).sit = f (s.inst i).sit := by
  simp [State.modTable]

@[simp] theorem dropBuf_inst (id : Nat) (s : State) (i : Nat) : (dropBuf id s).inst i = s.inst i := rfl

/-! ### Lookups (R288 to R290) -/

section
variable {s : State} {id : Nat} {l : Lookup} {b : RdBuf}
  (hfind : s.sit.lookups.find? (fun l => decide (l.id = id) && !l.again) = some l) (hbuf : s.buf? l.rid = some b)
include hfind hbuf

theorem exec_sitLookup_pending (hres : b.res = .pending) : exec (.sitLookup id) s = .next s := by
  change execSitLookup id s = _
  simp [execSitLookup, hfind, hbuf, hres]

theorem exec_sitLookup_gone (hres : b.res ≠ .pending) (hinst : frameInst s l.port l.frame = none) :
    exec (.sitLookup id) s
      = .next (dropBuf b.id (s.modSit fun t => { t with lookups := t.lookups.filter fun x => x.id != id })) := by
  change execSitLookup id s = _
  cases h : b.res <;> simp_all [execSitLookup]

theorem exec_sitLookup_xlate {i c x y : Nat} (hinst : frameInst s l.port l.frame = some i) (hres : b.res = .xlate c x y) :
    exec (.sitLookup id) s = .next (conclude (failFrame l.port l.frame (res 9 c)
      (dropBuf b.id (s.modSit fun t => { t with lookups := t.lookups.filter fun x => x.id != id })))) := by
  change execSitLookup id s = _
  simp [execSitLookup, hfind, hbuf, hres, hinst, xlateRes]

theorem exec_sitLookup_ic {i : Nat} (hinst : frameInst s l.port l.frame = some i) (hres : b.res = .ic) :
    exec (.sitLookup id) s = .next (conclude (failFrame l.port l.frame icError
      (dropBuf b.id (s.modSit fun t => { t with lookups := t.lookups.filter fun x => x.id != id })))) := by
  change execSitLookup id s = _
  simp [execSitLookup, hfind, hbuf, hres, hinst]

/-- The bucket has been read: it decides the lookup, or is locked and read again five times at most. -/
theorem exec_sitLookup_ok {i : Nat} (hinst : frameInst s l.port l.frame = some i) (hres : b.res = .ok) :
    exec (.sitLookup id) s = .next
      (let u := dropBuf b.id (s.modSit fun t => { t with lookups := t.lookups.filter fun x => x.id != id })
       if bit (leAt b.data 0 4) 28 then
         if l.reads < 5 then u.modSit fun t => { t with lookups := t.lookups ++ [{ l with again := true }] }
         else conclude (failFrame l.port l.frame (res 0x15 0) u)
       else conclude (sitDecide i l b.data u)) := by
  change execSitLookup id s = _
  simp [execSitLookup, hfind, hbuf, hres, hinst]

end

theorem sitDecide_some {i : Nat} {l : Lookup} {b : List Byte} {e : Nat × List Byte} (h : sitMatch l b = some e) (s : State) :
    sitDecide i l b s = sitHit i l (badMask b) e s := by
  rw [sitDecide, h, Option.elim_some]

theorem sitDecide_none {i : Nat} {l : Lookup} {b : List Byte} (h : sitMatch l b = none) (s : State) :
    sitDecide i l b s = sitMiss i l (badMask b) s := by
  rw [sitDecide, h, Option.elim_none]

/-! ### Events (R293) -/

theorem exec_sitEventWrite_writing {s : State} {vi : ViId} (h : (s.inst vi.val).sit.wr ≠ none) :
    exec (.sitEventWrite vi) s = .next (conclude (sitWritten vi.val s)) := by
  change execSitEventWrite vi s = _
  simp [execSitEventWrite, Option.isSome_iff_ne_none, h]

section
variable {s : State} {vi : ViId} {b : RdBuf} {e : SitEvt} {rest : List SitEvt} (hwr : (s.inst vi.val).sit.wr = none)
  (hbuf : (s.inst vi.val).sit.rdId.bind s.buf? = some b) (hev : (s.inst vi.val).sit.events = e :: rest)
include hwr hbuf hev

theorem exec_sitEventWrite_pending (hres : b.res = .pending) : exec (.sitEventWrite vi) s = .next s := by
  change execSitEventWrite vi s = _
  simp [execSitEventWrite, hwr, hbuf, hev, hres]

theorem exec_sitEventWrite_free (hres : b.res = .ok) (hfree : bit (leAt b.data 15 1) 7 = false) :
    exec (.sitEventWrite vi) s = .next (conclude (sitWritten vi.val (conclude (sitWrite vi.val e
      (dropBuf b.id (s.modTable vi.val fun x => { x with rdId := none })))))) := by
  change execSitEventWrite vi s = _
  simp [execSitEventWrite, hwr, hbuf, hev, hres, hfree]

theorem exec_sitEventWrite_taken (hend : b.res ≠ .pending) (hbad : b.res ≠ .ok ∨ bit (leAt b.data 15 1) 7 = true) :
    exec (.sitEventWrite vi) s
      = .next (conclude (sitDrop vi.val (dropBuf b.id (s.modTable vi.val fun x => { x with rdId := none })))) := by
  have hnot : (b.res == .ok && !bit (leAt b.data 15 1) 7) = false := by
    rw [Bool.and_eq_false_iff, beq_eq_false_iff_ne, Bool.not_eq_false']
    exact hbad
  change execSitEventWrite vi s = _
  simp [execSitEventWrite, hwr, hbuf, hev, hend, hnot]

end

theorem sitWritten_issued {s : State} {i : Nat} {e : SitEvt} {rest : List SitEvt}
    (hout : (s.mem.waiting.any fun a => a.own == .sitEvtWr i) = false) (hev : (s.inst i).sit.events = e :: rest)
    (hwr : (s.inst i).sit.wr = some true) :
    sitWritten i s = sitKick i (sitInterrupt i e.vec (s.modTable i fun x =>
      { x with events := rest, wr := none, evtNext := (x.evtNext + 1) % 2 ^ (6 + x.evtSize) })) := by
  simp only [sitWritten, hout, hev, hwr, Bool.false_eq_true, if_false]

theorem sitWritten_faulted {s : State} {i : Nat} (hout : (s.mem.waiting.any fun a => a.own == .sitEvtWr i) = false)
    (hwr : (s.inst i).sit.wr = some false) : sitWritten i s = sitDrop i s := by
  simp only [sitWritten, hout, hwr, Bool.false_eq_true, if_false]

/-! ### The holdoff and control (R282, R283, R293) -/

theorem exec_sitInterruptHoldoff {s : State} {vi : ViId} (h : (s.inst vi.val).sit.holding = true) :
    exec (.sitInterruptHoldoff vi) s = .next
      (let t := s.modTable vi.val fun x => { x with holding := false, owed := none }
       if (s.inst vi.val).sit.owed.isSome then conclude (sitInterrupt vi.val (s.inst vi.val).sit.owed t) else t) := by
  change execSitInterruptHoldoff vi s = _
  simp [execSitInterruptHoldoff, h]

theorem exec_sitEnable {s : State} {vi : ViId} {v : RapWord} (ht : s.takes (pageBase vi.val + 0x4C) v = true)
    (hv : bit v.toNat 0 = true) : exec (.sitEnable vi v) s = .next (sitCtl vi.val v.toNat (s.answered .rap)) := by
  change execSitEnable vi v s = _
  simp [execSitEnable, rapDo_takes ht, hv]

theorem exec_sitStop {s : State} {vi : ViId} {v : RapWord} (ht : s.takes (pageBase vi.val + 0x4C) v = true)
    (hv : bit v.toNat 0 = false) : exec (.sitStop vi v) s = .next (sitCtl vi.val v.toNat (s.answered .rap)) := by
  change execSitStop vi v s = _
  simp [execSitStop, rapDo_takes ht, hv]

/-- The stop of a table with nothing in flight is complete, and an enable that waits is then applied. -/
theorem exec_sitStopComplete {s : State} {vi : ViId} (hbusy : sitBusy s vi.val = false)
    (hst : (s.inst vi.val).sit.st = .stopping ∨ (s.inst vi.val).sit.st = .pendingEnable) :
    exec (.sitStopComplete vi) s = .next
      (let off := s.modTable vi.val fun t => { t with st := .disabled }
       if (s.inst vi.val).sit.st = .pendingEnable then sitApply vi.val off else off) := by
  change execSitStopComplete vi s = _
  simp [execSitStopComplete, hbusy, hst, sitStopped]

/-- Settles O30: a lookup ends by its bucket, an event by its slot, and the control by the table's state. -/
theorem saIndexTable : Obligations.SaIndexTable := by
  unfold Obligations.SaIndexTable
  refine ⟨fun s id l b i hfind hbuf hinst => ?lookup, fun s i l b => ?decide, fun s id l i hfind hinst => ?again,
    fun s vi k b e rest hwr hrd hbuf hev => ?slot, fun s vi e rest hout hev => ?written, fun s i => rfl, fun s => rfl,
    fun s vi hhold => ?holdoff, fun s vi v ht => ⟨exec_sitEnable ht, exec_sitStop ht⟩, fun s i => ?control, fun s vi hbusy => ?stopped⟩
  case lookup =>
    refine ⟨fun hres hopen => ?_, fun hres hlock hreads => ?_, fun hres hlock hreads => ?_, fun c x y hres => ?_⟩
    · simp [exec_sitLookup_ok hfind hbuf hinst hres, hopen]
    · simp [exec_sitLookup_ok hfind hbuf hinst hres, hlock, hreads]
    · simp [exec_sitLookup_ok hfind hbuf hinst hres, hlock, Nat.not_lt.mpr hreads]
    · rw [exec_sitLookup_xlate hfind hbuf hinst hres]
  case decide =>
    refine ⟨fun e h => ?_, fun h hmask => ?_, fun h hmask => ?_⟩
    · rw [sitDecide_some h]; rfl
    · rw [sitDecide_none h, sitMiss, if_pos hmask]; rfl
    · rw [sitDecide_none h, sitMiss, if_neg hmask]
  case again =>
    change execSitLockRetry id s = _
    simp [execSitLockRetry, hfind, hinst]
  case slot =>
    have hbuf' : (s.inst vi.val).sit.rdId.bind s.buf? = some b := by rw [hrd]; exact hbuf
    refine ⟨fun hres hfree => ?_, fun hres htaken => ?_⟩
    · rw [exec_sitEventWrite_free hwr hbuf' hev hres hfree]
      simp [sitWrite]
    · rw [exec_sitEventWrite_taken hwr hbuf' hev (by simp [hres]) (.inr htaken)]
  case written =>
    refine ⟨fun hwr => ?_, fun hwr => ?_⟩
    · rw [exec_sitEventWrite_writing (by simp [hwr]), sitWritten_issued hout hev hwr]
    · rw [exec_sitEventWrite_writing (by simp [hwr]), sitWritten_faulted hout hwr]
  case holdoff =>
    rw [exec_sitInterruptHoldoff hhold]
    refine ⟨fun v howed => ?_, fun howed => ?_⟩
    · simp [howed]
    · simp [howed]
  case control =>
    refine ⟨fun hst => ?_, fun hst => ?_, ?_⟩
    · simp [sitEn, hst, sitApply, or_assoc]
    · simp [sitEn, hst]
    · rintro (hst | hst) <;> simp [sitEn, hst]
  case stopped =>
    refine ⟨fun hst => ?_, fun hst => ?_⟩
    · simp [exec_sitStopComplete hbusy (.inl hst), hst]
    · simp [exec_sitStopComplete hbusy (.inr hst), hst]

/-- Settles O58: the same operations with the cases left in which nothing waits, is due or is in flight. -/
theorem sitFormsComplete : Obligations.SitFormsComplete := by
  unfold Obligations.SitFormsComplete
  refine ⟨fun s id => ⟨fun hnone => ?noLookup, fun hnone => ?noRetry⟩, fun s id l hfind => ⟨fun hbuf => ?unread, fun b hbuf => ?lookup⟩,
    fun s id l hfind => ?again, fun s vi => ⟨fun hwr => ⟨_, exec_sitEventWrite_writing hwr, rfl⟩, fun hwr hidle => ?noEvent,
      fun hwr b e rest hbuf hev => ?slot⟩, fun s => ⟨_, rfl, rfl⟩, fun s vi => ⟨fun hhold => ?idle, fun hhold howed => ?ends,
      fun v hhold howed => ?owed⟩, fun s vi v ht => ⟨fun hv => ⟨_, exec_sitEnable ht hv, rfl⟩, fun hv => ⟨_, exec_sitStop ht hv, rfl⟩⟩,
    fun s vi => ⟨fun hbusy => ?busy, fun hbusy hst => ?stopped, fun hbusy hst => ?applied⟩⟩
  case noLookup =>
    change execSitLookup id s = _
    simp [execSitLookup, hnone]
  case noRetry =>
    change execSitLockRetry id s = _
    simp [execSitLockRetry, hnone]
  case unread =>
    change execSitLookup id s = _
    simp [execSitLookup, hfind, hbuf]
  case lookup =>
    refine ⟨exec_sitLookup_pending hfind hbuf, exec_sitLookup_gone hfind hbuf, fun i hinst =>
      ⟨fun hres => ⟨_, exec_sitLookup_ic hfind hbuf hinst hres, rfl⟩,
       fun c x y hres => ⟨_, exec_sitLookup_xlate hfind hbuf hinst hres, rfl⟩,
       fun hres => ⟨_, exec_sitLookup_ok hfind hbuf hinst hres, ?_⟩⟩⟩
    cases bit (leAt b.data 0 4) 28 <;> simp
  case again =>
    refine ⟨_, ?_, rfl⟩
    change execSitLockRetry id s = _
    cases hinst : frameInst s l.port l.frame <;> simp [execSitLockRetry, hfind, hinst]
  case noEvent =>
    change execSitEventWrite vi s = _
    rcases hidle with h | h
    · simp [execSitEventWrite, hwr, h]
    · cases hb : (s.inst vi.val).sit.rdId.bind s.buf? <;> simp [execSitEventWrite, hwr, h, hb]
  case slot =>
    exact ⟨exec_sitEventWrite_pending hwr hbuf hev, fun hres hfree => ⟨_, exec_sitEventWrite_free hwr hbuf hev hres hfree, rfl⟩,
      fun hend hbad => ⟨_, exec_sitEventWrite_taken hwr hbuf hev hend hbad, rfl⟩⟩
  case idle =>
    change execSitInterruptHoldoff vi s = _
    simp [execSitInterruptHoldoff, hhold]
  case ends =>
    refine ⟨_, exec_sitInterruptHoldoff hhold, ?_⟩
    simp [howed]
  case owed =>
    refine ⟨_, exec_sitInterruptHoldoff hhold, ?_⟩
    simp [howed, sitInterrupt]
  case busy =>
    change execSitStopComplete vi s = _
    rcases hbusy with h | h | h <;> simp [execSitStopComplete, h]
  case stopped =>
    refine ⟨_, exec_sitStopComplete hbusy (.inl hst), ?_⟩
    simp [hst]
  case applied =>
    refine ⟨_, exec_sitStopComplete hbusy (.inr hst), ?_⟩
    simp [hst]

end Sys2Proof.Machine
end

section
/-! PROOFS. Fault records and the fault message (R420, R503), and register writes on the RAP (R54, R70, R95, R444). -/

namespace Sys2Proof.Machine

/-! ### Fault records -/

theorem fltWritten_queued {s : State} {i : Nat} (h : (s.mem.waiting.any fun a => a.own == .fltWr i) = false) (ok : Bool)
    (hwr : (s.inst i).fltWr = some ok) :
    fltWritten i s =
      let t := s.modInst i fun x => { x with fltRecs := x.fltRecs.drop 1, fltWr := none }
      fltKick i (if ok then fltInterrupt i (t.modInst i fun x => { x with fltNext := (x.fltNext + 1) % 256 }) else fltDrop i t) := by
  cases ok <;> simp [fltWritten, h, hwr]

theorem exec_faultRecordWrite_writing {s : State} {i : InstId} {ok : Bool} (hwr : (s.inst i.val).fltWr = some ok) :
    exec (.faultRecordWrite i) s = .next (conclude (fltWritten i.val s)) := by
  change execFaultRecordWrite i s = _
  simp [execFaultRecordWrite, hwr]

/-- The read of the fault area has ended: its own word says whether the next record is free. -/
theorem exec_faultRecordWrite_read {s : State} {i : InstId} {id : Nat} {b : RdBuf} {r : FltRec} {rest : List FltRec}
    (hwr : (s.inst i.val).fltWr = none) (hrd : (s.inst i.val).fltRd = some id) (hbuf : s.buf? id = some b)
    (hrecs : (s.inst i.val).fltRecs = r :: rest) (hres : b.res ≠ .pending) :
    exec (.faultRecordWrite i) s = .next
      (let t := dropBuf b.id (s.modInst i.val fun x => { x with fltRd := none })
       if b.res = .ok ∧ bit (leAt b.data 31 1) 7 = false then conclude (fltWritten i.val (conclude (fltWrite i.val r t)))
       else conclude (fltKick i.val (fltDrop i.val (t.modInst i.val fun x => { x with fltRecs := x.fltRecs.drop 1 })))) := by
  change execFaultRecordWrite i s = _
  cases hb : b.res <;> simp_all [execFaultRecordWrite]

/-- Settles O24: the record's read decides between its two writes and a drop; the issued writes advance NEXT. -/
theorem faultReports : Obligations.FaultReports := by
  refine ⟨fun s i id b r rest hwr hrd hbuf hrecs hres => ⟨fun hok hfree => ?free, fun hno => ?taken⟩,
    fun s i hquiet => ⟨fun hwr => ?written, fun hwr => ?faulted⟩, fun s hheld => ?holdoff⟩
  case free =>
    rw [exec_faultRecordWrite_read hwr hrd hbuf hrecs hres]
    dsimp only
    rw [if_pos ⟨hok, hfree⟩]
    simp only [fltWrite, fltAddr, dropBuf_inst, State.inst_modInst]
  case taken =>
    rw [exec_faultRecordWrite_read hwr hrd hbuf hrecs hres]
    dsimp only
    rw [if_neg (by rcases hno with h | h <;> simp [h])]
    rfl
  case written => rw [exec_faultRecordWrite_writing hwr, fltWritten_queued hquiet _ hwr]; rfl
  case faulted => rw [exec_faultRecordWrite_writing hwr, fltWritten_queued hquiet _ hwr]; rfl
  case holdoff =>
    change execFaultMsgHoldoff s = _
    simp [execFaultMsgHoldoff, hheld, State.modModes]

/-! ### Register writes -/

theorem unmapped_iff (a : Nat) : unmapped a = true ↔ (0x910000 ≤ a ∧ a ≤ 0x9FFFFF) ∨ 0xB00000 ≤ a := by
  simp [unmapped]

theorem regWrite_global {addr : Nat} (h : addr / 4 * 4 < 0x100000) (v : Nat) (s : State) :
    regWrite addr v s = globalWrite (addr / 4 * 4) v s := by
  simp only [regWrite]
  rw [if_neg (by rw [unmapped_iff]; omega), if_pos h]

/-- A write on a page acts on the register at its offset. -/
theorem regWrite_page (i : InstId) {o : Nat} (ho : o < 0x10000) (h4 : o % 4 = 0) (v : Nat) (s : State) :
    regWrite (0x100000 + o + 0x10000 * i.val) v s = pageWrite i.val o v s := by
  have hi := i.isLt
  have ha : (0x100000 + o + 0x10000 * i.val) / 4 * 4 = 0x100000 + o + 0x10000 * i.val := by omega
  have hpage : (0x100000 + o + 0x10000 * i.val - 0x100000) / 0x10000 = i.val := by omega
  have hoff : (0x100000 + o + 0x10000 * i.val) % 0x10000 = o := by omega
  simp only [regWrite, ha, hpage, hoff]
  rw [if_neg (by rw [unmapped_iff]; omega), if_neg (by omega), if_pos (by omega)]

theorem State.modRing_congr {s : State} {n : Nat} {f g : Ring → Ring} (h : f (s.ring n) = g (s.ring n)) :
    s.modRing n f = s.modRing n g :=
  congrArg (s.setRing n) h

theorem ringBase_disabled {s : State} {n : Nat} (hst : (s.ring n).st = .disabled) (f : Ring → Ring) :
    ringBase n f s = s.modRing n f :=
  State.modRing_congr (by
    by_cases h : f (s.ring n) = s.ring n
    · rw [if_pos h, h]
    · rw [if_neg h, if_pos (by simp [hst])])

theorem ringBase_refused {s : State} {n : Nat} (hst : (s.ring n).st ≠ .disabled) {f : Ring → Ring} (hne : f (s.ring n) ≠ s.ring n) :
    ringBase n f s = s.modRing n fun r => { r with cfgErr := true } :=
  State.modRing_congr (by rw [if_neg hne, if_neg (by simp [hst])])

theorem regWrite_ringBaseLo {s : State} {i : InstId} {n : Nat} (hsel : winRing s i.val = some n) (v : Nat) :
    regWrite (0x100024 + 0x10000 * i.val) v s =
      ringBase n (fun r => { r with size := fld v 0 4, base := setFld r.base 12 20 (fld v 12 20) }) s := by
  have h := regWrite_page i (o := 0x24) (by omega) (by omega) v s
  simp only [pageWrite, ringBaseLo, hsel] at h
  exact h

theorem rapDo_icBad {s : State} {addr : Nat} {v : RapWord} (hup : s.portUp = true) (hbad : rapIcBad s addr v = true)
    (f : State → State) : rapDo addr v f s = conclude (rapIcFail (s.answered .rap)) := by
  obtain ⟨hp, hh⟩ := s.portUp_iff.mp hup
  have hbad' : rapIcBad (s.modPort fun p => { p with rapErr := false }) addr v = true := hbad
  simp [rapDo, rapOpen, hp, hh, hbad', State.answered]

theorem rapOpen_halted {s : State} (hp : powered s = true) (hh : s.modes.halted = true) (f : State → State) :
    rapOpen f s = { s with port := { s.port with rapErr := true, rapData := 0 } } := by
  simp [rapOpen, hp, hh, State.modPort]

theorem rapOpen_portUp {s : State} (hup : s.portUp = true) (f : State → State) : rapOpen f s = f (s.answered .rap) := by
  obtain ⟨hp, hh⟩ := s.portUp_iff.mp hup
  simp [rapOpen, hp, hh, State.answered]

theorem unmappedAccess_port (s : State) : unmappedAccess s =
    { s with port := { s.port with rapErr := true, rapData := 0, fault := s.port.fault ||| 0x1000000 } } := rfl

theorem exec_rapUnmappedAccess_write {s : State} {a : BitVec 24} {v : RapWord} (ht : s.takes a.toNat v = true)
    (hun : unmapped a.toNat = true) : exec (.rapUnmappedAccess a (some v)) s = .next (unmappedAccess (s.answered .rap)) := by
  change execRapUnmappedAccess a (some v) s = _
  simp only [execRapUnmappedAccess]
  rw [rapDo_takes ht, if_pos hun]

theorem exec_rapUnmappedAccess_read {s : State} {a : BitVec 24} (hup : s.portUp = true) (hun : unmapped a.toNat = true) :
    exec (.rapUnmappedAccess a none) s = .next (rapAnswer a.toNat true 0 (unmappedAccess (s.answered .rap))) := by
  change execRapUnmappedAccess a none s = _
  simp only [execRapUnmappedAccess]
  rw [rapOpen_portUp hup, if_pos hun, hun]

theorem regWrite_scratch (s : State) (k : Fin 16) (v : Word) : regWrite (0x70 + 4 * k.val) v.toNat s
    = { s with glb := { s.glb with scratch := tset s.glb.scratch 0 k.val v } } := by
  have hk := k.isLt
  have ha : (0x70 + 4 * k.val) / 4 * 4 = 0x70 + 4 * k.val := by omega
  have hlow : ∀ c, c < 0x70 → ¬ 0x70 + 4 * k.val = c := by omega
  rw [regWrite_global (by omega), ha, globalWrite, if_pos (by omega), glbWrite]
  simp [hlow, State.modGlb, word]
  omega

/-- Settles O25: `rapDo` says when a write acts, `regWrite` finds its register, and `ringBase` refuses a change that R95 bars. -/
theorem registerWrites : Obligations.RegisterWrites := by
  refine ⟨fun s a v ic hup => ⟨fun hok => ?good, fun hbad => ?bad⟩, regWrite_scratch, fun s v => ?msgData,
    fun s i v n hsel => ⟨fun hst hne => ?baseSet, fun hst hne => ?baseRefused⟩,
    fun s a hup hun => ⟨fun v ht => ?unmappedWrite, ?unmappedRead⟩, fun s a v ic w hp hh c hc => ?halted⟩
  case good =>
    have ht : s.takes a.toNat { data := v, ic := ic } = true := (s.takes_iff _ _).mpr ⟨hup, hok⟩
    change execConfigRegisterWrite a v ic s = _
    rw [execConfigRegisterWrite, rapDo_takes ht]
  case bad =>
    change execConfigRegisterWrite a v ic s = _
    rw [execConfigRegisterWrite, rapDo_icBad hup hbad]
    rfl
  case msgData =>
    rw [regWrite_global (by omega)]
    simp [globalWrite, glbWrite, State.modModes, word]
  case baseSet =>
    rw [regWrite_ringBaseLo hsel, ringBase_disabled hst]
  case baseRefused =>
    rw [regWrite_ringBaseLo hsel, ringBase_refused hst hne]
  case unmappedWrite => rw [exec_rapUnmappedAccess_write ht ((unmapped_iff _).mpr hun), unmappedAccess_port]; rfl
  case unmappedRead =>
    rw [exec_rapUnmappedAccess_read hup ((unmapped_iff _).mpr hun), unmappedAccess_port]
    simp only [rapAnswer, State.modPort, State.answered]
    rfl
  case halted =>
    simp only [List.mem_cons, List.not_mem_nil, or_false] at hc
    rcases hc with rfl | rfl
    · exact congrArg Host.Outcome.next (rapOpen_halted hp hh _)
    · cases w <;> exact congrArg Host.Outcome.next (rapOpen_halted hp hh _)

end Sys2Proof.Machine
end

section
/-! PROOFS. The power and start-up forms complete (R447, R485 to R487). -/

namespace Sys2Proof.Machine

theorem exec_mainPgRise_powered {s : State} (hp : powered s = true) (rep : BootReport) : exec (.mainPgRise rep) s = .next s := by
  change execMainPgRise rep s = _
  rw [execMainPgRise, if_pos hp]

theorem exec_bothSuppliesLost_powered {s : State} (hp : powered s = true) : exec .bothSuppliesLost s = .next s := by
  change execBothSuppliesLost s = _
  rw [execBothSuppliesLost, if_pos hp]

theorem exec_mainPgFall_unpowered {s : State} (hp : powered s = false) : exec .mainPgFall s = .next s := by
  change execMainPgFall s = _
  rw [execMainPgFall, if_pos (by simp [hp])]

theorem exec_startUpComplete_over {s : State} (h : s.modes.mode ≠ .boot ∨ s.modes.stage = .finished) (rep : BootReport) :
    exec (.startUpComplete rep) s = .next s := by
  change execStartUpComplete rep s = _
  rw [execStartUpComplete, if_pos (by simpa using h)]

theorem exec_startUpComplete_halted {s : State} (hm : s.modes.mode = .boot) (hst : s.modes.stage = .awaitAttach)
    (hh : s.modes.halted = true) (rep : BootReport) : exec (.startUpComplete rep) s = .next s := by
  change execStartUpComplete rep s = _
  simp [execStartUpComplete, hm, hst, hh]

/-- A start-up that has not begun is run first, and ends where it halted the block or left Boot. -/
theorem exec_startUpComplete_atStart {s : State} (hm : s.modes.mode = .boot) (hst : s.modes.stage = .atStart) (rep : BootReport) :
    exec (.startUpComplete rep) s = .next
      (if (bootRun rep (bootPins rep s)).modes.halted || (bootRun rep (bootPins rep s)).modes.mode != .boot then bootRun rep (bootPins rep s)
       else conclude (reformatRings (selectMode (bootAttach rep.attach (bootRun rep (bootPins rep s)))))) := by
  change execStartUpComplete rep s = _
  rw [execStartUpComplete, if_neg (by simp [hm, hst])]
  simp only [hst, beq_self_eq_true, if_true]

/-- Settles O56: each power form by whether main power is present, the end of the start-up by the mode and its stage. -/
theorem powerFormsComplete : Obligations.PowerFormsComplete := by
  unfold Obligations.PowerFormsComplete
  refine ⟨fun s hp => ⟨?fall, exec_mainPgRise_powered hp, exec_bothSuppliesLost_powered hp⟩,
    fun s rep hp => ⟨?rise, exec_mainPgFall_unpowered hp, _, exec_bothSuppliesLost hp, rfl, rfl, rfl, rfl, rfl⟩,
    fun s rep => ⟨fun h => exec_startUpComplete_over h rep, fun hm hst hh => exec_startUpComplete_halted hm hst hh rep,
      fun hm hst hh => exec_startUpComplete_awaiting hm hst hh rep, fun hm hst => ⟨fun hend => ?ended, fun hh hm' => ?concluded⟩⟩,
    fun s => ⟨_, rfl, rfl⟩, fun s => ⟨_, rfl, rfl⟩⟩
  case fall =>
    obtain ⟨l, src, h⟩ := execMainPgFall_leaves hp
    exact ⟨_, h, rfl, rfl, rfl, rfl, rfl, rfl, rfl, rfl, rfl⟩
  case rise =>
    change execMainPgRise rep s = _
    rw [execMainPgRise, if_neg (by simp [hp])]
    rfl
  case ended => rw [exec_startUpComplete_atStart hm hst, if_pos (by simpa using hend)]
  case concluded => rw [exec_startUpComplete_atStart hm hst, if_neg (by simp [hh, hm'])]

end Sys2Proof.Machine
end

section
/-! PROOFS. The dispatcher: rounds, grants, admission and the mismatch of its halves (R23, R29, R120, R236, R411, R412). -/

namespace Sys2Proof.Machine

@[simp] theorem Inst.credit_setCredit (v : Inst) (c : Sched) (n : Nat) : (v.setCredit c n).credit c = n := by cases c <;> rfl
@[simp] theorem Inst.weight_setCredit (v : Inst) (c : Sched) (n : Nat) : (v.setCredit c n).weight = v.weight := by cases c <;> rfl
@[simp] theorem Inst.burst_setCredit (v : Inst) (c : Sched) (n : Nat) : (v.setCredit c n).burst = v.burst := by cases c <;> rfl

theorem roundInst_weight (s : State) (c : Sched) (i : Nat) (v : Inst) : (roundInst s c i v).weight = v.newWeight := by
  simp only [roundInst]
  split
  · simp
  · split <;> simp

theorem roundInst_burst (s : State) (c : Sched) (i : Nat) (v : Inst) : (roundInst s c i v).burst = v.newBurst := by
  simp only [roundInst]
  split
  · simp
  · split <;> simp

/-- The credit after a round boundary, by whether there is work and whether a limit holds it back. -/
theorem roundInst_credit (s : State) (c : Sched) (i : Nat) (v : Inst) : (roundInst s c i v).credit c =
    if hasWork s i c = false then 0
    else if shpHolds v c || heldBack s i c then min (v.credit c) v.newBurst
    else min (v.credit c + v.newWeight) v.newBurst := by
  have hcr : Inst.credit { v with weight := v.newWeight, burst := v.newBurst } c = v.credit c := by cases c <;> rfl
  have hshp : shpHolds { v with weight := v.newWeight, burst := v.newBurst } c = shpHolds v c := rfl
  simp only [roundInst, hcr, hshp]
  cases hasWork s i c
  · simp
  · cases shpHolds v c || heldBack s i c <;> simp

theorem exec_schedulerRound {s : State} {c : Sched} (hp : powered s = true) (hg : nextGrant s c = none) :
    exec (.schedulerRound c) s = .next
      (let t := (tkeys s.insts).foldl (fun t i => t.modInst i (roundInst s c i))
        ((s.modFab fun b => { b with rounds := b.rounds ||| schedBit c }).modTurn c (newRound s))
       if c == .lane then t.modBlw fun b => { b with limit := b.pendLimit } else t) := by
  change execSchedulerRound c s = _
  rw [execSchedulerRound, if_neg (by simp [hp, hg])]

theorem exec_admission {s : State} {c : Sched} {i : Nat} {w : Work} {u : Turn} (hg : nextGrant s c = some (i, w, u)) (flip : Option Nat) :
    exec (.admission ⟨c, flip⟩) s = .next
      (let t := if c == .lane then passSlot s else s
       if c == .lane && slotClosed t then t else conclude (admitWork i flip w (t.modTurn c fun _ => u))) := by
  change execAdmission ⟨c, flip⟩ s = _
  simp only [execAdmission, hg]

theorem admitEntry_verdict {n : Nat} {e : Entry} {i : Nat} {s : State} {v : Res} (hv : e.verdict = some v) :
    admitEntry n e i s = takeCached n e (some (chainVerdict (e.headers.any fun h => hdrReserved (hOpc h.2) h.2 e.body) v))
      (chargeSlot i (schedOf (hOpc e.hdr)) (firstBytes (hOpc e.hdr) e.body) s) := by
  simp only [admitEntry, hv]

theorem admitEntry_refused {n : Nat} {e : Entry} {i : Nat} {s : State} {v : Res} (hv : e.verdict = none)
    (hchk : entryChecks s e = some v) :
    admitEntry n e i s = takeCached n e (some v) (chargeSlot i (schedOf (hOpc e.hdr)) (firstBytes (hOpc e.hdr) e.body) s) := by
  simp only [admitEntry, hv, hchk]

theorem admitEntry_passes {n : Nat} {e : Entry} {i tag : Nat} {s : State} (hv : e.verdict = none) (hchk : entryChecks s e = none)
    (htag : freeJobTag s = some tag) (heg : (ringJob n e tag i).egress = none) :
    admitEntry n e i s =
      let t := chargeSlot i (schedOf (hOpc e.hdr)) (firstBytes (hOpc e.hdr) e.body) s
      admitJob tag (takeCached n e none { t with jobs := t.jobs ++ [ringJob n e tag i] }) := by
  simp only [admitEntry, hv, hchk, htag, heg]

/-- Settles O26: the round boundary and the grant by their guards, the admitted entry by its verdict and its checks. -/
theorem dispatcherWork : Obligations.DispatcherWork := by
  unfold Obligations.DispatcherWork
  refine ⟨fun s c hp hg => ?round,
    fun s c i v => ⟨roundInst_weight s c i v, roundInst_burst s c i v, roundInst_credit s c i v⟩,
    fun s c flip i w u hg => ⟨fun hc => ?plain, fun hc hopen => ?lane⟩, fun s i n e j => ⟨rfl, rfl⟩,
    fun s n i tag e => ⟨fun v hv => admitEntry_verdict hv, fun v hv hchk => admitEntry_refused hv hchk,
      fun hv hchk htag heg => admitEntry_passes hv hchk htag heg⟩,
    fun s hp => ⟨fun hA hB => ?halfA, fun hA hB => ?halfB, fun hA hB => ?last, ?none⟩⟩
  case round =>
    rw [exec_schedulerRound hp hg]
    cases c <;> rfl
  case plain =>
    rw [exec_admission hg]
    cases c with
    | lane => exact absurd rfl hc
    | digest => rfl
    | anvil => rfl
  case lane =>
    subst hc
    rw [exec_admission hg]
    simp [hopen]
  case halfA =>
    change execDispatcherMismatch (some .a) s = _
    simp only [execDispatcherMismatch]
    rw [if_neg (by simp [hp]), if_neg (by simp [hA]), if_neg (by simp [hB])]
    rfl
  case halfB =>
    change execDispatcherMismatch (some .b) s = _
    simp only [execDispatcherMismatch]
    rw [if_neg (by simp [hp]), if_neg (by simp [hB]), if_neg (by simp [hA])]
    rfl
  case last =>
    change execDispatcherMismatch (some .a) s = _
    simp only [execDispatcherMismatch]
    rw [if_neg (by simp [hp]), if_neg (by simp [hA]), if_pos (by simp [hB])]
    rfl
  case none =>
    change execDispatcherMismatch none s = _
    simp only [execDispatcherMismatch, hp, Bool.not_true, Bool.false_eq_true, if_false]

end Sys2Proof.Machine
end

section
/-! PROOFS. The Vault: fetches, deliveries, evictions, seals, the reseal sweep and VLT_CTL (R251 to R257, R265, R475, R476). -/

namespace Sys2Proof.Machine

/-! ### Fetches (R253 to R255) -/

/-- Every miss of the handle may still fetch: none is given up, and the fetch starts. -/
theorem exec_vaultFetch_allowed {s : State} {h : Handle} (hst : fetchStarts s h.toNat = true)
    (hmiss : (s.vault.misses.any fun m => m.1 = h.toNat) = true)
    (hall : ∀ m ∈ s.vault.misses, m.1 = h.toNat → askByCommand s h.toNat m.2 = true ∨ fetchAllowed s = true) :
    exec (.vaultFetch h) s = .next (conclude (startFetch h.toNat s)) := by
  have hnone : (s.vault.misses.filter fun m => m.1 = h.toNat && !askByCommand s h.toNat m.2 && !fetchAllowed s) = [] := by
    refine List.filter_eq_nil_iff.mpr fun m hm => ?_
    by_cases hh : m.1 = h.toNat
    · rcases hall m hm hh with hc | hf
      · simp [hc]
      · simp [hf]
    · simp [hh]
  change execVaultFetch h s = _
  simp only [execVaultFetch]
  rw [if_neg (by simp [hst]), hnone, List.foldl_nil, if_pos hmiss]

theorem fetchEnd_fault {f : Fetch} {s : State} (h : readsFault s f.rids ≠ 0) :
    fetchEnd f s = endAll f.h (ctxMiss 2) (dropFetch f (vaultFault (readsFault s f.rids) f.h (readsFault s f.rids + 1) s)) := by
  cases hx : readsFault s f.rids with
  | zero => exact absurd hx h
  | succ n => simp only [fetchEnd, hx]

theorem fetchEnd_badTop {f : Fetch} {s : State} (h : readsFault s f.rids = 0) (htop : topGood s f.h f.rids = false) :
    fetchEnd f s = endAll f.h (ctxMiss 1) (dropFetch f (recFault f.h (some (1, 2)) s)) := by
  simp [fetchEnd, h, htop]

theorem fetchEnd_error {f : Fetch} {s : State} {x : Option (Nat × Nat)} (h : readsFault s f.rids = 0) (htop : topGood s f.h f.rids = true)
    (hx : openFetched (takeTop f.h f.rids s) f.h (readsData (takeTop f.h f.rids s) f.rids) = .error x) :
    fetchEnd f s = endAll f.h (ctxMiss 1) (dropFetch f (recFault f.h x (takeTop f.h f.rids s))) := by
  simp [fetchEnd, h, htop, hx]

theorem fetchEnd_opened {f : Fetch} {s : State} {r : Opened} (h : readsFault s f.rids = 0) (htop : topGood s f.h f.rids = true)
    (hr : openFetched (takeTop f.h f.rids s) f.h (readsData (takeTop f.h f.rids s) f.rids) = .ok r) :
    fetchEnd f s = deliverRecord f r (takeTop f.h f.rids s) := by
  simp [fetchEnd, h, htop, hr]

theorem exec_vaultFetchComplete {s : State} {h : Handle} {f : Fetch} (hf : s.vault.fetches.find? (fun f => f.h = h.toNat) = some f)
    (hp : powered s = true) (hend : readsEnded s f.rids = true) :
    exec (.vaultFetchComplete h) s = .next (conclude (vaultSettle (fetchEnd f s))) := by
  change execVaultFetchComplete h s = _
  simp [execVaultFetchComplete, hf, hp, hend]

/-- The owner alone asks for a context that is not in the cache, and there is room for it. -/
theorem deliverRecord_here {f : Fetch} {r : Opened} {s : State} (hask : askers s f.h = [recOwner r.hd]) (hout : s.ctxOf f.h = none)
    (hroom : roomFor s (recOwner r.hd) = .here) : deliverRecord f r s = releaseHandle f.h (loadRecord f.h r (dropFetch f s)) := by
  simp [deliverRecord, hask, hout, hroom]

/-! ### Evictions, seals and the sweep (R251, R256, R257, R476) -/

theorem exec_contextEviction {s : State} {h : Handle} {e : Nat} (hctx : s.ctxOf h.toNat = some e) (hp : powered s = true)
    (hen : s.vault.en = true) (hdue : evictDue s e = true) (hno : (s.vault.evicts.any fun v => v.h = h.toNat) = false) :
    exec (.contextEviction h) s = .next (conclude (startEvict h.toNat e false false s)) := by
  change execContextEviction h s = _
  simp only [execContextEviction, hctx]
  rw [if_pos (by simp only [hp, hen, hdue, hno]; rfl)]

section
variable {s : State} {h : Handle} {v : Evict} {e : Nat} (hv : s.vault.evicts.find? (fun v => v.h = h.toNat) = some v)
  (hctx : s.ctxOf h.toNat = some e) (hp : powered s = true) (hw : sealWaits s v e = false)
include hv hctx hp hw

theorem exec_evictionSeal_fault (hf : readsFault s v.rids ≠ 0) : exec (.evictionSeal h) s = .next (conclude (vaultSettle
    (giveUpSeal v e (vaultFault (readsFault s v.rids) v.h (readsFault s v.rids + 1) s)))) := by
  change execEvictionSeal h s = _
  cases hx : readsFault s v.rids with
  | zero => exact absurd hx hf
  | succ n => simp [execEvictionSeal, hv, hctx, hp, hw, hx]

/-- The reads have ended with data: the checks over it decide between the seal and its fault. -/
theorem exec_evictionSeal_read (hf : readsFault s v.rids = 0) : exec (.evictionSeal h) s = .next (conclude (vaultSettle
    (let n := fun (i : Nat) => (readsData s v.rids).getD i []
     if topGood s v.h v.rids ∧ nodesGood (takeTop v.h v.rids s) v.h (n 0) (n 1) (n 2) ∧ (vaultKey s s.ldg.vkeyGen).isSome then
       sealEntry v e (n 0) (n 1) (n 2) (takeTop v.h v.rids s)
     else giveUpSeal v e (recFault v.h (some (1, 2)) s)))) := by
  change execEvictionSeal h s = _
  simp only [execEvictionSeal, hv, hctx, hf]
  rw [if_neg (by simp [hp, hw])]
  cases topGood s v.h v.rids
  · simp
  cases nodesGood (takeTop v.h v.rids s) v.h ((readsData s v.rids).getD 0 []) ((readsData s v.rids).getD 1 [])
    ((readsData s v.rids).getD 2 [])
  · simp
  cases vaultKey s s.ldg.vkeyGen <;> simp

end

section
variable {s : State} (hruns : sweepRuns s = true)
include hruns

theorem exec_resealSweep_read {h : Nat} {rids : List Nat} (hr : s.vault.resealRids = some (h, rids)) (hend : readsEnded s rids = true)
    (hno : (s.vault.fetches.any fun f => f.h = h) = false) : exec .resealSweep s = .next (conclude (sweepRecord h rids s)) := by
  change execResealSweep s = _
  simp only [execResealSweep, hr, hruns, hend, hno]
  rfl

theorem exec_resealSweep_over (hr : s.vault.resealRids = none) (hover : 2 ^ 24 ≤ sweepNext 1048576 s s.vault.sweep) :
    exec .resealSweep s = .next (conclude (sweepDone s)) := by
  change execResealSweep s = _
  simp only [execResealSweep, hr]
  rw [if_neg (by simp [hruns]), if_pos hover]

theorem exec_resealSweep_next (hr : s.vault.resealRids = none) (hin : sweepNext 1048576 s s.vault.sweep < 2 ^ 24)
    (hno : s.vault.fetches = []) : exec .resealSweep s = .next (conclude (let h := sweepNext 1048576 s s.vault.sweep
      let p := vaultRead h true s
      p.1.modVault fun v => { v with sweep := h, resealRids := some (h, p.2) })) := by
  change execResealSweep s = _
  simp only [execResealSweep, hr]
  rw [if_neg (by simp [hruns]), if_neg (Nat.not_le.mpr hin), if_neg (by simp [hno])]

end

/-- A sweep past the last handle stays there. -/
theorem sweepNext_over {s : State} {h : Nat} (hh : 2 ^ 24 ≤ h) (fuel : Nat) : sweepNext fuel s h = h := by
  cases fuel with
  | zero => rfl
  | succ n => rw [sweepNext, if_pos hh]

/-- Settles O27: each transfer by the guard of its command and how its reads ended. -/
theorem vaultTransfers : Obligations.VaultTransfers := by
  unfold Obligations.VaultTransfers
  refine ⟨fun s h hst hmiss hall => exec_vaultFetch_allowed hst hmiss hall, fun s h f hf hp hend => ?fetched,
    fun s f r hask hout hroom => deliverRecord_here hask hout hroom, fun s h e hctx hp hen hdue hno => ?evict,
    fun s h v e hv hctx hp hw => ?sealed,
    fun s hruns => ⟨fun h rids hr hend hno => exec_resealSweep_read hruns hr hend hno, fun hr hover => ?sweepOver,
      fun hr hin hno => exec_resealSweep_next hruns hr hin hno⟩⟩
  case fetched =>
    rw [exec_vaultFetchComplete hf hp hend]
    by_cases h0 : readsFault s f.rids = 0
    · cases htop : topGood s f.h f.rids with
      | false => rw [fetchEnd_badTop h0 htop, if_neg (by simp [h0]), if_pos rfl]
      | true =>
        rw [if_neg (by simp [h0]), if_neg (by simp)]
        cases hx : openFetched (takeTop f.h f.rids s) f.h (readsData (takeTop f.h f.rids s) f.rids) with
        | error x => simp only [fetchEnd_error h0 htop hx, hx]
        | ok r => simp only [fetchEnd_opened h0 htop hx, hx]
    · rw [fetchEnd_fault h0, if_pos h0]
  case evict => rw [exec_contextEviction hctx hp hen hdue hno]; rfl
  case sealed =>
    by_cases h0 : readsFault s v.rids = 0
    · rw [exec_evictionSeal_read hv hctx hp hw h0]
      simp only [h0, ne_eq, not_true_eq_false, if_false]
    · rw [exec_evictionSeal_fault hv hctx hp hw h0]
      simp only [h0, ne_eq, not_false_eq_true, if_true]
  case sweepOver => exact exec_resealSweep_over hruns hr (by rw [sweepNext_over hover]; exact hover)

/-! ### VLT_CTL (R265) -/

@[simp] theorem putSystem_vault (k : Nat) (key : List Byte) (s : State) : (putSystem k key s).vault = s.vault := rfl
@[simp] theorem dropSystem_vault (k : Nat) (s : State) : (dropSystem k s).vault = s.vault := rfl

theorem deriveVault_vault (s : State) : (deriveVault s).vault = s.vault := by
  simp only [deriveVault]
  split
  · simp
  · split <;> simp

/-- What a write of VLT_CTL takes before INIT and EN act. -/
def vltTaken (n : Nat) (s : State) : State :=
  s.modVault fun x => { x with autoFetch := bit n 1, freeMin := fld n 8 8, lock := x.lock || bit n 31 }

theorem vltCtl_noInit {v : Word} {s : State} (hinit : bit v.toNat 2 = false) : vltCtl v s =
    if bit v.toNat 0 then
      (if s.vault.en then (vltTaken v.toNat s).modVault fun x => { x with offAsked := false }
       else if s.vault.recBase != 0 && s.vault.treeBase != 0 && !s.vault.initBusy then (vltTaken v.toNat s).modVault fun x => { x with en := true }
       else vltTaken v.toNat s)
    else if s.vault.en then vaultSettle ((vltTaken v.toNat s).modVault fun x => { x with offAsked := true })
    else vltTaken v.toNat s := by
  simp only [vltCtl, hinit, Bool.false_and, Bool.false_eq_true, if_false]
  rfl

theorem vltCtl_enable {v : Word} {s : State} (hen : bit v.toNat 0 = true) (hinit : bit v.toNat 2 = false) (hoff : s.vault.en = false)
    (hrec : s.vault.recBase ≠ 0) (htree : s.vault.treeBase ≠ 0) (hidle : s.vault.initBusy = false) :
    vltCtl v s = (vltTaken v.toNat s).modVault fun x => { x with en := true } := by
  rw [vltCtl_noInit hinit, if_pos hen, if_neg (by simp [hoff]), if_pos (by simpa [hidle] using ⟨hrec, htree⟩)]

/-- A Vault asked off goes off at once where nothing runs or waits. -/
theorem vaultSettle_off {s : State} (hoff : s.vault.offAsked = true) (hf : s.vault.fetches = []) (he : s.vault.evicts = [])
    (hm : s.vault.misses = []) : vaultSettle s = s.modVault fun v => { v with en := false, offAsked := false } := by
  simp [vaultSettle, hoff, hf, he, State.modVault, hm]

theorem vaultSettle_waits {s : State} (hf : s.vault.fetches ≠ []) : vaultSettle s = s := by
  simp [vaultSettle, hf]

section
variable {v : Word} {s : State} (hen : bit v.toNat 0 = false) (hinit : bit v.toNat 2 = false) (hon : s.vault.en = true)
include hen hinit hon

theorem vltCtl_disable : vltCtl v s = vaultSettle ((vltTaken v.toNat s).modVault fun x => { x with offAsked := true }) := by
  rw [vltCtl_noInit hinit, if_neg (by simp [hen]), if_pos hon]

theorem vltCtl_off (hf : s.vault.fetches = []) (he : s.vault.evicts = []) (hm : s.vault.misses = []) :
    vltCtl v s = (vltTaken v.toNat s).modVault fun x => { x with en := false, offAsked := false } := by
  rw [vltCtl_disable hen hinit hon]
  exact vaultSettle_off (s := (vltTaken v.toNat s).modVault fun x => { x with offAsked := true }) rfl hf he hm

theorem vltCtl_asked (hf : s.vault.fetches ≠ []) :
    vltCtl v s = (vltTaken v.toNat s).modVault fun x => { x with offAsked := true } := by
  rw [vltCtl_disable hen hinit hon]
  exact vaultSettle_waits (s := (vltTaken v.toNat s).modVault fun x => { x with offAsked := true }) hf

end

theorem vltCtl_init {v : Word} {s : State} (hen0 : bit v.toNat 0 = false) (hinit : bit v.toNat 2 = true) (hen : s.vault.en = false)
    (hidle : s.vault.initBusy = false) (hkey : (treeKey s).isSome = true) : vltCtl v s = vaultInitStart (vltTaken v.toNat s) := by
  have hoff : (vaultInitStart (vltTaken v.toNat s)).vault.en = false := by
    simp only [vaultInitStart, State.modVault, deriveVault_vault]
    exact hen
  simp only [vltCtl, hinit, hen, hidle, hkey, hen0, Bool.not_false, Bool.and_self, if_true, Bool.false_eq_true, if_false]
  exact if_neg (by rw [vltTaken] at hoff; simp [hoff])

theorem rapDo_vltCtl {v : RapWord} {s t : State} (ht : s.takes 0x3008 v = true) (h : vltCtl v.data (s.answered .rap) = t) :
    rapDo 0x3008 v (fun t => conclude (vltCtl v.data t)) s = conclude t := by
  rw [rapDo_takes ht, h]

/-- Settles O28: `vltCtl` by INIT and EN. -/
theorem vaultControl : Obligations.VaultControl := by
  unfold Obligations.VaultControl
  refine ⟨fun s v ht => ⟨fun hen hinit hoff hrec htree hidle => ?enable, fun hen hinit hon hf he hm => ?off,
    fun hen hinit hon hf => ?asked, fun hen hinit hoff hidle hkey => ?init⟩, fun s hp hbusy hall hw => ?complete⟩
  case enable => exact congrArg Host.Outcome.next (rapDo_vltCtl ht (vltCtl_enable hen hinit hoff hrec htree hidle))
  case off => exact congrArg Host.Outcome.next (rapDo_vltCtl ht (vltCtl_off hen hinit hon hf he hm))
  case asked => exact congrArg Host.Outcome.next (rapDo_vltCtl ht (vltCtl_asked hen hinit hon hf))
  case init => exact congrArg Host.Outcome.next (rapDo_vltCtl ht (vltCtl_init hen hinit hoff hidle hkey))
  case complete =>
    change execVaultInitComplete s = _
    simp [execVaultInitComplete, hp, hbusy, hall, hw, State.modVault]

end Sys2Proof.Machine
end

section
/-! PROOFS. Segments, completions, combinations and commitments (R121, R200 to R211, R223, R389), and stream frames (R50, R51, R162,
R380 to R402). -/

namespace Sys2Proof.Machine

/-! ### Segment boundaries (R202, R204, R223, R428) -/

section
variable {s : State} {tag : Tag} {k : Fin 16} {j : Job} (hj : s.job? tag.val = some j) (hat : atBoundary s k.val j = true)
include hj hat

theorem exec_segmentBoundary_ok : exec (.segmentBoundary tag ⟨k, true⟩) s
    = .next (placeWork (commitSegment tag.val k.val (conclude (boundary k.val j s)))) := by
  change execSegmentBoundary tag ⟨k, true⟩ s = _
  simp [execSegmentBoundary, hj, Option.filter_some_pos hat]

theorem exec_segmentBoundary_bad {l : Nat} (hl : j.boundaryForge k.val = some l) : exec (.segmentBoundary tag ⟨k, false⟩) s
    = .next (conclude (forgeFault (s.phys l) 4 none s)) := by
  change execSegmentBoundary tag ⟨k, false⟩ s = _
  simp [execSegmentBoundary, hj, Option.filter_some_pos hat, hl]

end

theorem boundary_voided {s : State} {j : Job} (i : Nat) (hv : voided s j.inst = true) : boundary i j s = abandonJob s j := by
  simp [boundary, hv]

section
variable {s : State} {i : Nat} {j : Job} (hv : voided s j.inst = false)
include hv

theorem boundary_stopped {r : Res} (hr : j.stop = some r) (hmore : j.segDone + 1 < j.segs) :
    boundary i j s = s.modJob j.tag fun x => x.cut r := by
  simp [boundary, hv, hr, hmore, endJob]

variable (hst : j.stop = none)
include hst

theorem boundary_passes : boundary i j s = boundary.boundaryPass i j s := by
  simp [boundary, hv, hst]

theorem boundary_waits (hw : j.waitsWrites i = true) : boundary i j s = s := by
  simp [boundary_passes hv hst, boundary.boundaryPass, hw]

variable (hw : j.waitsWrites i = false)
include hw

theorem boundary_stripe {c : Comet} (hc : j.comet = some c) : boundary i j s = passStripe i j c s := by
  simp [boundary_passes hv hst, boundary.boundaryPass, hw, hc]

variable (hc : j.comet = none)
include hc

theorem boundary_digest (hd : isDigestOp j.opc = true) : boundary i j s = passDigest j s := by
  simp [boundary_passes hv hst, boundary.boundaryPass, hw, hc, hd]

theorem boundary_text (hd : isDigestOp j.opc = false) :
    boundary i j s = if j.segDone + 1 ≥ j.segs then endText j s else passText j s := by
  simp [boundary_passes hv hst, boundary.boundaryPass, hw, hc, hd]

end

theorem commitSegment_unaccepted {s : State} {tag : Nat} {j : Job} (hj : s.job? tag = some j) (hu : unaccepted s j = true) (i : Nat) :
    commitSegment tag i s = s := by
  simp [commitSegment, hj, hu]

theorem commitSegment_text {s : State} {tag i : Nat} {j : Job} (hj : s.job? tag = some j) (hu : unaccepted s j = false)
    (hw : j.waitsWrites i = true) (hc : j.comet = none) (hd : isDigestOp j.opc = false) : commitSegment tag i s
      = yieldJob j (s.modJob tag fun x => { x with handed := false, back := (x.segDone, x.eng) }) := by
  simp [commitSegment, hj, hu, hw, hc, hd]

/-! ### Completion and combination (R121, R148, R209) -/

theorem exec_jobComplete {s : State} {tag : Tag} {j : Job} {r : Res} (hj : s.job? tag.val = some j) (hdone : completes s j = true)
    (hr : j.res = some r) : exec (.jobComplete tag) s = .next (conclude
      (if voided s j.inst then placeWork (resumeHeld (abandonJob s j)) else completeJob j r s)) := by
  change execJobComplete tag s = _
  simp [execJobComplete, hj, Option.filter_some_pos hdone, hr]

/-- The failed operation of a ring without a context, whose output is not to be scrubbed. -/
theorem completeJob_failed {s : State} {j : Job} {r : Res} {n slot : Nat} (hr : r.status ≠ 0) (hver : j.verified = false)
    (hsrc : j.src = .ring n slot) (heg : j.egress = none) (hctx : j.ctxEnt = none) (hscrub : scrubs j.opc r = false) :
    completeJob j r s = placeWork (resumeHeld (clearWaiting (handBack j { r with result := 0 }
      ((dropReads j (countOutcome j false s)).modJob j.tag fun x =>
        { x with phase := .finished, res := some { r with result := 0 }, ctxEnt := none, reads := [], place := .none, comet := none,
                 pipe := none, dslot := none })))) := by
  have hfinal : rxFinal s j r = (r, false) := by simp [rxFinal, hver]
  have hscrub' : scrubs j.opc { r with result := 0 } = false := hscrub
  simp [completeJob, hfinal, hr, hctx, hscrub', hsrc, heg]

/-- A job whose stripes are combined: its output ends where its stripes wrote it. -/
def combinedJob (j : Job) (c : Comet) : Job :=
  { j with comet := some { c with combined := true }, eng := { j.eng with dst := j.out.length } }

section
variable {s : State} {tag : Tag} {j : Job} {c : Comet} (hj : s.job? tag.val = some j) (hready : stripesReady s j = true)
  (hc : j.comet = some c)
include hj hready hc

theorem exec_cometCombine (ok : Bool) : exec (.cometCombine tag ok) s
    = .next (conclude (if ok then combine j c s else forgeFault (s.phys c.holder) 3 none s)) := by
  change execCometCombine tag ok s = _
  simp [execCometCombine, hj, Option.filter_some_pos hready, hc]

end

section
variable {s : State} {j : Job} {c : Comet}

theorem combine_decrypts (hd : decrypts j.opc = true) : combine j c s
    = closeJob (combinedJob j c) j.out j.out.length [] (if cometTag j c == j.sc.given then res 0 0 j.out.length else tagFail)
        (s.modJob j.tag fun _ => combinedJob j c) := by
  simp only [combine, hd, if_true]
  rfl

theorem combine_tagged (hd : decrypts j.opc = false) (hsep : fTagSep j.flags = false) : combine j c s
    = closeJob (combinedJob j c) (j.out ++ cometTag j c) (j.out.length + (cometTag j c).length) []
        (res 0 0 (j.out.length + (cometTag j c).length)) (s.modJob j.tag fun _ => combinedJob j c) := by
  simp only [combine, hd, hsep, Bool.false_eq_true, if_false]
  rfl

theorem combine_separate (hd : decrypts j.opc = false) (hsep : fTagSep j.flags = true) : combine j c s
    = closeJob (combinedJob j c) j.out j.out.length (if cometTag j c = [] then [] else [(symTagAddr j.body, cometTag j c)])
        (res 0 0 j.out.length) (s.modJob j.tag fun _ => combinedJob j c) := by
  simp only [combine, hd, hsep, Bool.false_eq_true, if_false, if_true, List.isEmpty_iff]
  rfl

end

/-- The frame of a finished operation is committed where its outcome is OK and it fits. -/
theorem exec_frameCommit {s : State} {tag : Tag} {j : Job} {p cls n : Nat} {r : Res} (hj : s.job? tag.val = some j)
    (hw : working s = true) (hph : j.phase = .finished) (heg : j.egress = some (p, cls, n)) (hr : j.res = some r) :
    exec (.frameCommit tag) s = .next (conclude
      (let q := if r.status = 0 && oversize s p cls j.out.length then windowOversize else r
       if q.status = 0 then frameEnd j p cls q (commitFrame j p cls s) else frameEnd j p cls q (relatch p (dropEgress j.tag s)))) := by
  change execFrameCommit tag s = _
  simp only [execFrameCommit, hj]
  rw [Option.filter_some_pos (by simp [hw, hph])]
  simp [heg, hr]

/-- Settles O29: the boundary by its stop, its writes and its engine; completion, combination and commitment by the job's outcome. -/
theorem jobsProgress : Obligations.JobsProgress := by
  unfold Obligations.JobsProgress
  refine ⟨fun s tag k j hj hat => ⟨fun l hl => exec_segmentBoundary_bad hj hat hl, fun hv => ?voided,
      fun hv => ⟨fun r hr hmore => ?stopped, fun hst hw => ?waits, fun hst hw => ⟨fun c hc => ?stripe, fun hc hd => ?digest,
        fun hc hd hmore => ?text, fun hc hd hlast => ?last⟩⟩⟩,
    fun s tag i j hj => ⟨fun hu => commitSegment_unaccepted hj hu i, fun hu hw hc hd => commitSegment_text hj hu hw hc hd⟩,
    fun s tag j r hj hdone hr => exec_jobComplete hj hdone hr,
    fun s j r n slot hr hver hsrc heg hctx hscrub => completeJob_failed hr hver hsrc heg hctx hscrub,
    fun s tag j c hj hready hc => ⟨fun hd => ?decrypts, fun hd hsep => ?tagged, fun hd hsep => ?separate,
      exec_cometCombine hj hready hc false⟩,
    fun s tag j p cls n r hj hw hph heg hr => ?commit⟩
  case voided => rw [exec_segmentBoundary_ok hj hat, boundary_voided _ hv]
  case stopped => rw [exec_segmentBoundary_ok hj hat, boundary_stopped hv hr hmore]
  case waits => rw [exec_segmentBoundary_ok hj hat, boundary_waits hv hst hw]
  case stripe => rw [exec_segmentBoundary_ok hj hat, boundary_stripe hv hst hw hc]
  case digest => rw [exec_segmentBoundary_ok hj hat, boundary_digest hv hst hw hc hd]
  case text => rw [exec_segmentBoundary_ok hj hat, boundary_text hv hst hw hc hd, if_neg (Nat.not_le.mpr hmore)]
  case last => rw [exec_segmentBoundary_ok hj hat, boundary_text hv hst hw hc hd, if_pos hlast]
  case decrypts => rw [exec_cometCombine hj hready hc, if_pos rfl, combine_decrypts hd]; rfl
  case tagged => rw [exec_cometCombine hj hready hc, if_pos rfl, combine_tagged hd hsep]; rfl
  case separate => rw [exec_cometCombine hj hready hc, if_pos rfl, combine_separate hd hsep]; rfl
  case commit =>
    rw [exec_frameCommit hj hw hph heg hr]
    by_cases h0 : r.status = 0
    · cases oversize s p cls j.out.length <;> simp [h0, windowOversize, res]
    · simp [h0]

/-! ### Stream frames -/

theorem not_frameGood (s : State) (p : Nat) (f : FrameIn) :
    (!frameGood s p f) = (s.port.icx.toNat.testBit (2 + p) && decide (f.ics ≠ wordCodes f.data 0 f.inst.val)) := by
  rw [frameGood, Bool.not_or, Bool.not_not, decide_not, beq_eq_decide]

theorem exec_streamFrameEof {s : State} {port : PortId} (hsp : spUp s port.val = true) (hup : s.portUp = true) (f : FrameIn) :
    exec (.streamFrameEof port f) s = .next (conclude (arrive port.val f s)) := by
  obtain ⟨hp, hh⟩ := s.portUp_iff.mp hup
  change execStreamFrameEof port f s = _
  simp [execStreamFrameEof, hsp, hp, hh]

/-- Without an enabled policer, a frame that names its context enters the ingress store as it came. -/
theorem acceptFrame_hinted {s : State} {p : Nat} {f : FrameIn} (hpol : (s.pol f.inst.val p).st ≠ .enabled) (hbyp : f.byp = false)
    (hhint : f.hintV = true) : acceptFrame p f s = relatch p ((s.modStr fun x => { x with nextFrame := s.str.nextFrame + 1 }).modSp p fun x =>
      { x with ing := x.ing ++ [{ id := s.str.nextFrame, f := f, ics := wordCodes f.data 0 f.inst.val, colour := f.colour.val,
                                  prio := if f.cls.val = 7 then ctrlPrio (s.sp p) f.data else 0, st := .named f.hint.toNat }] }) := by
  simp [acceptFrame, police, hpol, hbyp, storeFrame, hhint]

theorem exec_egressFrameStart {s : State} {port : PortId} {f : EgFrame} (hfree : egressFree s port.val = true)
    (hnext : nextStart (countHolds port.val s) port.val = some f) (flip : Option Nat) :
    exec (.egressFrameStart port flip) s = .next (if storedGood flip f.bytes f.ics (fun b => wordCodes b 0 f.inst) then
      offer port.val f (countHolds port.val s) else conclude (releaseFail port.val f (countHolds port.val s))) := by
  change execEgressFrameStart port flip s = _
  simp [execEgressFrameStart, hfree, hnext]

theorem exec_egressFrameDone {s : State} {port : PortId} {f : EgFrame} (hsp : spUp s port.val = true)
    (hf : (s.sp port.val).eg.find? (fun e => e.started) = some f) : exec (.egressFrameDone port) s
      = .next (conclude (dropSeq port.val f.seq (spCount port.val 0 6 f.cls (f.bytes.length - 8) (classCount port.val 5 f.cls
        (s.modSp port.val fun x => { x with offered := [], offeredIc := [] }))))) := by
  change execEgressFrameDone port s = _
  simp [execEgressFrameDone, hf, hsp, EgFrame.len]

/-- Settles O31: `arrive` checks in its order, and the release stage follows the head that may start. -/
theorem streamFrames : Obligations.StreamFrames := by
  unfold Obligations.StreamFrames
  refine ⟨fun s port f hsp hup => ?arrival, fun s p f hpol hbyp hhint => acceptFrame_hinted hpol hbyp hhint,
    fun s port f hfree => fun hnext => ⟨?offered, fun n hbad => ?discarded⟩, fun s port f hsp hf => exec_egressFrameDone hsp hf,
    fun s port cls v ht => ?watermark⟩
  case arrival =>
    rw [exec_streamFrameEof hsp hup]
    simp only [arrive, lateDrop, not_frameGood]
    rfl
  case offered => rw [exec_egressFrameStart hfree hnext]; rfl
  case discarded => rw [exec_egressFrameStart hfree hnext, if_neg (by simp [hbad])]
  case watermark =>
    change Host.Outcome.next (rapDo _ v (setWm port.val cls.val v.toNat) s) = _
    rw [rapDo_takes ht]
    simp only [setWm]
    rfl

end Sys2Proof.Machine
end

section
/-! PROOFS. The egress gates (R400 to R404), policers (R397 to R399) and shapers (R413, R414). -/

namespace Sys2Proof.Machine

@[simp] theorem State.gate_modGate (s : State) (p : Nat) (f : Gate → Gate) : ((s.modGate p f).sp p).gate = f (s.sp p).gate := by
  simp [State.modGate]

/-- What a write of GATE_n_CTL takes besides EN and CHANGE. -/
def gateTaken (p v : Nat) (s : State) : State :=
  s.modGate p fun x => { x with lostAct := fld v 2 2, ovh := fld v 8 8, line := fld v 16 12 }

@[simp] theorem gateTaken_en (p v : Nat) (s : State) : ((gateTaken p v s).sp p).gate.en = (s.sp p).gate.en := by simp [gateTaken]
@[simp] theorem gateTaken_pending (p v : Nat) (s : State) : ((gateTaken p v s).sp p).gate.pending = (s.sp p).gate.pending := by
  simp [gateTaken]
theorem gateTaken_adminOk (p v : Nat) (s : State) : adminOk ((gateTaken p v s).sp p).gate = adminOk (s.sp p).gate := by
  rw [gateTaken, State.gate_modGate]
  rfl

/-- EN has no part in the validity of the administrative list. -/
theorem modGate_en_adminOk (p : Nat) (s : State) :
    adminOk ((s.modGate p fun x => { x with en := true }).sp p).gate = adminOk (s.sp p).gate := by
  rw [State.gate_modGate]
  rfl

section
variable {p v : Nat} {s : State}

theorem gateCtl_disable (hen : bit v 0 = false) : gateCtl p v s = gateShow p ((gateTaken p v s).modGate p fun x =>
    { x with en := false, pending := none, oper := [], operCycle := 0, operStart := 0 }) := by
  simp only [gateCtl, hen, Bool.false_and, Bool.false_eq_true, if_false, Bool.not_false, if_true]
  rfl

variable (hline : ¬ (fld v 16 12 = 0 ∨ 2048 < fld v 16 12)) (hen : bit v 0 = true)
include hline hen

theorem gateCtl_on : gateCtl p v s =
    (if !(s.sp p).gate.en then
      if adminOk (s.sp p).gate then gateShow p (gateSchedule p ((gateTaken p v s).modGate p fun x => { x with en := true }))
      else gateErr p (gateTaken p v s)
     else if bit v 1 then gateSchedule p (gateTaken p v s) else gateShow p (gateTaken p v s)) := by
  simp only [gateCtl]
  rw [if_neg (by simpa using fun _ => hline), if_neg (by simp [hen])]
  rfl

variable (hadm : adminOk (s.sp p).gate = true) (hnone : (s.sp p).gate.pending = none)

omit hline hen in
include hadm hnone in
/-- A valid list is scheduled where no takeover is pending. -/
theorem gateSchedule_taken :
    gateSchedule p s = s.modGate p fun x => { x with pending := some (changeTime (s.sp p).gate (now s)) } := by
  simp [gateSchedule, hadm, hnone]

omit hline hen hadm hnone in
theorem gateSchedule_refused (h : (s.sp p).gate.pending ≠ none ∨ adminOk (s.sp p).gate = false) : gateSchedule p s = gateErr p s := by
  rcases h with h | h
  · rw [gateSchedule, if_pos (by simp [Option.isSome_iff_ne_none.mpr h])]
  · rw [gateSchedule, if_pos (by simp [h])]

include hadm hnone in
theorem gateCtl_enable (hoff : (s.sp p).gate.en = false) : gateCtl p v s = gateShow p
    (((gateTaken p v s).modGate p fun x => { x with en := true }).modGate p fun x =>
      { x with pending := some (changeTime ((gateTaken p v s).sp p).gate (now (gateTaken p v s))) }) := by
  rw [gateCtl_on hline hen, if_pos (by simp [hoff]), if_pos hadm,
    gateSchedule_taken (by rw [modGate_en_adminOk, gateTaken_adminOk, hadm]) (by simpa using hnone), State.gate_modGate]
  rfl

include hadm hnone in
theorem gateCtl_change (hon : (s.sp p).gate.en = true) (hch : bit v 1 = true) : gateCtl p v s = (gateTaken p v s).modGate p fun x =>
    { x with pending := some (changeTime ((gateTaken p v s).sp p).gate (now (gateTaken p v s))) } := by
  rw [gateCtl_on hline hen, if_neg (by simp [hon]), if_pos hch, gateSchedule_taken (by rw [gateTaken_adminOk, hadm]) (by simpa using hnone)]

theorem gateCtl_enableRefused (hoff : (s.sp p).gate.en = false) (hbad : adminOk (s.sp p).gate = false) :
    gateCtl p v s = gateErr p (gateTaken p v s) := by
  rw [gateCtl_on hline hen, if_pos (by simp [hoff]), if_neg (by simp [hbad])]

theorem gateCtl_changeRefused (hon : (s.sp p).gate.en = true) (hch : bit v 1 = true)
    (h : (s.sp p).gate.pending ≠ none ∨ adminOk (s.sp p).gate = false) : gateCtl p v s = gateErr p (gateTaken p v s) := by
  rw [gateCtl_on hline hen, if_neg (by simp [hon]), if_pos hch, gateSchedule_refused (by rwa [gateTaken_pending, gateTaken_adminOk])]

end

/-- The first whole number of cycles after `base` that reaches `t`. -/
theorem cycles_reach {base t c : Nat} (hpast : base < t) (hcyc : 0 < c) :
    t ≤ base + ceilDiv (t - base) c * c ∧ base + ceilDiv (t - base) c * c < t + c ∧ (base + ceilDiv (t - base) c * c - base) % c = 0 := by
  obtain ⟨d, rfl⟩ : ∃ d, t = base + d := ⟨t - base, by omega⟩
  rw [Nat.add_sub_cancel_left, ceilDiv]
  have hle : (d + c - 1) / c * c ≤ d + c - 1 := Nat.div_mul_le_self _ _
  have hlt : d + c - 1 < (d + c - 1) / c * c + c := Nat.lt_div_mul_add hcyc
  refine ⟨by omega, by omega, ?_⟩
  rw [Nat.add_sub_cancel_left, Nat.mul_mod_left]

theorem changeTime_past {g : Gate} {t : Nat} (hpast : g.baseSec * 1000000000 + g.baseNs < t + 10000) :
    changeTime g t = g.baseSec * 1000000000 + g.baseNs
      + ceilDiv (t + 10000 - (g.baseSec * 1000000000 + g.baseNs)) g.cycle * g.cycle :=
  if_neg (Nat.not_le.mpr hpast)

theorem exec_gateTakeover {s : State} {port : PortId} {at0 : Nat} (hpend : (s.sp port.val).gate.pending = some at0) (hnow : at0 ≤ now s) :
    exec (.gateTakeover port) s = .next (conclude (takeover port.val at0 s)) := by
  change execGateTakeover port s = _
  simp [execGateTakeover, hpend, hnow]

/-- Settles O32: GATE_n_CTL by EN, CHANGE and the validity of the list; the change time by the division it rests on. -/
theorem egressGates : Obligations.EgressGates := by
  unfold Obligations.EgressGates
  refine ⟨fun s port v ht hline => ⟨fun hen hoff hnone hadm => ?enable, fun hen hoff hbad => ?enableRefused,
      fun hen hch hon hnone hadm => ?change, fun hen hch hon hbad => ?changeRefused⟩, fun s port v ht hen => ?disable,
    fun g t => ⟨fun h => if_pos h, fun hpast hcyc => ?cycles⟩,
    fun s port at0 hpend hnow => exec_gateTakeover hpend hnow, fun s port => ⟨rfl, fun hoff => by simp [gatesNow, hoff]⟩⟩
  case cycles =>
    dsimp only
    rw [changeTime_past hpast]
    exact cycles_reach hpast hcyc
  case enable =>
    change Host.Outcome.next (rapDo _ v _ s) = _
    rw [rapDo_takes ht, if_pos hen, gateCtl_enable (s := s.answered .rap) hline hen hadm hnone hoff]
    rfl
  case enableRefused =>
    change Host.Outcome.next (rapDo _ v _ s) = _
    rw [rapDo_takes ht, if_pos hen, gateCtl_enableRefused (s := s.answered .rap) hline hen hoff hbad]
    rfl
  case change =>
    change Host.Outcome.next (rapDo _ v _ s) = _
    rw [rapDo_takes ht, if_pos hch, gateCtl_change (s := s.answered .rap) hline hen hadm hnone hon hch]
    rfl
  case changeRefused =>
    change Host.Outcome.next (rapDo _ v _ s) = _
    rw [rapDo_takes ht, if_pos hch, gateCtl_changeRefused (s := s.answered .rap) hline hen hon hch hbad]
    rfl
  case disable =>
    change Host.Outcome.next (rapDo _ v _ s) = _
    rw [rapDo_takes ht, if_neg (by simp [hen]), gateCtl_disable hen]
    rfl

/-! ### Policers -/

/-- Settles O33: POL_CTL through `polEn` and `polApply`, by the state of the policer; SHP_CTL by its RATE. -/
theorem policersAndShapers : Obligations.PolicersAndShapers := by
  unfold Obligations.PolicersAndShapers
  refine ⟨fun s v ht => ⟨fun hen => ?polOn, fun hen => ?polOff, fun hap => ?polApplied⟩,
    fun t q => ⟨fun hst => ?disabled, fun hst => by simp [polEn, hst], fun hst => by simp [polEn, hst], fun hst => by simp [polEn, hst],
      fun hok => by simp [polApply, hok], fun hbad => by simp [polApply, hbad]⟩,
    fun s vi port => ?stopped, fun s v ht hsel => ?shaper, fun s inst => rfl⟩
  case polOn =>
    change Host.Outcome.next (rapDo _ v _ s) = _
    rw [rapDo_takes ht, if_pos hen]
    simp only [polCtl, hen]
    rfl
  case polOff =>
    change Host.Outcome.next (rapDo _ v _ s) = _
    rw [rapDo_takes ht, if_neg (by simp [hen])]
    simp only [polCtl, hen]
    rfl
  case polApplied =>
    change Host.Outcome.next (rapDo _ v _ s) = _
    rw [rapDo_takes ht, if_pos hap]
    rfl
  case disabled => cases hok : stagedOk q <;> simp [polEn, hst, polEnable, hok]
  case stopped =>
    change Host.Outcome.next _ = _
    congr 1
    congr 1
    funext q
    cases hst : q.st <;> simp [polEn, polEnable, stagedOk]
  case shaper =>
    change Host.Outcome.next (rapDo _ v _ s) = _
    rw [rapDo_takes ht, if_pos (show (s.answered .rap).glb.instSel ≤ mi from hsel)]
    simp only [shpCtl, State.answered_glb]
    congr 1
    congr 1
    funext x
    by_cases hrate : bit v.toNat 31 = true ∧ fld v.toNat 0 22 = 0
    · simp [hrate]
    · simp [hrate, shpCap]

end Sys2Proof.Machine
end

section
/-! PROOFS. Windows and reads that act (R219, R319, R392 to R396, R517), and Bellows (R233 to R237). -/

namespace Sys2Proof.Machine

/-! ### Reads that act -/

/-- A word that fails its check inside the block comes after what the read does. -/
theorem rapRead_icBad {s : State} (hup : s.portUp = true) (addr : Nat) (f : State → State × Nat) :
    rapRead addr false f s = conclude (rapIcFail (rapAnswer addr true 0 (f s).1)) := by
  obtain ⟨hp, hh⟩ := s.portUp_iff.mp hup
  simp [rapRead, hp, hh]

theorem i3cRead_refused {s : State} (hup : s.portUp = true) {addr : Nat} (ha : 0xFFF < addr) (f : State → State × Nat) :
    i3cRead addr f s = (portFault (2 ^ 25) s).modPort fun p => { p with i3cOut := [word 0] } := by
  obtain ⟨hp, -⟩ := s.portUp_iff.mp hup
  simp only [i3cRead, i3cWord]
  rw [if_neg (by simp [hp]), if_pos ha]

theorem evtTake_cons {s : State} {i w : Nat} {rest : List Nat} (h : (s.inst i).evts = w :: rest) :
    evtTake i s = (s.modInst i fun x => { x with evts := rest, evtLast := w }, w) := by
  simp [evtTake, h]

theorem evtTake_nil {s : State} {i : Nat} (h : (s.inst i).evts = []) :
    evtTake i s = (s.modInst i fun x => { x with evtUnder := true }, (s.inst i).evtLast) := by
  simp [evtTake, h]

theorem sampleTake_cons {s : State} {w : Nat} {rest : List Nat} (h : s.fab.fifo = w :: rest) :
    sampleTake s = (s.modFab fun b => { b with fifo := rest, fifoLast := w }, w) := by
  simp [sampleTake, h]

theorem sampleTake_nil {s : State} (h : s.fab.fifo = []) :
    sampleTake s = (s.modFab fun b => { b with fifoUnder := true }, s.fab.fifoLast) := by
  simp [sampleTake, h]

theorem measTake_done {s : State} {m : Nat} (h : s.dig.measDone.toNat.testBit m = true) (w : Nat) :
    measTake m w s = (s, leAt (tget s.dig.meas [] m) (4 * w) 4) := by
  rw [measTake, if_pos h]

theorem measTake_early {s : State} {m : Nat} (h : s.dig.measDone.toNat.testBit m = false) (w : Nat) :
    measTake m w s = (s.modDig fun d => { d with early := true }, 0) := by
  rw [measTake, if_neg (by simp [h])]

section
variable {s : State} (hup : s.portUp = true)
include hup

theorem exec_ordinaryFifoRead_tenant (vi : ViId) : exec (.ordinaryFifoRead ⟨.tenant vi, true⟩) s
    = .next (rapAnswer (pageBase vi.val + 0x50) false (evtTake vi.val s).2 (evtTake vi.val s).1) :=
  congrArg Host.Outcome.next (rapRead_portUp hup _ _)

theorem exec_ordinaryFifoRead_lane : exec (.ordinaryFifoRead ⟨.laneSample, true⟩) s
    = .next (rapAnswer 0x2180 false (sampleTake s).2 (sampleTake s).1) :=
  congrArg Host.Outcome.next (rapRead_portUp hup _ _)

theorem exec_measRead (m : Fin 4) (w : Fin 12) : exec (.measRead ⟨.rap, true⟩ m w) s
    = .next (rapAnswer (0x3440 + 0x30 * m.val + 4 * w.val) false (measTake m.val w.val s).2 (measTake m.val w.val s).1) :=
  congrArg Host.Outcome.next (rapRead_portUp hup _ _)

end

/-- A lane of a powered Forge gives its figures, and its sample where the FIFO has room. -/
theorem rateWindow_sampled {s : State} {n : Nat} (hon : forgePowered (s.forge (n / 4)) = true) (hen : s.fab.fifoEn = true)
    (hroom : s.fab.fifo.length < 256) (r : LaneRate) : rateWindow n r s =
      (s.modLane n fun x => { x with rate := r.rate.toNat, code := s.fab.bellows.code, busy := r.busy.toNat }).modFab fun b =>
        { b with fifo := b.fifo ++ [r.rate.toNat + r.busy.toNat * 2 ^ 16 + n * 2 ^ 24] } := by
  have hroom' : (s.modLane n fun x => { x with rate := r.rate.toNat, code := s.fab.bellows.code, busy := r.busy.toNat }).fab.fifo.length
    < 256 := hroom
  simp only [rateWindow, hon, hen, Bool.not_true, Bool.or_self, Bool.false_eq_true, if_false, if_true]
  rw [State.modFab, if_pos hroom']
  rfl

/-- Settles O34: each read through the port's answer and what its own take does. -/
theorem windowsAndReads : Obligations.WindowsAndReads := by
  unfold Obligations.WindowsAndReads
  refine ⟨fun s vi => rfl, fun s rates hp => ?rates, fun s n r hon hen hroom => rateWindow_sampled hon hen hroom r,
    fun s f addr hup => ⟨rapRead_portUp hup addr f, rapRead_icBad hup addr f, fun ok ha => i3cRead_portUp hup ha f,
      fun ok ha => i3cRead_refused hup ha f⟩,
    fun s path ok w rest => ⟨fun _ => rfl, fun h => by simp [privTake, h], fun h => by simp [privTake, h]⟩,
    fun s path ok => ⟨rfl, rfl⟩,
    fun s vi hup => ⟨fun w rest h => ?tenant, fun h => ?tenantEmpty⟩, fun s hup => ⟨fun w rest h => ?lane, fun h => ?laneEmpty⟩,
    fun s port hup => congrArg Host.Outcome.next (rapRead_portUp hup _ _),
    fun s hup => ⟨congrArg Host.Outcome.next (rapRead_portUp hup _ _), congrArg Host.Outcome.next (i3cRead_portUp hup (by omega) _)⟩,
    fun s m w hup => ⟨fun h => ?measured, fun h => ?early⟩⟩
  case rates =>
    change execLaneRateWindow rates s = _
    rw [execLaneRateWindow, if_neg (by simp [hp])]
  case tenant => rw [exec_ordinaryFifoRead_tenant hup, evtTake_cons h]
  case tenantEmpty => rw [exec_ordinaryFifoRead_tenant hup, evtTake_nil h]
  case lane => rw [exec_ordinaryFifoRead_lane hup, sampleTake_cons h]
  case laneEmpty => rw [exec_ordinaryFifoRead_lane hup, sampleTake_nil h]
  case measured => rw [exec_measRead hup, measTake_done h]
  case early => rw [exec_measRead hup, measTake_early h]

/-! ### Bellows -/

theorem bellowsUp_wakes {s : State} {l : Nat} {rest : List Nat} (hfew : (activeForges s).length < 8) (hg : gatedForges s = l :: rest) :
    bellowsUp s = wakeForge l (cancelDrains s) := by
  simp [bellowsUp, hfew, hg]

theorem bellowsUp_faster {s : State} (hall : 8 ≤ (activeForges s).length) (hcode : s.fab.bellows.code < s.fab.bellows.hi) :
    bellowsUp s = srpRequest (max (min (s.fab.bellows.code + s.fab.bellows.inc) s.fab.bellows.hi) s.fab.bellows.lo) (cancelDrains s) := by
  simp only [bellowsUp]
  rw [if_neg (Nat.not_lt.mpr hall), if_pos hcode]

/-- The code that a lower request would ask for. -/
def lowerCode (b : Bellows) : Nat := min (max (b.code - b.inc) b.lo) b.hi

theorem bellowsDown_code {s : State} (hlo : s.fab.bellows.lo < s.fab.bellows.code) (hlate : s.port.fault.toNat.testBit 19 = false) :
    bellowsDown s = if lowerCode s.fab.bellows < 8 && !utilLow s (lowerCode s.fab.bellows) then s else srpRequest (lowerCode s.fab.bellows) s := by
  simp only [bellowsDown]
  rw [if_pos (by simp [hlo, hlate])]
  rfl

theorem bellowsDown_drains {s : State} {l : Nat} (h : s.fab.bellows.code ≤ s.fab.bellows.lo ∨ s.port.fault.toNat.testBit 19 = true)
    (hkeep : s.fab.bellows.keep < (activeForges s).length) (hl : (activeForges s).getLast? = some l) :
    bellowsDown s = s.modForge (s.phys l) fun f => { f with draining := true } := by
  have hno : ¬ (decide (s.fab.bellows.code > s.fab.bellows.lo) && !s.port.fault.toNat.testBit 19) = true := by
    rcases h with h | h <;> simp [h]
  simp only [bellowsDown, hl]
  rw [if_neg hno, if_pos hkeep]

theorem exec_forgeWakeComplete {s : State} {m : ForgeId} (hst : (s.forge m.val).st = .gated) (hwake : (s.forge m.val).waking = true) :
    exec (.forgeWakeComplete m) s = .next
      (if (s.forge m.val).cmd.isSome then startRetire m.val (enterActive m.val (s.forge m.val).logical s)
       else enterActive m.val (s.forge m.val).logical s) := by
  change execForgeWakeComplete m s = _
  simp [execForgeWakeComplete, hst, hwake]

/-- Settles O35: the control step by its demand, a Forge by its state, and the fault by its latch. -/
theorem bellowsControl : Obligations.BellowsControl := by
  unfold Obligations.BellowsControl
  refine ⟨fun s => fun hp hst hen hflt => ?step,
    fun s => ⟨fun l rest hfew hg => bellowsUp_wakes hfew hg, fun hall hcode => bellowsUp_faster hall hcode⟩,
    fun s => ⟨fun hlo hlate hc => ?lower, fun hlo hlate hc hu => ?holds, fun h l hkeep hl => bellowsDown_drains h hkeep hl⟩,
    fun s m => ⟨fun hst hdr hidle => ?gate, fun hst hw hcmd => ?wake, fun hst hw hcmd => ?wakeRetire⟩, fun s hp hflt => ?fault⟩
  case step =>
    change execBellowsStep s = _
    simp only [execBellowsStep]
    rw [if_neg (by simp [hp, hst, hen, hflt])]
    simp only [gt_iff_lt, ge_iff_le, Bool.or_eq_true, decide_eq_true_eq]
  case lower => 
    rw [bellowsDown_code hlo hlate, if_neg]
    · rfl
    · rcases hc with hc | hc
      · simp [lowerCode, Nat.not_lt.mpr hc]
      · simp [lowerCode, hc]
  case holds =>
    rw [bellowsDown_code hlo hlate, if_pos]
    simp [lowerCode, hc, hu]
  case gate =>
    change execForgeGate m s = _
    simp [execForgeGate, hst, hdr, hidle]
  case wake => rw [exec_forgeWakeComplete hst hw, if_neg (by simp [hcmd])]
  case wakeRetire => rw [exec_forgeWakeComplete hst hw, if_pos (Option.isSome_iff_ne_none.mpr hcmd)]
  case fault =>
    change execBellowsFault s = _
    simp only [execBellowsFault]
    rw [if_neg (by simp [hp, hflt])]

end Sys2Proof.Machine
end

section
/-! PROOFS. Lane faults, failover, retirement, restoration and the microcode rotation (R213, R214, R220, R225 to R227, R239, R525). -/

namespace Sys2Proof.Machine

/-! ### Lane faults (R213, R214, R220) -/

/-- The stage faults of a lane within the last millisecond, with this one. -/
def stageTimes (s : State) (n : Nat) : List Nat := ((s.lane n).times.filter fun x => now s - x < 1000000) ++ [now s]

section
variable {s : State} {lane : LaneId} (hruns : forgeRuns s (lane.val / 4) = true)
include hruns

theorem exec_stageFault_few (hfew : (stageTimes s lane.val).length < 3) : exec (.stageFault lane) s
    = .next (s.modLane lane.val fun x => { x with faults := min 0xFF (x.faults + 1), times := stageTimes s lane.val }) := by
  have hno : ¬ (stageTimes s lane.val).length ≥ 3 := Nat.not_le.mpr hfew
  change execStageFault lane s = _
  simp only [stageTimes] at hno
  simp only [execStageFault, stageTimes, if_neg hno]
  rw [if_neg (by simp [hruns])]

theorem exec_stageFault_third (hmany : 3 ≤ (stageTimes s lane.val).length) : exec (.stageFault lane) s
    = .next (conclude (forgeFault (lane.val / 4) 0 (some (lane.val % 4))
      (s.modLane lane.val fun x => { x with faults := min 0xFF (x.faults + 1), times := [] }))) := by
  have hge : (stageTimes s lane.val).length ≥ 3 := hmany
  change execStageFault lane s = _
  simp only [stageTimes] at hge
  simp only [execStageFault, if_pos hge]
  rw [if_neg (by simp [hruns])]

theorem exec_laneSelfTest (r : LaneTest) : exec (.laneSelfTest lane r) s = .next (match r with
    | .pass => s
    | .mismatch => conclude (forgeFault (lane.val / 4) 1 (some (lane.val % 4)) s)
    | .residue => conclude (forgeFault (lane.val / 4) 2 (some (lane.val % 4)) s)) := by
  change execLaneSelfTest lane r s = _
  cases r <;> simp [execLaneSelfTest, hruns]

end

/-! ### Faults of a Forge (R227, R525) -/

theorem forgeFault_out {s : State} {m : Nat} (hst : (s.forge m).st = .retired ∨ (s.forge m).st = .gated) (b : Nat) (lane : Option Nat) :
    forgeFault m b lane s = s := by
  simp only [forgeFault]
  rw [if_pos (by simpa using hst)]

theorem forgeFault_active {s : State} {m : Nat} (hst : (s.forge m).st = .active) (hok : (s.forge m).failing = false) (b : Nat)
    (lane : Option Nat) : forgeFault m b lane s = activeFailed m (latchForge m b lane s) := by
  simp [forgeFault, hst, hok]

theorem forgeFault_retiring {s : State} {m : Nat} (hst : (s.forge m).st = .retiring) (hok : (s.forge m).failing = false) (b : Nat)
    (lane : Option Nat) : forgeFault m b lane s = retiringFailed m (latchForge m b lane s) := by
  simp [forgeFault, hst, hok]

theorem pauseRotation_none {s : State} (h : s.fab.rotation = none) (m : Nat) : pauseRotation m s = s := by
  rw [pauseRotation, if_neg (by simp [h])]

theorem activeFailed_spare {s : State} {m k : Nat} (hk : freeSpare s = some k) (hrot : s.fab.rotation = none) : activeFailed m s =
    (s.modForge m fun f => { f with failing := true, draining := false }).modForge k fun f =>
      { f with waking := true, logical := (s.forge m).logical } := by
  simp only [activeFailed, hk]
  refine pauseRotation_none ?_ m
  exact hrot

theorem activeFailed_lost {s : State} (hk : freeSpare s = none) (m : Nat) :
    activeFailed m s = reportForge m (loseLogical (s.forge m).logical (forgeFailed m (countFailover m s))) := by
  simp [activeFailed, hk]

theorem exec_forgeFailoverComplete {s : State} {m : ForgeId} {k : Nat} (hf : (s.forge m.val).failing = true)
    (hk : takingSpare s (s.forge m.val).logical = some k) (ok : Bool) : exec (.forgeFailoverComplete m ok) s = .next
      (if ok then conclude (reportForge m.val (countFailover m.val (forgeFailed m.val (takeLogical k (s.forge m.val).logical s))))
       else conclude (spareFailed k (latchForge k 1 none s))) := by
  change execForgeFailoverComplete m ok s = _
  simp [execForgeFailoverComplete, hf, hk]

/-! ### Retirement and restoration (R225, R226) -/

section
variable {s : State} {m : ForgeId}

/-- A retiring Forge has handed over: its logical Forge is taken, or left without a physical one. -/
def handedOver (m : Nat) (s : State) : State :=
  match takingSpare s (s.forge m).logical with
  | some k => takeLogical k (s.forge m).logical s
  | none => if s.phys (s.forge m).logical = m then loseLogical (s.forge m).logical s else s

theorem exec_forgeRetireComplete (hst : (s.forge m.val).st = .retiring) : exec (.forgeRetireComplete m) s = .next (conclude
    (let u := settleMode ((handedOver m.val s).modForge m.val fun x => { x with st := .retired, logical := 0 })
     if (s.forge m.val).pend then startRestore m.val u else forgeCmdDone m.val (res 0 0) u)) := by
  change execForgeRetireComplete m s = _
  simp only [execForgeRetireComplete]
  rw [if_neg (by simp [hst])]
  rfl

/-- A Forge that has passed its restoration test, with the microcode in force. -/
def restored0 (m : Nat) (s : State) : State :=
  (s.modForge m fun f => { f with mcode := mcodeVersion s, failing := false }).modFab fun b =>
    { b with rotation := b.rotation.map fun r => { r with loaded := m :: r.loaded } }

variable (hst : (s.forge m.val).st = .restoring)
include hst

theorem exec_forgeRestoreTestDone_fails : exec (.forgeRestoreTestDone m false) s
    = .next (conclude (reportForge m.val (forgeCmdDone m.val (res 5 4) (forgeFailed m.val s)))) := by
  change execForgeRestoreTestDone m false s = _
  simp [execForgeRestoreTestDone, hst, modeBad]

theorem exec_forgeRestoreTestDone_takes {l : Nat} (hl : (List.range 8).find? (fun l => decide (9 ≤ s.phys l)) = some l) :
    exec (.forgeRestoreTestDone m true) s
      = .next (conclude (settleMode (forgeCmdDone m.val (res 0 0) (enterActive m.val l (restored0 m.val s))))) := by
  change execForgeRestoreTestDone m true s = _
  simp only [execForgeRestoreTestDone, ge_iff_le, hl]
  rw [if_neg (by simp [hst]), if_neg (by simp)]
  rfl

theorem exec_forgeRestoreTestDone_spare (hl : (List.range 8).find? (fun l => decide (9 ≤ s.phys l)) = none) :
    exec (.forgeRestoreTestDone m true) s = .next (conclude (settleMode (forgeCmdDone m.val (res 0 0)
      ((restored0 m.val s).modForge m.val fun f => { f with st := .spare, logical := 0 })))) := by
  change execForgeRestoreTestDone m true s = _
  simp only [execForgeRestoreTestDone, ge_iff_le, hl]
  rw [if_neg (by simp [hst]), if_neg (by simp)]
  rfl

end

/-! ### The rotation (R239, R240) -/

section
variable {s : State} {r : Rotation} {k : Nat} (hr : s.fab.rotation = some r) (hk : freeSpare s = some k)
include hr hk

theorem exec_microcodeRotationStep_testFail : exec (.microcodeRotationStep .testFail) s
    = .next (conclude (pauseRotation k (reportForge k (forgeFailed k (latchForge k 1 none s))))) := by
  change execMicrocodeRotationStep .testFail s = _
  simp [execMicrocodeRotationStep, hr, hk]

variable {x : RotResult}

theorem exec_microcodeRotationStep_done (hold : oldForges (loadSpare k r s) { r with loaded := k :: r.loaded } = [])
    (hx : x ≠ .testFail) : exec (.microcodeRotationStep x) s = .next (conclude (rotationDone r (loadSpare k r s))) := by
  change execMicrocodeRotationStep x s = _
  simp [execMicrocodeRotationStep, hr, hk, hx, hold]

theorem exec_microcodeRotationStep_wakes {l : Nat} {rest : List Nat}
    (hold : oldForges (loadSpare k r s) { r with loaded := k :: r.loaded } = l :: rest)
    (hup : (oldForges (loadSpare k r s) { r with loaded := k :: r.loaded }).filter (logicalUp (loadSpare k r s)) = [])
    (hx : x ≠ .testFail) : exec (.microcodeRotationStep x) s = .next (conclude (wakeForge l (loadSpare k r s))) := by
  change execMicrocodeRotationStep x s = _
  simp only [execMicrocodeRotationStep, hr, hk, hup]
  rw [if_neg (by simp [hx]), hold]

theorem exec_microcodeRotationStep_moves {l : Nat} {rest : List Nat}
    (hup : (oldForges (loadSpare k r s) { r with loaded := k :: r.loaded }).filter (logicalUp (loadSpare k r s)) = l :: rest)
    (hx : x ≠ .testFail) : exec (.microcodeRotationStep x) s = .next (if x = .takeFail then
      conclude (reportForge k (forgeFailed k (loseLogical l
        (becomeSpare ((loadSpare k r s).phys l) (latchForge k 1 none (loadSpare k r s))))))
      else conclude (becomeSpare ((loadSpare k r s).phys l) (takeLogical k l (loadSpare k r s)))) := by
  change execMicrocodeRotationStep x s = _
  simp only [execMicrocodeRotationStep, hr, hk, hup]
  rw [if_neg (by simp [hx])]
  cases x <;> rfl

end

/-- Settles O36: each report by the state of its Forge, the ends of its moves by what takes its logical Forge. -/
theorem forgeFaults : Obligations.ForgeFaults := by
  unfold Obligations.ForgeFaults
  refine ⟨fun s lane hruns => ⟨fun hfew => exec_stageFault_few hruns hfew, fun hmany => exec_stageFault_third hruns hmany,
      exec_laneSelfTest hruns .pass, exec_laneSelfTest hruns .mismatch, exec_laneSelfTest hruns .residue⟩,
    fun s m ref rates supply temp hruns => ?rate,
    fun s m b lane => ⟨fun hst => forgeFault_out hst b lane, fun hst hok => forgeFault_active hst hok b lane,
      fun hst hok => forgeFault_retiring hst hok b lane⟩,
    fun s m => ⟨fun k hk hrot => activeFailed_spare hk hrot, fun hk => activeFailed_lost hk m⟩,
    fun s m k hf hk => ⟨?spareTakes, ?spareFails⟩,
    fun s m hst => ?retired,
    fun s m hst => ⟨exec_forgeRestoreTestDone_fails hst, fun l hl => exec_forgeRestoreTestDone_takes hst hl,
      fun hl => exec_forgeRestoreTestDone_spare hst hl⟩,
    fun s r k hr hk => ⟨exec_microcodeRotationStep_testFail hr hk,
      fun hold x hx => exec_microcodeRotationStep_done hr hk hold hx,
      fun l rest hold hup x hx => exec_microcodeRotationStep_wakes hr hk hold hup hx,
      fun l rest hup => ⟨?handover, ?takeFail⟩⟩⟩
  case retired =>
    rw [exec_forgeRetireComplete hst]
    rfl
  case spareTakes => rw [exec_forgeFailoverComplete hf hk, if_pos rfl]
  case spareFails => rw [exec_forgeFailoverComplete hf hk, if_neg (by simp)]
  case handover => rw [exec_microcodeRotationStep_moves hr hk hup (by simp), if_neg (by simp)]
  case takeFail => rw [exec_microcodeRotationStep_moves hr hk hup (by simp), if_pos rfl]
  case rate =>
    change execRateCheck m ref ⟨rates, supply, temp⟩ s = _
    simp only [execRateCheck]
    rw [if_neg (by simp [hruns])]
    rfl

end Sys2Proof.Machine
end

section
/-! PROOFS. Tamper sources and their responses (R431 to R440, R447, R452), ZEROISE_N and the end of a clear (R82, R377, R440 to R444). -/

namespace Sys2Proof.Machine

/-! ### Detectors (R431, R434, R436) -/

section
variable {s : State} {k : Nat} {d : Detector} {p : PinReading} (hp : powered s = true) (hf : fuseIntact s k = true)
include hp hf

theorem detectorChange_level (hrep : isReport k = false) (hdrive : (readClass s k (tRec s k) p != 0) = false ∨ (s.tsrc k).test ≠ some d) :
    detectorChange k d p s = reactive k (fun x => x.reads s k (tRec s k) d p) s := by
  have hno : ¬ ((readClass s k (tRec s k) p != 0) && decide ((s.tsrc k).test = some d)) = true := by
    rcases hdrive with h | h <;> simp [h]
  simp only [detectorChange]
  rw [if_neg (by simp [hp, hf]), if_neg hno, if_neg (by simp [hrep])]

/-- The detector under test answers its stimulus. -/
theorem detectorChange_answers (hon : (readClass s k (tRec s k) p != 0) = true) (htest : (s.tsrc k).test = some d) :
    detectorChange k d p s = reactive k (fun x => { x with test := none }) s := by
  simp only [detectorChange]
  rw [if_neg (by simp [hp, hf]), if_pos (by rw [hon, htest]; simp)]

theorem detectorChange_report (hrep : isReport k = true) (hon : (readClass s k (tRec s k) p != 0) = true)
    (htest : (s.tsrc k).test ≠ some d) : detectorChange k d p s = pathRecord k d s := by
  simp only [detectorChange]
  rw [if_neg (by simp [hp, hf]), if_neg (by simp [htest]), if_pos hrep, if_pos hon]

end

section
variable {s : State} {k : Nat} (harm : armed s k = true)
include harm

theorem sourceRise_waits (hready : (s.tsrc k).ready = true) (hdeb : 0 < (tRec s k).debounce) :
    sourceRise k s = s.modTsrc k fun x => { x with waiting := true } := by
  simp [sourceRise, harm, hready, Nat.pos_iff_ne_zero.mp hdeb]

theorem sourceRise_qualifies (hready : (s.tsrc k).ready = true) (hdeb : (tRec s k).debounce = 0) :
    sourceRise k s = qualified k (s.tsrc k).cls (s.modTsrc k fun x => { x with waiting := false, ready := false }) := by
  simp [sourceRise, harm, hready, hdeb, qualify]

theorem sourceRise_bounces (hready : (s.tsrc k).ready = false) : sourceRise k s = bounce k s := by
  simp [sourceRise, harm, hready]

end

/-- A reading sets the activity of its own detector alone. -/
theorem reads_detectors (s : State) (k : Nat) (r : TRec) (x : Src) (p : PinReading) :
    (x.reads s k r .a p).a = (readClass s k r p != 0) ∧ (x.reads s k r .a p).b = x.b ∧
    (x.reads s k r .b p).b = (readClass s k r p != 0) ∧ (x.reads s k r .b p).a = x.a := ⟨rfl, rfl, rfl, rfl⟩

theorem exec_detectorDisagree {s : State} {src : SrcId} (hp : powered s = true) (hf : fuseIntact s src.val = true)
    (htest : (s.tsrc src.val).test = none) (hdiff : detectorsDiffer src.val (s.tsrc src.val) = true) : exec (.detectorDisagree src) s
      = .next (conclude (disagree src.val (s.modTsrc src.val fun x => { x with recA := 0, recB := 0, told := !isReport src.val }))) := by
  change execDetectorDisagree src s = _
  simp [execDetectorDisagree, hp, hf, htest, hdiff]

theorem exec_detectorSelfTest {s : State} {src : SrcId} (hp : powered s = true) (harm : armed s src.val = true)
    (hfree : ∀ k < 16, (s.tsrc k).test = none) (det : Detector) : exec (.detectorSelfTest src det) s
      = .next (conclude (reactive src.val (fun x => { x with test := some det }) s)) := by
  have hall : ((List.range 16).all fun k => (s.tsrc k).test.isNone) = true :=
    List.all_eq_true.mpr fun k hk => by simp [hfree k (List.mem_range.mp hk)]
  change execDetectorSelfTest src det s = _
  rw [execDetectorSelfTest, if_pos (by rw [hp, harm, hall]; rfl)]

theorem exec_detectorSelfTestTimeout {s : State} {src : SrcId} {det : Detector} (hp : powered s = true)
    (htest : (s.tsrc src.val).test = some det) : exec (.detectorSelfTestTimeout src det) s
      = .next (conclude (selfTestFail src.val (reactive src.val (fun x => { x with test := none }) s))) := by
  change execDetectorSelfTestTimeout src det s = _
  simp [execDetectorSelfTestTimeout, hp, htest]

theorem tmpRespWrite_thaw {v : Nat} (hthaw : bit v 0 = true) (s : State) : tmpRespWrite v s =
    let t := s.modTam fun t => { t with evtOvf := t.evtOvf && !bit v 5 }
    if s.tam.frozen then scanBells ((t.modTam fun t => { t with frozen := false }).modFab fun b => { b with rounds := 0 }) else t := by
  simp only [tmpRespWrite, hthaw, Bool.true_and]

/-- Settles O37: each report by the state of its chain. -/
theorem tamperSources : Obligations.TamperSources := by
  unfold Obligations.TamperSources
  refine ⟨fun s src det lv me hp hf => ⟨fun hrep hdrive => ?level, fun hon htest => ?answers, fun hrep hon htest => ?report⟩,
    fun s k r x p => ⟨rfl, rfl, rfl, rfl, fun a => rfl, fun mv => rfl, fun o => rfl⟩,
    fun s k harm => ⟨fun hready hdeb => sourceRise_waits harm hready hdeb, fun hready hdeb => sourceRise_qualifies harm hready hdeb,
      fun hready => sourceRise_bounces harm hready⟩,
    fun s src hp => ⟨fun hw harm => ?debounce, fun hact => ?rearm⟩, fun s k cls => rfl, fun s k code cls => rfl,
    fun s src hp hf htest hdiff => exec_detectorDisagree hp hf htest hdiff,
    fun s src det hp => ⟨fun harm hfree => exec_detectorSelfTest hp harm hfree det, fun htest => exec_detectorSelfTestTimeout hp htest⟩,
    fun s => ⟨rfl, fun hp => ?reread⟩, fun s v ht hthaw => ?thaw, fun s reading dis failed hp => ?sample⟩
  case level =>
    change Host.Outcome.next (conclude (detectorChange src.val det (me.getD (.level lv)) s)) = _
    rw [detectorChange_level hp hf hrep hdrive]
  case answers =>
    change Host.Outcome.next (conclude (detectorChange src.val det (me.getD (.level lv)) s)) = _
    rw [detectorChange_answers hp hf hon htest]
  case report =>
    change Host.Outcome.next (conclude (detectorChange src.val det (me.getD (.level lv)) s)) = _
    rw [detectorChange_report hp hf hrep hon htest]
  case debounce =>
    change execTamperDebounceExpiry src s = _
    simp [execTamperDebounceExpiry, hp, hw, harm, qualify]
  case rearm =>
    change execTamperRearmExpiry src s = _
    simp [execTamperRearmExpiry, hp, hact]
  case reread =>
    change execFuseReread false s = _
    simp [execFuseReread, hp, occurrence]
  case thaw =>
    change Host.Outcome.next (rapDo _ v _ s) = _
    rw [rapDo_takes ht, if_pos hthaw, tmpRespWrite_thaw hthaw]
    simp only [State.answered_tam]
  case sample =>
    change execVigilSample reading ⟨dis, failed⟩ s = _
    rw [execVigilSample, if_neg (by simp [hp])]

/-! ### Responses and the zeroise line -/

/-- What a response that notifies sends: nothing of its own where it has led into Zeroised, whose entry has sent both. -/
def notified (s t : State) : State := if s.modes.mode ≠ .zeroised ∧ t.modes.mode = .zeroised then t else raiseIbi (faultMsg t)

/-- The actions of a response code, with those of the codes below it. -/
def acted (code : Nat) (s : State) : State :=
  let s0 := s.modTam fun t => { t with last := max t.last code }
  let s1 := if code ≥ 4 then zeroise (code ≥ 5) s0 else s0
  let s2 := if code = 3 then purge s1 else s1
  if code ≥ 2 then s2.modTam fun t => { t with frozen := true } else s2

theorem acted_lesser {code : Nat} (h2 : code < 2) (h3 : code ≠ 3) (s : State) :
    acted code s = s.modTam fun t => { t with last := max t.last code } := by
  simp [acted, h3, show ¬ 4 ≤ code by omega, show ¬ 2 ≤ code by omega]

theorem acted_freeze (s : State) :
    acted 2 s = (s.modTam fun t => { t with last := max t.last 2 }).modTam fun t => { t with frozen := true } := by
  simp [acted]

theorem acted_purge (s : State) :
    acted 3 s = (purge (s.modTam fun t => { t with last := max t.last 3 })).modTam fun t => { t with frozen := true } := by
  simp [acted]

theorem acted_zeroise {code : Nat} (h4 : 4 ≤ code) (s : State) : acted code s =
    (zeroise (code ≥ 5) (s.modTam fun t => { t with last := max t.last code })).modTam fun t => { t with frozen := true } := by
  simp [acted, h4, show code ≠ 3 by omega, show 2 ≤ code by omega]

theorem respond_eq {s : State} (hh : s.modes.halted = false) (code : Nat) :
    respond code s = if code = 0 then acted code s else notified s (acted code s) := by
  simp [respond, acted, notified, hh]

/-- A clear in progress that keeps its own form is not started again. -/
theorem zeroise_starts {s : State} (hfree : (∀ h, s.cruc.zRun ≠ .verify h) ∨ s.cruc.zLast ≠ 1) (hboot : s.modes.mode ≠ .boot)
    (hz : s.modes.mode ≠ .zeroised) (halt : Bool) : zeroise halt s = restoreCounters (stopDataRings (enterMode .zeroised
      ((abortKeyOps 2 ((clearKeys true halt (s.modVigil fun v => { v with zpend := true })).modPort fun p =>
        { p with zDriven := true })).modModes fun m => { m with zFrom := m.mode, eclipseDone := false }))) := by
  unfold zeroise
  split
  next h hrun hlast => exact absurd hlast (hfree.resolve_left fun hno => hno h hrun)
  next => simp [hboot, hz]

theorem foldl_keepGen_vault (l : List Nat) (s : State) : ∃ v, l.foldl (fun t e => keepGen e t) s = { s with vault := v } := by
  induction l generalizing s with
  | nil => exact ⟨s.vault, rfl⟩
  | cons e l ih => exact ih (keepGen e s)

/-- What a clear of the zeroise line leaves of the keys, the banks and the Vault root. -/
theorem clearKeys_clears (full halt : Bool) (s : State) : let t := clearKeys full halt s
    t.cruc.parents = [] ∧ t.cruc.system = [] ∧ t.cruc.ctxKeys = [] ∧ t.cruc.rootKey = [] ∧ t.ctx = [] ∧ t.dig.slots = [] ∧
    t.cruc.zFill = false ∧ t.cruc.zCount = min 0xFFFF (s.cruc.zCount + 1) ∧ (full = true → t.vigil.root = none) := by
  simp only [clearKeys]
  generalize hs1 : (s.modCruc fun c => { c with
    parents := [], system := [], ctxKeys := [], root := .none, rootKey := [], debug := false, zLast := if full then 1 else 2,
    zFill := false, zCount := min 0xFFFF (c.zCount + 1), zRun := .verify (halt || c.zRun == .verify true) }) = s1
  obtain ⟨v, hv⟩ := foldl_keepGen_vault (tkeys s1.ctx) s1
  rw [hv]
  subst hs1
  cases full
  · exact ⟨rfl, rfl, rfl, rfl, rfl, rfl, rfl, rfl, fun h => nomatch h⟩
  · exact ⟨rfl, rfl, rfl, rfl, rfl, rfl, rfl, rfl, fun _ => rfl⟩

theorem haltBlock_holds (s : State) : (haltBlock s).modes.halted = true ∧ (haltBlock s).port.zDriven = true ∧
    (haltBlock s).port.attAck = false ∧ ∀ a ∈ (haltBlock s).mem.waiting, a.op = .read := by
  refine ⟨rfl, rfl, rfl, fun a ha => ?_⟩
  have hmem : a ∈ s.mem.waiting.filter fun a => a.op == .read := ha
  exact eq_of_beq (List.mem_filter.mp hmem).2

section
variable {s : State} {halt : Bool} (hrun : s.cruc.zRun = .verify halt)
include hrun

theorem exec_zeroiseVerifyComplete_fails : exec (.zeroiseVerifyComplete false) s
    = .next (haltBlock (haltMode (s.modCruc fun c => { c with zFail := true, zRun := .idle }))) := by
  change execZeroiseVerifyComplete false s = _
  simp [execZeroiseVerifyComplete, hrun]

theorem exec_zeroiseVerifyComplete_ok : exec (.zeroiseVerifyComplete true) s = .next
    (if halt then haltBlock (s.modCruc fun c => { c with zRun := .fill })
     else conclude (drbgStart ((s.modCruc fun c =>
       { c with zRun := if s.anv.drbg = .stopped then .idle else .fill }).modPort fun p => { p with zDriven := false }))) := by
  change execZeroiseVerifyComplete true s = _
  simp [execZeroiseVerifyComplete, hrun]

end

/-- Settles O38: `respond` by its code, `zeroise` by the clear in progress, and the read-back by the form of its clear. -/
theorem zeroiseLine : Obligations.ZeroiseLine := by
  unfold Obligations.ZeroiseLine
  refine ⟨fun s hh => ⟨?none, ?notify, ?freeze, ?purges, ?zeroises, ?halts⟩, fun s halt hfree hboot hz => zeroise_starts hfree hboot hz halt,
    fun s full halt => clearKeys_clears full halt s,
    fun s hp hext => ⟨fun hdrv => ?low, fun hdrv => ?driven⟩, fun s => rfl,
    fun s halt hrun => ⟨exec_zeroiseVerifyComplete_fails hrun, fun hhalt => ?verifiedHalt, fun hhalt => ?verified⟩, haltBlock_holds,
    fun s hrun hdrbg => ?filled⟩
  case none => rw [respond_eq hh, if_pos rfl, acted_lesser (by decide) (by decide)]
  case notify => rw [respond_eq hh, if_neg (by decide), acted_lesser (by decide) (by decide), notified]
  case freeze => rw [respond_eq hh, if_neg (by decide), acted_freeze, notified]
  case purges => rw [respond_eq hh, if_neg (by decide), acted_purge, notified]
  case zeroises => rw [respond_eq hh, if_neg (by decide), acted_zeroise (by decide), notified]; rfl
  case halts => rw [respond_eq hh, if_neg (by decide), acted_zeroise (by decide), notified]; rfl
  case low =>
    change execZeroiseNLow s = _
    simp [execZeroiseNLow, hp, hext, hdrv]
  case driven =>
    change execZeroiseNLow s = _
    simp [execZeroiseNLow, hp, hext, hdrv]
  case verifiedHalt => rw [exec_zeroiseVerifyComplete_ok hrun, if_pos hhalt]
  case verified => rw [exec_zeroiseVerifyComplete_ok hrun, if_neg (by simp [hhalt])]
  case filled =>
    change execZeroiseFillComplete s = _
    rcases hdrbg with h | h <;> simp [execZeroiseFillComplete, hrun, h]

end Sys2Proof.Machine
end

section
/-! PROOFS. Banks and Burnish (R355 to R359), pipes and Anvil units (R322, R342, R499), entropy and the DRBG (R343 to R345). -/

namespace Sys2Proof.Machine

/-! ### Banks and Burnish -/

/-- The next slot of a pass: re-masked, with its word's check. -/
def slotPassed (bad : Option BankId) (s : State) : State :=
  (match bad with
    | some b => wordFail b.val (remask s.cruc.nextSlot s)
    | none => remask s.cruc.nextSlot s).modCruc fun c => { c with nextSlot := s.cruc.nextSlot + 1 }

theorem exec_burnishSlot {s : State} (hp : powered s = true) (hd : drbgUp s = true) (hs : s.cruc.stalled = false)
    (hpass : s.cruc.passDone = false) (bad : Option BankId) : exec (.burnishSlot bad) s
      = .next (conclude (if s.cruc.nextSlot + 1 < 528400 then slotPassed bad s else passEnd (slotPassed bad s))) := by
  change execBurnishSlot bad s = _
  rw [execBurnishSlot, if_neg (by simp [hp, hd, hs, hpass])]
  by_cases hlast : s.cruc.nextSlot + 1 < 528400
  · have hno : ¬ s.cruc.nextSlot + 1 ≥ burnishSlots := Nat.not_le.mpr hlast
    simp only [if_pos hlast, if_neg hno]
    rfl
  · have hyes : s.cruc.nextSlot + 1 ≥ burnishSlots := Nat.not_lt.mp hlast
    simp only [if_neg hlast, if_pos hyes]
    rfl

theorem remask_context {n : Nat} (hn : n < 524288) (s : State) :
    remask n s = drawn 16 (s.modCtxKey n fun k => if k.key = [] then k else { k with seed := drawBytes s 16 }) := by
  simp only [remask, List.isEmpty_iff]
  rw [if_pos hn]

theorem exec_burnishPeriodEnd {s : State} (hp : powered s = true) (hs : s.cruc.stalled = false) : exec .burnishPeriodEnd s
    = .next (if s.cruc.passDone then s.modCruc fun c => { c with passDone := false, nextSlot := 0 }
      else s.modCruc fun c => { c with late := true, overrun := true }) := by
  change execBurnishPeriodEnd s = _
  rw [execBurnishPeriodEnd, if_neg (by simp [hp, hs])]

/-- The banks in service without bank `b`. -/
def banksWithout (s : State) (b : Nat) : BitVec 5 := s.cruc.bankUp &&& ~~~(BitVec.ofNat 5 (2 ^ b))

theorem bankFail_first {s : State} {b : Nat} (hup : s.cruc.bankUp.toNat.testBit b = true) (hall : s.cruc.bankUp = 0x1F) (cause : Nat) :
    bankFail b cause s =
      let t := s.modCruc fun c => { c with bankUp := banksWithout s b, bankFault := c.bankFault ||| 2 ^ b ||| 2 ^ cause ||| 0 }
      reportFault 2 (bankFaultReg t) b 0xFF t := by
  have hfirst : (s.cruc.bankUp != 0x1F) = false := by rw [hall]; decide
  simp only [bankFail]
  rw [if_neg (by simp [hup]), hfirst]
  rfl

theorem bankFail_second {s : State} {b : Nat} (hup : s.cruc.bankUp.toNat.testBit b = true) (hmore : s.cruc.bankUp ≠ 0x1F) (cause : Nat) :
    bankFail b cause s = clearKeys false false (blockFault 1 (s.modCruc fun c =>
      { c with bankUp := banksWithout s b, bankFault := c.bankFault ||| 2 ^ b ||| 2 ^ cause ||| 2 ^ 8 })) := by
  have hsecond : (s.cruc.bankUp != 0x1F) = true := bne_iff_ne.mpr hmore
  simp only [bankFail]
  rw [if_neg (by simp [hup]), hsecond]
  rfl

theorem exec_bankWatchdog {s : State} (hp : powered s = true) (b : BankId) :
    exec (.bankWatchdog b) s = .next (conclude (bankFail b.val 6 s)) := by
  change execBankWatchdog b s = _
  rw [execBankWatchdog, if_pos hp]

theorem testBit_allBanks : ∀ b : BankId, (0x1F : BitVec 5).toNat.testBit b.val = true := by decide

/-- Settles O39: the slot by its number, the period by its pass, and the bank by how many are left. -/
theorem banksAndBurnish : Obligations.BanksAndBurnish := by
  unfold Obligations.BanksAndBurnish
  refine ⟨fun s bad hp hd hs hpass => ?slot, fun s n hn => remask_context hn s,
    fun s hp hs => ⟨fun hpass => ?next, fun hpass => ?late⟩,
    fun s b hp => ⟨fun hall => ?first, fun hmore hup => ?second⟩, fun s b => ?words⟩
  case slot =>
    rw [exec_burnishSlot hp hd hs hpass]
    cases bad <;> rfl
  case next => rw [exec_burnishPeriodEnd hp hs, if_pos hpass]
  case late => rw [exec_burnishPeriodEnd hp hs, if_neg (by simp [hpass])]
  case first =>
    rw [exec_bankWatchdog hp, bankFail_first (by rw [hall]; exact testBit_allBanks b) hall]
    rfl
  case second =>
    rw [exec_bankWatchdog hp, bankFail_second hup hmore]
    rfl
  case words =>
    simp only [wordFail, ge_iff_le]

/-! ### Pipes and units -/

theorem pipeFail_up {s : State} {p : Nat} (hp : powered s = true) (hup : s.dig.pipeUp.toNat.testBit p = true) (cause : Nat) :
    pipeFail p cause s =
      let d := s.modDig fun d => { d with
        pipeUp := d.pipeUp &&& ~~~(BitVec.ofNat 8 (2 ^ p)), fault := d.fault ||| word (2 ^ p) ||| word (2 ^ cause) }
      let t := leaveMeasured p (restageOn p (d.jobs.foldl (leavePipe p) d))
      let u := if t.dig.pipeUp != 0 then placeWork t
        else t.jobs.foldl (fun t j => if needsPipe j && (j.phase == .reading || j.mid) then endJob j.tag modeBad t else t) t
      conclude (reportFault 3 u.dig.fault.toNat p 0xFF u) := by
  simp only [pipeFail]
  rw [if_neg (by simp [hp, hup])]

theorem pipeFail_out {s : State} {p : Nat} (hout : s.dig.pipeUp.toNat.testBit p = false) (cause : Nat) : pipeFail p cause s = s := by
  rw [pipeFail, if_pos (by simp [hout])]

theorem unitFail_up {s : State} {u : Nat} (hp : powered s = true) (hup : s.anv.up.toNat.testBit u = true) (cause : Nat) :
    unitFail u cause s =
      let t := moveUnit u (s.modAnv fun a => { a with
        up := a.up &&& ~~~(BitVec.ofNat 4 (2 ^ u)), fault := a.fault ||| word (2 ^ u) ||| word (2 ^ cause) })
      conclude (reportFault 4 t.anv.fault.toNat u 0xFF t) := by
  simp only [unitFail]
  rw [if_neg (by simp [hp, hup])]

theorem unitFail_out {s : State} {u : Nat} (hout : s.anv.up.toNat.testBit u = false) (cause : Nat) : unitFail u cause s = s := by
  rw [unitFail, if_pos (by simp [hout])]

/-- Settles O40: `pipeFail` and `unitFail` by whether the engine is in service, and each command by its cause. -/
theorem engineFaults : Obligations.EngineFaults := by
  unfold Obligations.EngineFaults
  exact ⟨fun s p => ⟨rfl, rfl, rfl, rfl⟩, fun s p cause hp hup => pipeFail_up hp hup cause,
    fun s u => ⟨rfl, rfl, rfl, rfl, rfl, rfl⟩, fun s u cause hp hup => unitFail_up hp hup cause,
    fun s p u cause => ⟨fun hout => pipeFail_out hout cause, fun hout => unitFail_out hout cause⟩⟩

/-! ### Entropy and the DRBG -/

/-- A conditioned block of a source in service is buffered, at most four. -/
def blockBuffered (src : EntSrc) (s : State) : State :=
  s.modAnv fun a => match src with
    | .a => if a.aUp then { a with aBuf := min 4 (a.aBuf + 1) } else a
    | .b => if a.bUp then { a with bBuf := min 4 (a.bBuf + 1) } else a

theorem exec_entropyBlockReady {s : State} (hp : powered s = true) (src : EntSrc) : exec (.entropyBlockReady src) s = .next
    (if (drbgTry (blockBuffered src s)).anv.wantReseed then reseed (drbgTry (blockBuffered src s)) else drbgTry (blockBuffered src s)) := by
  change execEntropyBlockReady src s = _
  rw [execEntropyBlockReady, if_neg (by simp [hp])]
  cases src <;> rfl

theorem drbgTry_idle {s : State} (h : s.anv.drbg ≠ .starting) : drbgTry s = s := by
  simp [drbgTry, h]

section
variable {s : State} (hp : powered s = true) (hst : s.anv.drbg ≠ .starting) (hw : s.anv.wantReseed = false)
include hp hst hw

/-- Nothing waits for a block: it is only buffered. -/
theorem exec_entropyBlockReady_idle {src : EntSrc} {f : AnvilSt → AnvilSt} (hf : blockBuffered src s = s.modAnv f)
    (hdrbg : (f s.anv).drbg = s.anv.drbg) (hwant : (f s.anv).wantReseed = s.anv.wantReseed) :
    exec (.entropyBlockReady src) s = .next (s.modAnv f) := by
  have hidle : drbgTry (s.modAnv f) = s.modAnv f := drbgTry_idle (hdrbg ▸ hst)
  rw [exec_entropyBlockReady hp, hf, hidle, if_neg (by rw [State.modAnv, hwant, hw]; simp)]

end

theorem drbgTry_both {s : State} (hst : s.anv.drbg = .starting) (ha : s.anv.aUp = true) (hb : s.anv.bUp = true) :
    drbgTry s = if s.anv.aBuf ≥ 2 && s.anv.bBuf ≥ 1 then
      drbgTo .running (s.modAnv fun x => { x with aBuf := x.aBuf - 2, bBuf := x.bBuf - 1, requests := 0 }) else s := by
  simp [drbgTry, hst, ha, hb]

/-- The health failures of source A within the last second, with this one. -/
def failTimesA (s : State) : List Nat := (s.anv.aFails.filter fun x => now s - x < 1000000000) ++ [now s]

/-- The bit of a kind of health failure of source A. -/
def failBit : EntFail → Nat
  | .rct => 0 | .apt => 1 | .start => 2

theorem exec_entropyHealthFail_a {s : State} (hp : powered s = true) (ha : s.anv.aUp = true) (kind : EntFail) :
    exec (.entropyHealthFail .a kind) s = .next (conclude
      (let t := s.modAnv fun x => { x with esFault := x.esFault ||| word (2 ^ failBit kind), aFails := failTimesA s }
       if (failTimesA s).length ≥ 4 then retireSource true t else t)) := by
  change execEntropyHealthFail .a kind s = _
  simp only [execEntropyHealthFail, beq_self_eq_true, if_true, ha, hp, Bool.not_true, Bool.or_self, Bool.false_eq_true, if_false]
  cases kind <;> rfl

theorem retireSource_running {s : State} (h : s.anv.drbg = .running) (a : Bool) : retireSource a s = reseed (drbgTo .single (s.modAnv fun x =>
    if a then { x with aUp := false, aBuf := 0, esFault := x.esFault ||| 8 } else { x with bUp := false, bBuf := 0, esFault := x.esFault ||| 0x80 })) := by
  simp only [retireSource, h]

theorem retireSource_single {s : State} (h : s.anv.drbg = .single) (a : Bool) : retireSource a s = drbgTo .stopped (s.modAnv fun x =>
    if a then { x with aUp := false, aBuf := 0, esFault := x.esFault ||| 8 } else { x with bUp := false, bBuf := 0, esFault := x.esFault ||| 0x80 }) := by
  simp only [retireSource, h]

theorem exec_drbgReseed {s : State} (hp : powered s = true) : exec .drbgReseed s = .next (reseed s) := by
  change execDrbgReseed s = _
  rw [execDrbgReseed, if_pos hp]

/-- A reseed that has taken its blocks, `x` of source A and `y` of source B. -/
def reseeded (x y : Nat) (s : State) : State := s.modAnv fun b => { b with
  aBuf := b.aBuf - x, bBuf := b.bBuf - y, wantReseed := false, requests := 0, reseeds := (b.reseeds + 1) % 2 ^ 32 }

theorem reseed_up {s : State} (hd : drbgUp s = true) : reseed s =
    if s.anv.aUp && s.anv.bUp && s.anv.aBuf ≥ 1 && s.anv.bBuf ≥ 1 then reseeded 1 1 s
    else if s.anv.aUp && !s.anv.bUp && s.anv.aBuf ≥ 2 then reseeded 2 0 s
    else if s.anv.bUp && !s.anv.aUp && s.anv.bBuf ≥ 2 then reseeded 0 2 s
    else s.modAnv fun b => { b with wantReseed := true } := by
  simp only [reseed]
  rw [if_neg (by simp [hd])]
  rfl

/-- Settles O41: the block by what waits for it, the failure by the DRBG's state, the reseed by the blocks that are buffered. -/
theorem entropyAndDrbg : Obligations.EntropyAndDrbg := by
  unfold Obligations.EntropyAndDrbg
  refine ⟨fun s hp ha hb hst hw => ⟨?blockA, ?blockB⟩, fun s src hp => ?block,
    fun s hst ha hb => ⟨fun h2 h1 => ?starts, fun hno => ?waits⟩, fun s kind hp ha => ?fails,
    fun s a => ⟨fun h => retireSource_running h a, fun h => retireSource_single h a⟩,
    fun s hp hd => ⟨fun ha hb h1 h2 => ?both, fun ha hb h2 => ?one, fun h1 h2 => ?none⟩, fun s => ⟨rfl, fun hp hst => ?kat⟩⟩
  case blockA =>
    exact exec_entropyBlockReady_idle (f := fun a => { a with aBuf := min 4 (a.aBuf + 1) }) hp hst hw
      (by simp only [blockBuffered, State.modAnv, ha, if_true]) rfl rfl
  case blockB =>
    exact exec_entropyBlockReady_idle (f := fun a => { a with bBuf := min 4 (a.bBuf + 1) }) hp hst hw
      (by simp only [blockBuffered, State.modAnv, hb, if_true]) rfl rfl
  case block =>
    rw [exec_entropyBlockReady hp]
    cases src <;> rfl
  case starts => rw [drbgTry_both hst ha hb, if_pos (by simp [h1, h2])]
  case waits => rw [drbgTry_both hst ha hb, if_neg (by simp; omega)]
  case fails =>
    rw [exec_entropyHealthFail_a hp ha]
    cases kind <;> rfl
  case both =>
    rw [exec_drbgReseed hp, reseed_up hd, if_pos (by simp [ha, hb, h1, h2])]
    rfl
  case one =>
    rw [exec_drbgReseed hp, reseed_up hd, if_neg (by simp [hb]), if_pos (by simp [ha, hb, h2])]
    rfl
  case none =>
    rw [exec_drbgReseed hp, reseed_up hd, if_neg (by simp [h1]), if_neg (by simp [h1]), if_neg (by simp [h2])]
  case kat =>
    change execDrbgKat false s = _
    rw [execDrbgKat, if_neg (by simp [hp, hst])]

end Sys2Proof.Machine
end

section
/-! PROOFS. Orrery's faults, timeouts and checkpoints (R36 to R38, R371, R460, R464, R474, R477, R481, R499, R501). -/

namespace Sys2Proof.Machine

/-! ### Faults and restarts -/

theorem oryHalf_partner {s : State} {first : Bool} (hA : s.ory.halfA = true) (hB : s.ory.halfB = true) : oryHalf first s =
    let t := restartYuham (s.modOry fun o => if first then { o with halfA := false } else { o with halfB := false })
    reportFault 8 (oryStatus t) (b2n (!first)) 0xFF t := by
  cases first <;> simp [oryHalf, hA, hB]

theorem oryHalf_last {s : State} (hA : s.ory.halfA = false) (hB : s.ory.halfB = true) : oryHalf false s =
    let t := (s.modOry fun o => { o with halfB := false }).modOry fun o => { o with st := .stopped }
    reportFault 8 (oryStatus t) 1 0xFF t := by
  simp [oryHalf, hA, hB, b2n]

theorem exec_orreryFault_a {s : State} (hp : powered s = true) : exec (.orreryFault (some .a)) s = .next (conclude (oryHalf true s)) := by
  change execOrreryFault (some .a) s = _
  rw [execOrreryFault, if_neg (by simp [hp])]

theorem exec_orreryFault_b {s : State} (hp : powered s = true) : exec (.orreryFault (some .b)) s = .next (conclude (oryHalf false s)) := by
  change execOrreryFault (some .b) s = _
  rw [execOrreryFault, if_neg (by simp [hp])]

/-- Yuham back up, before what a commit adds: measured, its events drained, its packets deferred and YUHAM_UP posted. -/
def yuhamBack (s : State) : State :=
  let img := if s.ldg.yActive then s.ldg.yB else s.ldg.yA
  postMail 1 (b2n s.ldg.yActive) (deferPackets (drainEvents
    ((putMeas 0 (if s.ldg.yRom then sha384 Config.romImage else imageDigest 0 img) s).modOry fun o =>
      { o with st := if s.ldg.yRom then .rom else .running })))

theorem yuhamUp_plain {s : State} (hc : s.ory.commit = none) : yuhamUp s = yuhamBack s := by
  simp only [yuhamUp, hc]
  rfl

theorem yuhamUp_commit {s : State} {slot : Nat} {raise : Bool} (hc : s.ory.commit = some (slot, raise)) : yuhamUp s =
    let img := if s.ldg.yActive then s.ldg.yB else s.ldg.yA
    packetDone slot (res 0 0 img.version)
      (((yuhamBack s).modLdg fun l => if raise then { l with yMin := img.svn } else l).modOry fun o => { o with commit := none }) := by
  simp only [yuhamUp, hc]
  rfl

theorem exec_yuhamRestartComplete {s : State} (hp : powered s = true) (hst : s.ory.st = .restarting) :
    exec .yuhamRestartComplete s = .next (conclude (yuhamUp s)) := by
  change execYuhamRestartComplete s = _
  rw [execYuhamRestartComplete, if_pos (by simp [hp, hst])]

/-- The image that does not come up goes back. -/
theorem exec_yuhamRunningTimeout {s : State} {slot : Nat} {raise : Bool} (hp : powered s = true) (hst : s.ory.st = .restarting)
    (hc : s.ory.commit = some (slot, raise)) : exec .yuhamRunningTimeout s = .next (conclude (packetDone slot timeoutRes
      (restartYuham (unflipYuham (s.ory.packets.any fun p => p.slot = slot && p.opc = 0x3A && p.res.isNone)
        (s.modOry fun o => { o with commit := none }))))) := by
  change execYuhamRunningTimeout s = _
  simp only [execYuhamRunningTimeout, hc]
  rw [if_neg (by simp [hp, hst])]

/-! ### Timeouts and completions of packets -/

section
variable {s : State} {slot : SlotId} {p : Packet} (hon : cmdOn s = true)
  (hp : s.ory.packets.find? (fun p => p.slot = slot.val && (p.res.isNone || closeHeld s p)) = some p)
include hon hp

theorem exec_commandTimeout_held (hheld : cmdHeld s p.opc = true) :
    exec (.commandTimeout slot) s = .next (conclude (stopCmd slot.val timeoutRes s)) := by
  change execCommandTimeout slot s = _
  simp only [execCommandTimeout, hp]
  rw [if_neg (by simp [hon]), if_pos hheld]

theorem exec_commandTimeout_timed (hheld : cmdHeld s p.opc = false) (htimed : p.opc ∈ timedCmds) :
    exec (.commandTimeout slot) s = .next (conclude (failCmd slot.val timeoutRes s)) := by
  change execCommandTimeout slot s = _
  simp only [execCommandTimeout, hp]
  rw [if_neg (by simp [hon]), if_neg (by simp [hheld]), if_pos (List.contains_iff_mem.mpr htimed)]

end

theorem exec_commandPacketComplete_closes {s : State} {slot : SlotId} {p : Packet} {r : Res} (hpow : powered s = true)
    (hup : orreryUp s = true) (hp : s.ory.packets.find? (fun p => p.slot = slot.val && p.res.isSome) = some p) (hr : p.res = some r)
    (hw : cmdWriting s slot.val = false) (hheld : closeHeld s p = false) :
    exec (.commandPacketComplete slot) s = .next (conclude (closePacket p r s)) := by
  change execCommandPacketComplete slot s = _
  simp only [execCommandPacketComplete, hp, hr]
  rw [if_neg (by simp [hpow]), if_pos (by simp [hup, hw, hheld])]
  rfl

theorem exec_commandPacketComplete_bad {s : State} {slot : SlotId} {e : Entry} (hon : cmdOn s = true)
    (hno : s.ory.packets.find? (fun p => p.slot = slot.val && p.res.isSome) = none) (he : badHead s slot.val = some e)
    (hatt : s.port.att = .attached) (hheld : cmdHeld s (hOpc e.hdr) = false) :
    exec (.commandPacketComplete slot) s = .next (conclude (s.modRing s.ory.ctrlRing fun r =>
      { r with cache := r.cache.drop 1, rob := r.rob ++ [{ ent := e, fin := e.verdict.map (badVerdict e) }] })) := by
  have hpow : powered s = true := by
    simp only [cmdOn, Bool.and_eq_true] at hon
    exact hon.1.1.1
  change execCommandPacketComplete slot s = _
  simp only [execCommandPacketComplete, hno, he]
  rw [if_neg (by simp [hpow]), if_pos (by simp [hon, hatt, hheld])]

/-- Settles O42: a half by its partner, the restart by the commit that waits for it, the packet by its outcome. -/
theorem orreryEvents : Obligations.OrreryEvents := by
  unfold Obligations.OrreryEvents
  refine ⟨fun s hp => ⟨?noHalf, ?uncontained, fun hA hB => ?halfA, fun hA hB => ?halfB, fun hA hB => ?last⟩,
    fun s hp hst hc => ?back, fun s slot raise hp hst hc => ?commit, fun s slot raise hp hst hc => exec_yuhamRunningTimeout hp hst hc,
    fun s slot hp hoff => ?offer,
    fun s slot p hon hp => ⟨fun hheld => exec_commandTimeout_held hon hp hheld,
      fun hheld htimed => exec_commandTimeout_timed hon hp hheld htimed⟩,
    fun s slot p r hpow hup hp hr hw hheld => exec_commandPacketComplete_closes hpow hup hp hr hw hheld,
    fun s slot e hon hno he hatt hheld => exec_commandPacketComplete_bad hon hno he hatt hheld,
    fun s hp => ⟨fun ht => ?counters, fun ht => ?inTest, ?calendar⟩⟩
  case noHalf =>
    change execOrreryFault none s = _
    rw [execOrreryFault, if_neg (by simp [hp])]
  case uncontained =>
    change execUncontainedFault s = _
    rw [execUncontainedFault, if_pos hp]
  case halfA =>
    rw [exec_orreryFault_a hp, oryHalf_partner hA hB]
    rfl
  case halfB =>
    rw [exec_orreryFault_b hp, oryHalf_partner hA hB]
    rfl
  case last => rw [exec_orreryFault_b hp, oryHalf_last hA hB]
  case back =>
    rw [exec_yuhamRestartComplete hp hst, yuhamUp_plain hc]
    rfl
  case commit =>
    rw [exec_yuhamRestartComplete hp hst, yuhamUp_commit hc]
    rfl
  case offer =>
    change execOfferTimeout slot s = _
    rw [execOfferTimeout, if_pos (by simp [hp, hoff])]
  case counters =>
    change execCounterCheckpoint s = _
    rw [execCounterCheckpoint, if_pos hp, checkpoint, if_neg (by simp [ht])]
  case inTest =>
    change execCounterCheckpoint s = _
    rw [execCounterCheckpoint, if_pos hp, checkpoint, if_pos ht]
  case calendar =>
    change execCalendarCheckpoint s = _
    rw [execCalendarCheckpoint, if_neg (by simp [hp])]

end Sys2Proof.Machine
end

section
/-! PROOFS. Modes, resets, the lifecycle and address invalidation (R418, R488, R493, R495, R498), and the board mailbox (R482, R518). -/

namespace Sys2Proof.Machine

/-! ### What the scans of the rings leave of the mode -/

theorem foldl_modes {α : Type} {g : State → α → State} (h : ∀ t x, (g t x).modes = t.modes) (l : List α) (s : State) :
    (l.foldl g s).modes = s.modes := by
  induction l generalizing s with
  | nil => rfl
  | cons x l ih => rw [List.foldl_cons, ih, h]

theorem readHeader_modes (n : Nat) (s : State) : (readHeader n s).modes = s.modes :=
  foldl_modes (fun t _ => pushAcc_modes _ t) _ _

theorem scanOn_modes (n : Nat) (s : State) : (scanOn n s).modes = s.modes := by
  simp only [scanOn]
  split
  · rfl
  · exact readHeader_modes n s

theorem startScan_modes (n : Nat) (s : State) : (startScan n s).modes = s.modes := by
  simp only [startScan]
  split
  · exact scanOn_modes n s
  · rfl

theorem rescan_modes (n : Nat) (s : State) : (rescan n s).modes = s.modes := by
  simp only [rescan]
  split
  · rfl
  · split
    · rfl
    · exact startScan_modes n _

theorem scanEnabled_modes (s : State) : (scanEnabled s).modes = s.modes :=
  foldl_modes (fun t n => by split; exacts [rescan_modes n t, rfl]) _ s

theorem drainRing_modes (n status : Nat) (s : State) : (drainRing n status s).modes = s.modes := by
  simp only [drainRing]
  split
  · rfl
  · exact readHeader_modes n _

theorem stopRing_modes (n : Nat) (s : State) : (stopRing n s).modes = s.modes := by
  simp only [stopRing]
  split
  · exact drainRing_modes n _ _
  · rfl
  · rfl

theorem reformatRings_modes (s : State) : (reformatRings s).modes = s.modes :=
  foldl_modes (fun t n => by split; exacts [stopRing_modes n t, rfl]) _ s

/-! ### GLB_MODE_CTL (R495, R498) -/

/-- A write of GLB_MODE_CTL before its bits act: CFG_ERR is cleared by a 1. -/
def modeTaken (v : Nat) (s : State) : State := s.modModes fun m => { m with cfgErr := m.cfgErr && !bit v 3 }

theorem eclipseHeld_of_mode {s : State} (h : s.modes.mode ≠ .eclipse) : eclipseHeld s = false := by
  simp [eclipseHeld, h]

theorem eclipseBit_enters {s : State} (h : s.modes.mode = .service ∨ s.modes.mode = .degraded) :
    eclipseBit true s = uncacheData (stopAllJobs (enterEclipse 1 s)) := by
  have hheld : eclipseHeld s = false := eclipseHeld_of_mode (by rcases h with h | h <;> simp [h])
  simp only [eclipseBit, hheld]
  rw [if_neg (by simp), if_pos (by simpa using h)]

theorem eclipseBit_refused {s : State} (hm : s.modes.mode = .eclipse) (hc : s.modes.cause ≠ 1) : eclipseBit true s = modeErr s := by
  have hheld : eclipseHeld s = false := by simp [eclipseHeld, hc]
  simp only [eclipseBit, hheld]
  rw [if_neg (by simp), if_neg (by simp [hm]), if_pos (by simp [hc])]

/-- The end of the manager's Eclipse, at once where the quiesce is complete. -/
theorem eclipseBit_ends {s : State} (hm : s.modes.mode = .eclipse) (hc : s.modes.cause = 1) (he : s.modes.endAsked = false) :
    eclipseBit false s = if s.modes.eclipseDone then leaveEclipse (backTo s s.modes.prior) s
      else s.modModes fun x => { x with endAsked := true } := by
  have hheld : eclipseHeld s = true := by simp [eclipseHeld, hm, hc, he]
  simp only [eclipseBit, hheld]
  rw [if_neg (by simp), if_neg (by simp [hm]), if_neg (by simp [hm, hc]), if_neg (by simp)]

theorem eclipseBit_none {s : State} (h : s.modes.mode ≠ .eclipse) : eclipseBit false s = s := by
  simp only [eclipseBit, eclipseHeld_of_mode h, if_true]

/-- A resumed block stands in Service or Degraded. -/
theorem resume_mode (s : State) : (resume s).modes.mode ≠ .eclipse ∨ (resume s).modes.mode = s.modes.mode := by
  simp only [resume]
  split
  · left
    rw [scanEnabled_modes, reformatRings_modes, enterMode_mode, serviceOrDegraded]
    split <;> simp
  · exact Or.inr rfl

section
variable {s : State} {v : RapWord} (ht : s.takes 0x14 v = true)
include ht

theorem exec_eclipseRequest (hb : bit v.toNat 0 = true) (hr : bit v.toNat 1 = false) : exec (.eclipseRequest v) s
    = .next (conclude (eclipseBit true (modeTaken v.toNat (s.answered .rap)))) := by
  change Host.Outcome.next (rapDo 0x14 v _ s) = _
  rw [rapDo_takes ht, if_pos hb]
  simp only [modeCtl, hb, hr, Bool.false_eq_true, if_false]
  rfl

theorem exec_eclipseEnd (hb : bit v.toNat 0 = false) (hr : bit v.toNat 1 = false) : exec (.eclipseEnd v) s
    = .next (conclude (eclipseBit false (modeTaken v.toNat (s.answered .rap)))) := by
  change Host.Outcome.next (rapDo 0x14 v _ s) = _
  rw [rapDo_takes ht, if_neg (by simp [hb])]
  simp only [modeCtl, hb, hr, Bool.false_eq_true, if_false]
  rfl

theorem exec_resume (hr : bit v.toNat 1 = true) (hb : bit v.toNat 0 = false) (hm : s.modes.mode = .zeroised) : exec (.resume v) s
    = .next (conclude (resume (modeTaken v.toNat (s.answered .rap)))) := by
  have hno : (resume (modeTaken v.toNat (s.answered .rap))).modes.mode ≠ .eclipse :=
    (resume_mode (modeTaken v.toNat (s.answered .rap))).elim id fun h => by
      rw [h]
      exact fun hecl => by simp [modeTaken, State.modModes, hm] at hecl
  change Host.Outcome.next (rapDo 0x14 v _ s) = _
  rw [rapDo_takes ht, if_pos hr, modeCtl, hb, hr, if_pos rfl]
  exact congrArg (fun t => Host.Outcome.next (conclude t)) (eclipseBit_none hno)

end

theorem exec_eclipseQuiesceComplete {s : State} (hm : s.modes.mode = .eclipse) (hq : quiesced s = true) : exec .eclipseQuiesceComplete s
    = .next (if s.modes.cause = 1 ∧ s.modes.endAsked = true then conclude (leaveEclipse (backTo s s.modes.prior) s)
      else s.modModes fun m => { m with eclipseDone := true }) := by
  change execEclipseQuiesceComplete s = _
  simp [execEclipseQuiesceComplete, hm, hq]

/-! ### The lifecycle and invalidation (R418, R493) -/

theorem lcPermitted_deploy {s : State} (harm : s.glb.lcArmed = some (1, now s)) (hl : s.life = .manufacture)
    (hm : s.modes.mode = .service) : lcPermitted s 1 = true := by
  simp [lcPermitted, harm, hl, hm, inTest]

theorem lcPermitted_terminate {s : State} (harm : s.glb.lcArmed = some (2, now s)) (hl : s.life ≠ .terminated) (ht : inTest s = false) :
    lcPermitted s 2 = true := by
  simp [lcPermitted, harm, hl, ht]

theorem lcAdvance_deploy (s : State) : lcAdvance 1 true s = blockReset { s with life := .deployed } := by
  simp [lcAdvance, lcProgram]

theorem lcAdvance_terminate (s : State) : lcAdvance 2 true s = blockReset
    { abortKeyOps 2 (clearKeys true false (s.modPort fun p => { p with zDriven := true })) with life := .terminated } := by
  simp [lcAdvance, lcProgram]

theorem exec_lcCommit {s : State} {v : RapWord} {k : Nat} (ht : s.takes 0x30 v = true) (hc : bit v.toNat 3 = true)
    (hk : fld v.toNat 0 2 = k) (hperm : lcPermitted (s.answered .rap) k = true) : exec (.lcCommit v true) s
      = .next (lcAdvance k true (s.answered .rap)) := by
  subst hk
  change Host.Outcome.next (rapDo 0x30 v _ s) = _
  rw [rapDo_takes ht, if_neg (by simp [hc]), if_pos hperm]

theorem exec_xlInvGo {s : State} {v : RapWord} {n : Nat} (ht : s.takes 0x6014 v = true) (hgo : bit v.toNat 30 = true)
    (hn : s.glb.instSel = n) (hle : n ≤ 128) (hdone : s.mem.invDone = true) : exec (.xlInvGo v) s =
      let ctl := fld v.toNat 0 4 + fld v.toNat 8 21 * 2 ^ 8
      let t := ((s.answered .rap).modMem fun m => { m with invCtl := word ctl }).modMem fun m => { m with invDone := false }
      .next (if bit v.toNat 28 then bumpAsgen n (invalidate n (fun e => e.inst == n) t)
        else invalidate n (fun e => e.inst == n && pageMeets e.bits e.page (invRange s.mem.invLo.toNat ctl)) t) := by
  subst hn
  have hsel : selInst (s.answered .rap) = some s.glb.instSel := if_pos hle
  change Host.Outcome.next (rapDo 0x6014 v _ s) = _
  rw [rapDo_takes ht, if_pos hgo]
  simp only [xlInvCtl, hsel]
  rw [if_neg (by simp [hgo, hdone])]
  rfl

/-- Settles O43: GLB_MODE_CTL by the mode, GLB_RESET by its key, GLB_LC_CTL by what was armed, the invalidation by its range. -/
theorem modesAndLifecycle : Obligations.ModesAndLifecycle := by
  unfold Obligations.ModesAndLifecycle
  refine ⟨fun s v ht => ⟨fun hb hr hm => ?enter, fun hb hr hm hc => ?refuse, fun hb hr hm hc he => ?ends⟩,
    fun s hm hq => ⟨fun hno => ?quiet, fun hc he => ?leaves⟩,
    fun s v ht hr hb hm => ⟨fun hok => ?resumes, fun hbad => ?stays⟩, fun s path v ht => ?reset, fun s v ht ha hc => ?arm,
    fun s v ht hc harm hk hl hm => ?deploy, fun s v ht hc harm hk hl hno => ?terminate,
    fun s v n ht hgo hn hle hdone => exec_xlInvGo ht hgo hn hle hdone, fun s hd hh => ?done⟩
  case enter => exact (exec_eclipseRequest ht hb hr).trans (congrArg (fun t => Host.Outcome.next (conclude t)) (eclipseBit_enters hm))
  case refuse => exact (exec_eclipseRequest ht hb hr).trans (congrArg (fun t => Host.Outcome.next (conclude t)) (eclipseBit_refused hm hc))
  case ends => exact (exec_eclipseEnd ht hb hr).trans (congrArg (fun t => Host.Outcome.next (conclude t)) (eclipseBit_ends hm hc he))
  case quiet => rw [exec_eclipseQuiesceComplete hm hq, if_neg hno]
  case leaves => rw [exec_eclipseQuiesceComplete hm hq, if_pos ⟨hc, he⟩]
  case resumes => exact (exec_resume ht hr hb hm).trans (congrArg (fun t => Host.Outcome.next (conclude t)) (if_pos hok))
  case stays =>
    exact (exec_resume ht hr hb hm).trans (congrArg (fun t => Host.Outcome.next (conclude t)) (if_neg (Bool.eq_false_iff.mp hbad)))
  case reset => exact congrArg Host.Outcome.next (pathDo_takes ht (glbReset v.toNat))
  case arm =>
    change Host.Outcome.next (rapDo 0x30 v _ s) = _
    rw [rapDo_takes ht, if_pos (by simp [ha, hc])]
    simp only [lcCtl, ha, if_true, Bool.or_eq_true, decide_eq_true_eq]
    rfl
  case deploy => rw [exec_lcCommit ht hc hk (lcPermitted_deploy (s := s.answered .rap) harm hl hm), lcAdvance_deploy]
  case terminate => rw [exec_lcCommit ht hc hk (lcPermitted_terminate (s := s.answered .rap) harm hl hno), lcAdvance_terminate]
  case done =>
    change execXlInvDone s = _
    simp [execXlInvDone, hd, hh]

/-! ### The board mailbox -/

theorem mboxCtl_h2bPost (s : State) : mboxCtl .rap 1 s = postH2b s := by
  simp [mboxCtl, bit, State.modGlb]

theorem mboxCtl_b2hPost (s : State) : mboxCtl .i3c 4 s = postB2h s := by
  simp [mboxCtl, bit, State.modGlb]

theorem mboxCtl_h2bAck (s : State) : mboxCtl .i3c 2 s = s.modGlb fun g => { g with h2bFull := false } := by
  simp [mboxCtl, bit, State.modGlb]

theorem mboxCtl_b2hAck (s : State) : mboxCtl .rap 8 s = s.modGlb fun g => { g with b2hFull := false } := by
  simp [mboxCtl, bit, State.modGlb]

theorem mboxCommand_takes {s : State} {path : Path} {v : Nat} {ic : BitVec 16} (ht : s.pathTakes path 0x300 { data := word v, ic := ic } = true) :
    mboxCommand path v ic s = conclude (mboxCtl path v (s.answered path)) := pathDo_takes ht _

theorem exec_mboxWordWrite_rap {s : State} {i : Fin 32} {v : RapWord} (ht : s.takes (0x200 + 4 * i.val) v = true) :
    exec (.mboxWordWrite .rap .h2b i v) s = .next (mboxWord .rap .h2b i.val v.data (s.answered .rap)) :=
  congrArg Host.Outcome.next (rapDo_takes ht _)

theorem exec_mboxWordWrite_i3c {s : State} (hup : s.portUp = true) (dir : MboxDir) (i : Fin 32) (v : RapWord) :
    exec (.mboxWordWrite .i3c dir i v) s = .next (mboxWord .i3c dir i.val v.data s) :=
  congrArg Host.Outcome.next (pathDo_takes (path := .i3c) hup _)

theorem exec_oryAttestGo {s : State} {path : Path} {v : RapWord} (ht : s.pathTakes path 0x50C v = true) (hgo : bit v.toNat 4 = true) :
    exec (.oryAttestGo path v) s = .next (attestGo ((s.answered path).modOry fun o =>
      { o with verifier := fld v.toNat 0 3, attProv := bit v.toNat 3 })) := by
  change Host.Outcome.next (pathDo path 0x50C v _ s) = _
  rw [pathDo_takes ht, if_pos hgo, attestCtl, if_pos hgo]

/-- What a report's start leaves while Orrery runs, by the root and the secret of its verifier. -/
theorem attestGo_up {s : State} (hup : orreryUp s = true) : attestGo s =
    let t := s.modOry fun o => { o with reply := [] }
    let done := fun (kind : Nat) (x : List Byte) => t.modOry fun o =>
      { o with attStatus := 0, reply := replyWords (report s s.ory.verifier kind (nonceBytes s) x) }
    let bad := t.modOry fun o => { o with attStatus := 8 }
    if hasRoot s = false then bad else if s.ory.attProv then done 3 (provPair s).1
    else if (attestSecret s s.ory.verifier).isNone then bad else done 0 [] := by
  simp only [attestGo, hup, Bool.not_true, Bool.false_eq_true, if_false, Bool.not_eq_true']

/-- Settles O44: a post by whether its direction is empty, a word by the path that owns it, GO by the roots and secrets present. -/
theorem boardMailbox : Obligations.BoardMailbox := by
  unfold Obligations.BoardMailbox
  refine ⟨fun s ic hup => ⟨fun ht hno => ?h2b, fun ht hfull => ?h2bFull, fun hno => ?b2h, fun hfull => ?b2hFull, ?h2bAck, fun ht => ?b2hAck⟩,
    fun s i v hup => ⟨fun ht hno => ?word, fun ht hfull => ?wordFull, fun hno => ?wordI3c,
      fun ht => congrArg Host.Outcome.next (rapDo_takes ht _), exec_mboxWordWrite_i3c hup .h2b i v⟩,
    fun s path v ht hup hgo => ?attest⟩
  case h2b =>
    refine congrArg Host.Outcome.next ((mboxCommand_takes (path := .rap) ht).trans ?_)
    rw [mboxCtl_h2bPost, postH2b, if_neg (by simp [hno])]
  case h2bFull =>
    refine congrArg Host.Outcome.next ((mboxCommand_takes (path := .rap) ht).trans ?_)
    rw [mboxCtl_h2bPost, postH2b, if_pos (by simp [hfull]), mboxOver]
  case b2h =>
    refine congrArg Host.Outcome.next ((mboxCommand_takes (path := .i3c) hup).trans ?_)
    rw [mboxCtl_b2hPost, postB2h, if_neg (by simp [hno])]
    rfl
  case b2hFull =>
    refine congrArg Host.Outcome.next ((mboxCommand_takes (path := .i3c) hup).trans ?_)
    rw [mboxCtl_b2hPost, postB2h, if_pos (by simp [hfull]), mboxOver]
    rfl
  case h2bAck =>
    refine congrArg Host.Outcome.next ((mboxCommand_takes (path := .i3c) hup).trans ?_)
    rw [mboxCtl_h2bAck]
    rfl
  case b2hAck =>
    refine congrArg Host.Outcome.next ((mboxCommand_takes (path := .rap) ht).trans ?_)
    rw [mboxCtl_b2hAck]
  case word => rw [exec_mboxWordWrite_rap ht, mboxWord, if_neg (by simp [hno])]
  case wordFull => rw [exec_mboxWordWrite_rap ht, mboxWord, if_pos (by simp [hfull]), mboxOver]
  case wordI3c => rw [exec_mboxWordWrite_i3c hup, mboxWord, if_neg (by simp [hno])]
  case attest =>
    have hup' : orreryUp ((s.answered path).modOry fun o => { o with verifier := fld v.toNat 0 3, attProv := bit v.toNat 3 }) = true := by
      cases path <;> exact hup
    rw [exec_oryAttestGo ht hgo, attestGo_up hup']
    rfl

end Sys2Proof.Machine
end

section
/-! PROOFS. Lane and digest computations (R103, R149, R153, R154, R169 to R197, R301 to R320). -/

namespace Sys2Proof.Machine

/-- An opcode's row runs on the operation that waits for it. -/
theorem runOp_ready {s : State} {tag o : Nat} {j : Job} (h : readyJob s tag o = some j) (f : Job → State → State) :
    runOp tag o f s = .next (conclude (placeWork (f j s))) := by
  simp only [runOp, h]

/-! ### The end of a text -/

theorem endText_agrees {s : State} {j : Job} (hd : decrypts j.opc = true) (htag : j.textTag s = j.sc.given) : endText j s
    = closeJob j j.out (if j.ends.isSome then j.eng.dst else j.out.length) []
        (j.ends.getD (res 0 0 (if j.egress.isSome then 0 else j.out.length)))
        (if isFrame j.opc then markVerified j.tag j.sc.slot j.sc.num s else s) := by
  simp only [endText, hd, if_true, htag, beq_self_eq_true, Job.resultOf]

theorem endText_differs {s : State} {j : Job} (hd : decrypts j.opc = true) (htag : j.textTag s ≠ j.sc.given) : endText j s
    = closeJob j j.out j.out.length [] (j.tagVerdict s).1 (j.tagVerdict s).2 := by
  simp only [endText, hd, if_true]
  rw [if_neg (by simpa using htag)]

/-- A MAC failure counts on the slot that made the tag. -/
theorem tagVerdict_slot {j : Job} {n : Nat} (h : j.macSlot = some n) (s : State) : j.tagVerdict s = (macFail, hslotFail n s) := by
  simp only [Job.tagVerdict, h]

theorem tagVerdict_plain {j : Job} (h : j.macSlot = none) (s : State) : j.tagVerdict s = (tagFail, s) := by
  simp only [Job.tagVerdict, h]

theorem startText_whole {s : State} {j : Job} (hends : j.ends = none) (got : Nat) (m : Made) : startText got m j s =
    let e := ({ j with out := m.out, sc := m.sc } : Job).textStart s
    let k : Job := { j with out := m.out, sc := m.sc, eng := e, back := (0, e), phase := .computed, ends := m.ends }
    if j.segs ≤ 1 then endText k (s.modJob j.tag fun _ => k) else s.modJob j.tag fun _ => k := by
  simp only [startText, hends]

theorem startText_short {s : State} {j : Job} {r : Res} (hends : j.ends = some r) (got : Nat) (m : Made) : startText got m j s =
    let e := ({ j with out := m.out, sc := m.sc } : Job).textStart s
    let k : Job := { j with out := m.out, sc := m.sc, eng := e, back := (0, e), phase := .computed }
    endShort k got r (s.modJob j.tag fun _ => k) := by
  simp only [startText, hends]

/-- Settles O45: each opcode's row on the operation that waits for it, and the end of its text by the tag. -/
theorem laneComputations : Obligations.LaneComputations := by
  unfold Obligations.LaneComputations
  refine ⟨fun s tag j h => runOp_ready h _, fun s tag j dec h => ?sym, fun s tag j h => runOp_ready h _, fun s tag j rx h => ?receive,
    fun s tag j h => ?espOut, fun s j got m => ⟨fun hends => startText_whole hends got m, fun r hends => startText_short hends got m⟩,
    fun s j hd => ⟨fun htag => endText_agrees hd htag, fun htag => ?differs⟩, fun s j hd => ?sends⟩
  case sym =>
    cases dec
    · exact runOp_ready h (symRun false)
    · exact runOp_ready h (symRun true)
  case receive =>
    cases rx
    · simp only [Bool.false_eq_true, if_false] at h ⊢
      change runOp tag.val 0x23 espReceive s = _
      rw [runOp_ready h, espReceive]
      cases espInMade j.adm j.keyOf (jobFrame s j) (frHdr j.body) <;> cases j.selects s <;> rfl
    · simp only [if_true] at h ⊢
      change runOp tag.val 0x21 macsecReceive s = _
      rw [runOp_ready h, macsecReceive]
      cases macsecRxMade j.adm j.keyOf (jobFrame s j) (frHdr j.body) <;> cases j.selects s <;> rfl
  case espOut =>
    change runOp tag.val 0x22 (fun j t => if j.kind / 2 = 0xA then withDrbg espSend j t else espSend j t) s = _
    rw [runOp_ready h]
    congr 3
    by_cases hk : j.kind / 2 = 0xA
    · simp only [hk, if_true, withDrbg, decide_true, Bool.true_and]
      by_cases hst : s.anv.drbg == .stopped
      · rw [if_pos hst, if_pos hst]; rfl
      · rw [if_neg hst, if_neg hst]
        cases hup : drbgUp s
        · rfl
        · rw [if_pos rfl, if_neg (by simp), espSend]
          simp only [hk, if_true] <;> rfl
    · simp only [hk, if_false, decide_false, Bool.false_and, Bool.false_eq_true, espSend] <;> rfl
  case differs =>
    rw [endText_differs hd htag]
    cases hslot : j.macSlot with
    | some n => simp only [tagVerdict_slot hslot]; rfl
    | none => simp only [tagVerdict_plain hslot]; rfl
  case sends => simp only [endText, hd, Bool.false_eq_true, if_false, Job.resultOf]

/-! ### Digest computations -/

theorem endDigest_gives {j : Job} (h : j.opc ≠ 0x32) (s : State) : endDigest j s =
    let out := digestEnd (dgAlg j.body) (dgLen j.body) j.sc (j.macStates s).2 j.eng
    closeJob j out out.length [] (res 0 0 out.length) s := by
  simp only [endDigest]
  rw [if_pos (by simpa using h)]

theorem endDigest_verifies {j : Job} (h : j.opc = 0x32) (s : State) : endDigest j s =
    if digestEnd (dgAlg j.body) (dgLen j.body) j.sc (j.macStates s).2 j.eng = jobPart s j partSecond then closeJob j [] 0 [] (res 0 0) s
    else closeJob j [] 0 [] macFail (match j.hslot with
      | some n => hslotFail n s
      | none => s) := by
  simp only [endDigest, beq_iff_eq]
  rw [if_neg (by simp [h])] <;> rfl

/-- Settles O46: the three rows load the same start; the end is decided by the opcode. -/
theorem digestComputations : Obligations.DigestComputations := by
  unfold Obligations.DigestComputations
  refine ⟨fun s tag j o c hc h => ?starts, fun s j => ⟨fun ho => ?gives, fun ho => ?verifies⟩, fun s tag j h => runOp_ready h _⟩
  case starts =>
    simp only [List.mem_cons, Prod.mk.injEq, List.not_mem_nil, or_false] at hc
    rcases hc with ⟨rfl, rfl⟩ | ⟨rfl, rfl⟩ | ⟨rfl, rfl⟩ <;> exact runOp_ready h startDigest
  case gives =>
    rw [endDigest_gives ho]
    rfl
  case verifies =>
    rw [endDigest_verifies ho]
    rfl

end Sys2Proof.Machine
end

section
/-! PROOFS. Anvil computations (R324 to R337, R341, R344, R345) and the jobs that install a next key (R156, R157, R270, R271, R331,
R335, R354, R364). -/

namespace Sys2Proof.Machine

/-! ### Rows of the Anvil units -/

theorem drbgUp_of_running {s : State} (h : s.anv.drbg = .running) : drbgUp s = true := by
  simp [drbgUp, h]

theorem runAnvil_ready {s : State} {tag o : Nat} {j : Job} (h : readyJob s tag o = some j) (f : Job → State → State) :
    runAnvil tag o f s = .next (conclude (placeWork (wipeUnit tag (f j s)))) :=
  runOp_ready h _

theorem withDrbg_running {s : State} (h : s.anv.drbg = .running) (f : Job → State → State) (j : Job) : withDrbg f j s = f j s := by
  simp [withDrbg, h, drbgUp_of_running h]

theorem withDrbg_stopped {s : State} (h : s.anv.drbg = .stopped) (f : Job → State → State) (j : Job) :
    withDrbg f j s = computeJob j.tag [] [] (res 0x23 1) s := by
  simp [withDrbg, h, noEntropy]

theorem runAnvil_running {s : State} {tag o : Nat} {j : Job} (h : readyJob s tag o = some j) (hd : s.anv.drbg = .running)
    (f : Job → State → State) : runAnvil tag o (withDrbg f) s = .next (conclude (placeWork (wipeUnit tag (f j s)))) := by
  rw [runAnvil_ready h, withDrbg_running hd]

theorem withPriv_none {s : State} {j : Job} (h : privOf s j = none) (f : List Byte → Job → State → State) :
    withPriv f j s = computeJob j.tag [] [] (res 1 4) s := by
  simp only [withPriv, h]
  rfl

theorem withPriv_some {s : State} {j : Job} {k : List Byte} (h : privOf s j = some k) (f : List Byte → Job → State → State) :
    withPriv f j s = f k j (drbgUse (blindBytes k) s) := by
  simp only [withPriv, h]

/-! ### Anvil computations -/

theorem rsaPrivRun_parts (k : List Byte) (j : Job) (s : State) : rsaPrivRun k j s =
    let x := rsaParts k
    let m := beNat (avInput s j)
    let out := rsaPrivate (avInLen j.body) x.1 x.2.1 x.2.2.1 x.2.2.2.1 x.2.2.2.2 m
    if x.1 * x.2.1 ≤ m then jobFails paramBad j s
    else if powMod (x.1 * x.2.1) (beNat out) (beNat (k.drop (k.length - 32))) = m then jobGives out j s
    else checkFails 7 j s := by
  rcases hx : rsaParts k with ⟨p, q, dP, dQ, qInv⟩
  simp only [rsaPrivRun, hx, ge_iff_le, bne_iff_ne, ne_eq, ite_not]

theorem keygenMake_pair {s : State} {j : Job} {pub k : List Byte} {n : Nat} (ha : avAlg j.body ≠ 1)
    (hg : genPair (avAlg j.body) s = some (pub, k, n)) :
    keygenMake j s = keygenGive pub k j (drbgUse (blindBytes k) (drbgUse n s)) := by
  simp only [keygenMake, if_neg ha, hg]

theorem keygenGive_wraps {s t : State} {pub k : List Byte} {j : Job} (hok : pairOk (avAlg j.body) pub k = true)
    (hw : countWrap (hIndex j.parent) s = some t) : keygenGive pub k j s = computeJob j.tag pub
      [(avKey j.body, envMake j.keyA 4 (avAlg j.body) k (drawBytes t 12))] (res 0 0 pub.length) (drbgUse 12 t) := by
  simp only [keygenGive, hok, hw, Bool.not_true, Bool.false_eq_true, if_false]

theorem keygenGive_limit {s : State} {pub k : List Byte} {j : Job} (hok : pairOk (avAlg j.body) pub k = true)
    (hw : countWrap (hIndex j.parent) s = none) : keygenGive pub k j s = computeJob j.tag [] [] (res 8 4) s := by
  simp only [keygenGive, hok, hw, Bool.not_true, Bool.false_eq_true, if_false]
  rfl

theorem wipeUnit_job {s : State} {tag : Nat} {j : Job} (hj : s.job? tag = some j) : wipeUnit tag s =
    if j.phase = .reading then s
    else (dropReads j s).modJob tag fun x => { x with reads := [], ops := [], keyA := [], keyB := [] } := by
  simp only [wipeUnit, hj, beq_iff_eq]

/-- Settles O47: each row through the DRBG, its own key and the operands it needs. -/
theorem anvilComputations : Obligations.AnvilComputations := by
  unfold Obligations.AnvilComputations
  refine ⟨fun s tag j h hd => ?rsaPriv, fun s tag j h hd => ?noEntropy, fun s k j => ?rsaRun, fun s tag j h => runAnvil_ready h rsaPubRun,
    fun s tag j h hd => ?sign, fun s tag j h => ?verify, fun s tag j h hd hpr => ?keygen,
    fun s j pub k n ha hg => keygenMake_pair ha hg,
    fun s t pub k j hok => ⟨fun hw => keygenGive_wraps hok hw, fun hw => keygenGive_limit hok hw⟩,
    fun s tag j h hd => ?random, fun s tag j hj => wipeUnit_job hj⟩
  case rsaPriv =>
    refine (runAnvil_running h hd (withPriv rsaPrivRun)).trans ?_
    cases hk : privOf s j with
    | none => rw [withPriv_none hk]
    | some k => rw [withPriv_some hk]
  case noEntropy =>
    refine (runAnvil_ready h (withDrbg (withPriv rsaPrivRun))).trans ?_
    rw [withDrbg_stopped hd]
  case rsaRun =>
    rw [rsaPrivRun_parts]
    rfl
  case sign =>
    refine (runAnvil_running h hd (withPriv signRun)).trans ?_
    cases hk : privOf s j with
    | none => rw [withPriv_none hk]
    | some k => rw [withPriv_some hk]
  case verify =>
    refine (runAnvil_ready h verifyRun).trans ?_
    rw [verifyRun]
    rfl
  case keygen =>
    refine (runAnvil_running h hd keygenRun).trans ?_
    rw [keygenRun, if_pos (by simp [hpr])]
  case random => exact runAnvil_running h hd _

/-! ### Next keys -/

section
variable {s : State} {j : Job} {e : Nat} (he : j.ctxEnt = some e)
include he

theorem withTarget_waits (huse : nextInUse s e = true) (f : Nat → Job → State → State) : withTarget f j s = s := by
  simp only [withTarget, he, huse, if_true]

variable (huse : nextInUse s e = false)
include huse

theorem withTarget_deep (hdeep : 6 ≤ childDepth s j.parent) (f : Nat → Job → State → State) :
    withTarget f j s = computeJob j.tag [] [] (res 8 8) s := by
  simp only [withTarget, he, huse, Bool.false_eq_true, if_false]
  rw [if_pos hdeep]
  rfl

theorem withTarget_installs (hdepth : childDepth s j.parent < 6) (f : Nat → Job → State → State) : withTarget f j s = f e j s := by
  simp only [withTarget, he, huse, Bool.false_eq_true, if_false]
  rw [if_neg (Nat.not_le.mpr hdepth)]

end

theorem unwrapRun_none {s : State} {e : Nat} {j : Job}
    (h : envOpen j.keyA 1 ((s.ctxAt e).keySize + 1) (materialLen (s.ctxAt e)) (jobPart s j partSecond) = none) :
    unwrapRun e j s = computeJob j.tag [] [] (res 1 4) s := by
  simp only [unwrapRun, h]
  rfl

theorem unwrapRun_some {s : State} {e : Nat} {j : Job} {m : List Byte}
    (h : envOpen j.keyA 1 ((s.ctxAt e).keySize + 1) (materialLen (s.ctxAt e)) (jobPart s j partSecond) = some m) :
    unwrapRun e j s = jobGives [] j (installFor j e m s) := by
  simp only [unwrapRun, h]

theorem agreeRun_hybrid {s : State} {e : Nat} {j : Job} (h : hybridPoint (avAlg j.body) (avInput s j) = true) :
    agreeRun e j s = computeJob j.tag [] [] (res 4 0x12) s := by
  simp only [agreeRun, h, if_true]
  rfl

/-- What an agreement gives with its own key: the secret installed, or an invalid peer. -/
def agreed (e a : Nat) (k peer out : List Byte) (j : Job) (t : State) : State :=
  match agreeSecret a k peer with
  | none => jobFails publicBad j t
  | some z => installSecret e z out j t

theorem agreeRun_wrapped {s : State} {e : Nat} {j : Job} (hy : hybridPoint (avAlg j.body) (avInput s j) = false) (hlen : avKeyLen j.body ≠ 0) :
    agreeRun e j s = withPriv (fun k j' t => agreed e (avAlg j.body) k (avInput t j') [] j' t) j s := by
  simp only [agreeRun, hy, Bool.false_eq_true, if_false, if_neg hlen]
  rfl

theorem agreeRun_fresh {s : State} {e : Nat} {j : Job} {k : List Byte} {n : Nat} (hy : hybridPoint (avAlg j.body) (avInput s j) = false)
    (hlen : avKeyLen j.body = 0) (hk : agreeFresh (avAlg j.body) s = some (k, n)) : agreeRun e j s
      = agreed e (avAlg j.body) k (avInput s j) (agreePublic (avAlg j.body) k) j (drbgUse (blindBytes k) (drbgUse n s)) := by
  simp only [agreeRun, hy, Bool.false_eq_true, if_false, if_pos hlen, hk]
  rfl

theorem agreeRun_none {s : State} {e : Nat} {j : Job} (hy : hybridPoint (avAlg j.body) (avInput s j) = false)
    (hlen : avKeyLen j.body = 0) (hk : agreeFresh (avAlg j.body) s = none) :
    agreeRun e j s = drbgUse (64 * (curveOf (avAlg j.body)).len) s := by
  simp only [agreeRun, hy, Bool.false_eq_true, if_false, if_pos hlen, hk]

/-- Settles O48: each row on a context whose key may be replaced, by what its key or its peer gives. -/
theorem nextKeyJobs : Obligations.NextKeyJobs := by
  unfold Obligations.NextKeyJobs
  refine ⟨fun s tag j e he huse hdepth => ⟨fun h => ?derive, fun h => ?unwrap, fun hd h hlen hy => ?agree, fun hd h hlen hy => ?fresh,
      fun hd h hy => ?hybrid, fun hd h => ?encaps, fun hd h => ?decaps⟩,
    fun s e secret out j => rfl, fun s tag j e he huse h => ?waits, fun s tag j e he huse hdeep h => ?deep⟩
  case derive =>
    refine (runOp_ready h (withTarget deriveRun)).trans ?_
    rw [withTarget_installs he huse hdepth]
    rfl
  case unwrap =>
    refine (runOp_ready h (withTarget unwrapRun)).trans ?_
    rw [withTarget_installs he huse hdepth]
    cases hm : envOpen j.keyA 1 ((s.ctxAt e).keySize + 1) (materialLen (s.ctxAt e)) (jobPart s j partSecond) with
    | none => rw [unwrapRun_none hm]
    | some m => rw [unwrapRun_some hm]
  case agree =>
    refine (runAnvil_running h hd (withTarget agreeRun)).trans ?_
    rw [withTarget_installs he huse hdepth, agreeRun_wrapped hy hlen]
    cases hk : privOf s j with
    | none => rw [withPriv_none hk]
    | some k =>
      rw [withPriv_some hk]
      rfl
  case fresh =>
    refine (runAnvil_running h hd (withTarget agreeRun)).trans ?_
    rw [withTarget_installs he huse hdepth]
    cases hk : agreeFresh (avAlg j.body) s with
    | none => rw [agreeRun_none hy hlen hk]
    | some x =>
      rw [agreeRun_fresh hy hlen hk]
      rfl
  case hybrid =>
    refine (runAnvil_running h hd (withTarget agreeRun)).trans ?_
    rw [withTarget_installs he huse hdepth, agreeRun_hybrid hy]
  case encaps =>
    refine (runAnvil_running h hd (withTarget encapsRun)).trans ?_
    rw [withTarget_installs he huse hdepth]
    cases hek : kemEkOk (avAlg j.body) (avInput s j) <;> simp only [encapsRun, hek] <;> rfl
  case decaps =>
    refine (runAnvil_running h hd (withTarget decapsRun)).trans ?_
    rw [withTarget_installs he huse hdepth, decapsRun]
    cases hk : privOf s j with
    | none => rw [withPriv_none hk]
    | some k => rw [withPriv_some hk]
  case waits =>
    refine (runOp_ready h (withTarget deriveRun)).trans ?_
    rw [withTarget_waits he huse]
  case deep =>
    refine (runOp_ready h (withTarget deriveRun)).trans ?_
    rw [withTarget_deep he huse hdeep]

end Sys2Proof.Machine
end

section
/-! PROOFS. Instance commands (R406 to R410, R427 to R430), each on the packet that is served. -/

namespace Sys2Proof.Machine

/-! ### Commands on the packet that is served -/

theorem next_serving {s t : State} {slot opc : Nat} {sel : Nat → Bool} {reads : Packet → List (Nat × Nat)} {p : Packet}
    (h : s.serving slot opc reads = some (p, t)) (hs : sel p.flags = true) (f : Packet → State → State) :
    (Host.Outcome.next (runCmd slot opc sel reads f s) : Out) = .next (conclude (f p t)) :=
  congrArg Host.Outcome.next (runCmd_serving h hs f)

theorem next_conclude {t u : State} (h : t = u) : (Host.Outcome.next (conclude t) : Out) = .next (conclude u) :=
  congrArg (fun x => Host.Outcome.next (conclude x)) h

/-! ### INST_CREATE, INST_RESIZE and the release -/

section
variable {t : State} {p : Packet} (hres : descReservedSet (cmdDesc t p) = false)
include hres

theorem createInst_checked (hrange : descRangeOk t (p.p 0) (cmdDesc t p) (descGroups true (cmdDesc t p)) = true)
    (hep : epochBad t (p.p 0) (fld (cmdDesc t p) 0 32) = false) (hroot : hasRoot t = true) : createInst p t =
      if (t.inst (p.p 0)).st ≠ .unused then endCmd p.slot okRes 0 t
      else if iotlbOver t (p.p 0) (fld (cmdDesc t p) 256 14) then failCmd p.slot iotlbQuota t
      else
        let n := p.p 0
        let d := cmdDesc t p
        let u := (recordSlot n (putInstKey n (fld d 0 32) t)).modLdg fun l =>
          { l with epochs := tset l.epochs (0, false) n (fld d 0 32, false) }
        endCmd p.slot okRes 0 ((bumpAsgen n (setResources n d (descGroups true d) u)).modInst n fun v =>
          { v with st := .disabled, weight := v.newWeight, burst := v.newBurst }) := by
  simp only [createInst, hres, hrange, hep, hroot, Bool.false_eq_true, Bool.not_true, Bool.or_self, if_false, bne_iff_ne]

theorem resizeInst_checked (hrange : descRangeOk t (p.p 0) (cmdDesc t p) (descGroups false (cmdDesc t p)) = true)
    (hst : (t.inst (p.p 0)).st ≠ .unused) (hheld : rangeHeld t (p.p 0) (cmdDesc t p) (descGroups false (cmdDesc t p)) = false)
    (hpin : descGroups false (cmdDesc t p) 2 = true → pinnedOf t (p.p 0) ≤ fld (cmdDesc t p) 128 19)
    (htlb : descGroups false (cmdDesc t p) 7 = true → iotlbOver t (p.p 0) (fld (cmdDesc t p) 256 14) = false) :
    resizeInst p t = endCmd p.slot okRes 0 (setResources (p.p 0) (cmdDesc t p) (descGroups false (cmdDesc t p)) t) := by
  have hq : (descGroups false (cmdDesc t p) 2 && decide (fld (cmdDesc t p) 128 19 < pinnedOf t (p.p 0))) = false := by
    simpa using hpin
  have hi : (descGroups false (cmdDesc t p) 7 && iotlbOver t (p.p 0) (fld (cmdDesc t p) 256 14)) = false := by
    simpa using htlb
  simp only [resizeInst, hres, hrange, hheld, hq, hi, Bool.not_true, Bool.false_eq_true, if_false]
  rw [if_neg (by simpa using hst)]

end

theorem releaseCmd_disabled {t : State} {p : Packet} (hst : (t.inst (p.p 0)).st = .disabled) : releaseCmd p t =
    if ownsKeys t (p.p 0) then failCmd p.slot modeBad t else endCmd p.slot okRes 0 (releaseInst (p.p 0) t) := by
  simp [releaseCmd, hst]

/-! ### INST_RESET, INST_ENABLE and INST_DISABLE -/

section
variable {t : State} {p : Packet} (hstage : p.stage = 0)
include hstage

theorem resetInst_starts (hun : (t.inst (p.p 0)).st ≠ .unused) (hre : (t.inst (p.p 0)).st ≠ .resetting) :
    resetInst p t = ownSequence (p.p 0) p.slot (startReset (p.p 0) t) := by
  unfold resetInst
  dsimp only
  rw [if_neg (by simp [hstage])]
  split
  · contradiction
  · contradiction
  · rfl

theorem enableCmd_disabled (hst : (t.inst (p.p 0)).st = .disabled) (hheld : (t.inst (p.p 0)).resetHeld = false) : enableCmd p t
      = endCmd p.slot okRes 0 (t.modInst (p.p 0) fun v => { v with st := .enabled, resetHeld := false, pendBase := .unused }) := by
  simp [enableCmd, hstage, hst, hheld, enableInst]

theorem enableCmd_held (hst : (t.inst (p.p 0)).st = .disabled) (hheld : (t.inst (p.p 0)).resetHeld = true) : enableCmd p t
      = modPacket p.slot (fun x => { x with stage := 1, committed := true, waits := true }) (enableInst (p.p 0) t) := by
  simp [enableCmd, hstage, hst, hheld]

theorem enableCmd_stopping (hst : (t.inst (p.p 0)).st = .stopping) : enableCmd p t
      = ownSequence (p.p 0) p.slot (t.modInst (p.p 0) fun x => { x with st := .pendingEnable, pendBase := .stopping }) := by
  simp [enableCmd, hstage, hst]

variable (hst : (t.inst (p.p 0)).st = .enabled)
include hst

theorem disableCmd_enabled : disableCmd p t = ownSequence (p.p 0) p.slot (startStop (p.p 0) t) := by
  simp [disableCmd, hstage, hst]

theorem eclipseCmd_enabled : eclipseCmd p t =
    let u := modPacket p.slot (fun q => { q with stage := 1, committed := true, waits := true }) (startQuiet (p.p 0) t)
    if inFlight u (p.p 0) = 0 then endCmd p.slot okRes 0 u else u := by
  simp [eclipseCmd, hstage, hst]

end

/-! ### The ends of the shut-downs -/

theorem exec_instResetComplete {s : State} {slot : SlotId} {n : Nat} (hp : powered s = true)
    (hn : sequenceInst s slot.val (fun v => v.st == .resetting || (v.st == .pendingEnable && v.pendBase == .resetting)) = some n)
    (hq : instQuiet s n = true) : exec (.instResetComplete slot) s = .next (conclude (shutDone n true s)) := by
  change execInstResetComplete slot s = _
  simp only [execInstResetComplete, hn, hp, hq, Bool.and_self, if_true]

theorem exec_instStopComplete {s : State} {slot : SlotId} {n : Nat} (hp : powered s = true)
    (hn : sequenceInst s slot.val (fun v => v.st == .stopping || (v.st == .pendingEnable && v.pendBase == .stopping)) = some n)
    (hq : instStopped s n = true) : exec (.instStopComplete slot) s = .next (conclude (shutDone n false s)) := by
  change execInstStopComplete slot s = _
  simp only [execInstStopComplete, hn, hp, hq, Bool.and_self, if_true]

theorem shutDone_completes {s : State} {n slot : Nat} {reset : Bool} (hst : (s.inst n).st ≠ .pendingEnable)
    (hcmd : (s.inst n).cmd = some slot) : shutDone n reset s = packetDone slot okRes (s.modInst n fun v =>
      { v with st := .disabled, pendBase := .unused, cmd := none, resetHeld := v.resetHeld || reset }) := by
  simp only [shutDone, hcmd]
  rw [if_neg (by simpa using hst)]

/-- Settles O49: each command by what it does on the packet that is served. -/
theorem instanceCommands : Obligations.InstanceCommands := by
  unfold Obligations.InstanceCommands
  refine ⟨fun s t slot p h => next_serving h rfl _, fun s t slot p h hres hrange hep hroot => ?create,
    fun s t slot p h hres hrange hst hheld hpin htlb => ?resize, fun s t slot p h hf hstage hun hre => ?reset,
    fun s t slot p h hf => ?release, fun s t slot p h hstage => ?enable, fun s t slot p h => ⟨fun hf hstage hst => ?disable,
      fun hf hstage hst => ?eclipse⟩,
    fun s slot n hp => ⟨fun hn hq => exec_instResetComplete hp hn hq, fun hn hq => exec_instStopComplete hp hn hq⟩,
    fun s n slot reset hst hcmd => shutDone_completes hst hcmd⟩
  case create =>
    refine ⟨fun hst hover => ?new, fun hst => ?kept⟩
    case new =>
      refine (next_serving h rfl createInst).trans (next_conclude ?_)
      rw [createInst_checked hres hrange hep hroot, if_neg (by simpa using hst), if_neg (by simp [hover])]
    case kept =>
      refine (next_serving h rfl createInst).trans (next_conclude ?_)
      rw [createInst_checked hres hrange hep hroot, if_pos hst]
  case resize => exact (next_serving h rfl resizeInst).trans (next_conclude (resizeInst_checked hres hrange hst hheld hpin htlb))
  case reset => exact (next_serving h (by simp [hf]) resetInst).trans (next_conclude (resetInst_starts hstage hun hre))
  case release =>
    refine ⟨fun hst hown => ?free, fun hst hown => ?owned⟩
    case free =>
      refine (next_serving h hf releaseCmd).trans (next_conclude ?_)
      rw [releaseCmd_disabled hst, if_neg (by simp [hown])]
    case owned =>
      refine (next_serving h hf releaseCmd).trans (next_conclude ?_)
      rw [releaseCmd_disabled hst, if_pos hown, modeBad]
  case enable =>
    exact ⟨fun hst hheld => (next_serving h rfl enableCmd).trans (next_conclude (enableCmd_disabled hstage hst hheld)),
      fun hst hheld => (next_serving h rfl enableCmd).trans (next_conclude (enableCmd_held hstage hst hheld)),
      fun hst => (next_serving h rfl enableCmd).trans (next_conclude (enableCmd_stopping hstage hst))⟩
  case disable => exact (next_serving h (by simp [hf]) disableCmd).trans (next_conclude (disableCmd_enabled hstage hst))
  case eclipse => exact (next_serving h hf eclipseCmd).trans (next_conclude (eclipseCmd_enabled hstage hst))

end Sys2Proof.Machine
end

section
/-! PROOFS. Context commands (R252, R256, R257, R268 to R272, R276 to R278, R466, R467, R521 to R523), each on the packet that is
served. -/

namespace Sys2Proof.Machine

/-! ### The context of a packet -/

/-- A packet that waits no longer. -/
def goesOn (p : Packet) (t : State) : State := modPacket p.slot (fun x => { x with waits := false }) t

/-- A packet that waits for what hardware carries to its end. -/
def waitsOn (p : Packet) (t : State) : State := modPacket p.slot (fun x => { x with stage := 1, committed := true, waits := true }) t

theorem goesOn_ctxAt (p : Packet) (t : State) (e : Nat) : (goesOn p t).ctxAt e = t.ctxAt e := rfl

theorem goesOn_vault (p : Packet) (t : State) : (goesOn p t).vault = t.vault := rfl

theorem goesOn_entryInUse (p : Packet) (t : State) (e : Nat) : entryInUse (goesOn p t) e = entryInUse t e := rfl

theorem withCtx_absent {t : State} {p : Packet} (h : t.ctxOf p.ctx = none) (hv : t.vault.en = true) (a : Nat) (k : Nat → State → State) :
    withCtx p a k t = askCtx p.slot p.ctx a t := by
  simp [withCtx, h, hv]

section
variable {t : State} {p : Packet} {e : Nat} (he : t.ctxOf p.ctx = some e) (hst : (t.ctxAt e).st ≠ .evicting)
include he hst

theorem withCtx_resident (a : Nat) (k : Nat → State → State) : withCtx p a k t = k e (goesOn p t) := by
  have hf : (some e).filter (fun e => (t.ctxAt e).st != .evicting) = some e := Option.filter_some_pos (by simpa using hst)
  simp only [withCtx, he, hf, goesOn]

theorem loadCmd_resident (ho : (t.ctxAt e).owner = p.p 0) : loadCmd p t
    = endCmd p.slot okRes 0 (if bit p.flags 1 then pinCtx e true (goesOn p t) else goesOn p t) := by
  rw [loadCmd, withCtx_resident he hst, goesOn_ctxAt, if_neg (by simp [ho])]

theorem evictCmd_resident (hstage : p.stage = 0) : evictCmd p t = sealCmd p e false false t := by
  simp only [evictCmd, he]
  rw [if_neg (by simp [hstage]), if_neg (by simpa using hst)]

theorem flushCmd_resident (hstage : p.stage = 0) : flushCmd p t = sealCmd p e false true t := by
  simp only [flushCmd, he]
  rw [if_neg (by simp [hstage]), if_neg (by simpa using hst)]

theorem exportCmd_resident (hpar : parentCheck t (p.p 0) mi [.transport] = none) (hex : ¬((t.ctxAt e).st = .stale ∧ (t.ctxAt e).cause = 2))
    (huse : entryInUse t e = false) : exportCmd p t = exportCtx p e (goesOn p t) := by
  simp only [exportCmd, hpar]
  rw [withCtx_resident he hst, goesOn_ctxAt, goesOn_entryInUse, if_neg (by simpa using hex), if_neg (by simp [huse])]

end

theorem sealCmd_starts {t : State} {p : Packet} {e : Nat} (hv : t.vault.en = true) (del flush : Bool) :
    sealCmd p e del flush t = startEvict p.ctx e del flush (waitsOn p t) := by
  rw [sealCmd, if_neg (by simp [hv]), waitsOn]

/-! ### CTX_LOAD with CREATE -/

theorem createCmd_checked {t : State} {p : Packet} (hres : createReserved (createBlock t p) = false)
    (hbad : createParamBad (createBlock t p) = false) (hroot : hasRoot t = true) (hnone : t.ctxOf p.ctx = none)
    (hprobe : t.vault.en = false ∨ p.probed = true) (hchk : createChecks p (createCtx p t) t = none)
    (hread : p.stage = 0 → bit (createBlock t p) 704 = false ∧ bit (createBlock t p) 706 = false) :
    createCmd p t = createKeys p (createCtx p t) t := by
  simp only [createCmd, hres, hbad, hroot, hnone, hchk, Bool.false_eq_true, Bool.not_true, Option.isSome_none, if_false]
  rw [if_neg (by rcases hprobe with h | h <;> simp [h]), if_neg]
  simp only [Bool.and_eq_true, decide_eq_true_eq, Bool.or_eq_true, not_and]
  intro hstage
  simp [hread hstage]

section
variable {t : State} {p : Packet} {c : Ctx} {a : List Byte}
  (ha : sourceKey t c (fld (createBlock t p) 512 32) (fld (createBlock t p) 576 64)
    (if bit (createBlock t p) 704 then some (cmdData t p 1) else none) = some a)
include ha

theorem createKeys_one (hb : bit (createBlock t p) 705 = false) : createKeys p c t = makeCtx p c a none t := by
  simp only [createKeys, ha, hb, Bool.not_false, if_true]

theorem createKeys_two {b : List Byte} (hb : bit (createBlock t p) 705 = true)
    (hk : sourceKey t c (fld (createBlock t p) 512 32) (fld (createBlock t p) 640 64)
      (if bit (createBlock t p) 706 then some (cmdData t p 2) else none) = some b) : createKeys p c t = makeCtx p c a (some b) t := by
  simp only [createKeys, ha, hb, hk, Bool.not_true, Bool.false_eq_true, if_false]

end

/-- The state in which a created context stands with its first key. -/
def madeCtx (p : Packet) (c : Ctx) (a : List Byte) (t : State) : State :=
  let e := firstGap (tkeys t.ctx) 0
  putMaterial e 0 a (fld (createBlock t p) 512 32) (fillEntry e c t)

section
variable {t : State} {c : Ctx} {a : List Byte} (hne : halvesEqual c a = false) (hroom : roomFor t c.owner = .here)
include hne hroom

theorem makeCtx_one (p : Packet) : makeCtx p c a none t = resumeHandle p.ctx (endCmd p.slot okRes 0 (madeCtx p c a t)) := by
  simp only [makeCtx, hne, hroom, Bool.false_eq_true, if_false, madeCtx]

theorem makeCtx_two (p : Packet) (b : List Byte) : makeCtx p c a (some b) t = resumeHandle p.ctx (endCmd p.slot okRes 0
    (putMaterial (firstGap (tkeys t.ctx) 0) 1 b (fld (createBlock t p) 512 32) (madeCtx p c a t))) := by
  simp only [makeCtx, hne, hroom, Bool.false_eq_true, if_false, madeCtx]

end

/-! ### CTX_IMPORT -/

section
variable {t : State} {p : Packet} (hstage : p.stage = 0) (hpar : parentCheck t (p.p 0) mi [.transport] = none)
  (hown : parentCheck t (p.p 3) (p.p 2) [.inst, .parent] = none)
include hstage hpar hown

theorem importCmd_closed (ho : openBlob (parentKey t (p.p 0)) (cmdData t p 0) = none) :
    importCmd p t = failCmd p.slot wrappedFail t := by
  simp [importCmd, keyParentCheck, hstage, hpar, hown, ho]

theorem importCmd_open {b : Opened} (ho : openBlob (parentKey t (p.p 0)) (cmdData t p 0) = some b) (hv : t.vault.en = true)
    (hnone : t.ctxOf p.ctx = none) (hprobe : p.probed = true) (hdepth : childDepth t (p.p 3) < 6) (hroom : roomFor t (p.p 2) = .here) :
    importCmd p t = if leAt b.hd 24 8 ≤ (t.parent (hIndex (p.p 0))).impSeq then failCmd p.slot (replayRes 1) t
      else if halvesEqual (importedCtx p b t) (importedKeys p b t) then failCmd p.slot xtsEqual t else importCtx p b t := by
  simp only [importCmd, keyParentCheck, hpar, hown, ho, hv, hnone, hprobe, hroom, Option.map_none, Option.getD_none, Bool.not_true,
    Bool.false_eq_true, if_false]
  rw [if_neg (by simp [hstage]), if_neg (Nat.not_le.mpr hdepth)]

end

theorem importCtx_one {t : State} {p : Packet} {b : Opened} (h0 : recHasKey (importedCtx p b t) b.hd b.pt 0 = true)
    (h1 : recHasKey (importedCtx p b t) b.hd b.pt 1 = false) :
    let e := firstGap (tkeys t.ctx) 0
    let c := importedCtx p b t
    importCtx p b t = startEvict p.ctx e false true
      (modPacket p.slot (fun x => { x with stage := 1, committed := true, waits := true, wants := none })
        ((putCtxKey e 0 (bytesAt b.pt 64 32) c.keySize (p.p 3) (handleGen (fillEntry e c t) (p.p 3)) (childDepth (fillEntry e c t) (p.p 3))
          c.owner (fillEntry e c t)).modParent (hIndex (p.p 0)) fun k => { k with impSeq := leAt b.hd 24 8 })) := by
  simp only [importCtx, h0, h1, if_true, Bool.false_eq_true, if_false, Nat.mul_zero, Nat.add_zero]

/-! ### CTX_REKEY -/

section
variable {u : State} {p : Packet} {e : Nat} (hex : ¬((u.ctxAt e).st = .stale ∧ (u.ctxAt e).cause = 2))
  (hbad : rekeyParamBad p (u.ctxAt e) = false)
include hex hbad

theorem rekeyEntry_plain (hf : bit p.flags 8 = true) (huse : slotInUse u e (1 - (u.ctxAt e).role) = false) : rekeyEntry p e u
    = endCmd p.slot okRes 0 (applyNumbers p e (1 - (u.ctxAt e).role) (applyAttr p e u)) := by
  simp only [rekeyEntry, hbad, hf, rekeyPlain, huse, if_true, Bool.and_false, Bool.false_eq_true, if_false]
  rw [if_neg (by simpa using hex)]

theorem rekeyEntry_keyed {m : List Byte} (hf : bit p.flags 8 = false) (hread : bit p.flags 4 = true → p.stage ≠ 0)
    (hpar : parentCheck u (p.p 0) (u.ctxAt e).owner [.inst, .parent] = none) (hdepth : childDepth u (p.p 0) < 6)
    (hm : sourceKey u (u.ctxAt e) (p.p 0) (p.p 1) (if bit p.flags 4 then some (cmdData u p 0) else none) = some m)
    (hkind : bit p.flags 3 = false → (u.ctxAt e).kind ≠ 5) : rekeyEntry p e u = rekeyInstall p e m u := by
  simp only [rekeyEntry, keyParentCheck, hbad, hf, hpar, hm, Bool.false_eq_true, if_false]
  rw [if_neg (by simpa using hex), if_neg, if_neg (Nat.not_le.mpr hdepth), if_neg]
  · simpa using hread
  · simp only [Bool.and_eq_true, decide_eq_true_eq, Bool.not_eq_true', not_and, Bool.not_eq_false]
    intro hk
    by_contra hb
    exact hkind (by simpa using hb) hk

end

section
variable {u : State} {p : Packet} {e : Nat} {m : List Byte} (hne : halvesEqual (u.ctxAt e) m = false)
include hne

theorem rekeyInstall_both (hb : bit p.flags 3 = true) (huse : entryInUse u e = false) : rekeyInstall p e m u = resumeHandle p.ctx
    (endCmd p.slot okRes 0 (applyNumbers p e (u.ctxAt e).role (installBoth p e m (applyAttr p e u)))) := by
  simp only [rekeyInstall, hne, hb, huse, if_true, Bool.false_eq_true, if_false]

theorem rekeyInstall_next (hb : bit p.flags 3 = false) (huse : slotInUse u e (1 - (u.ctxAt e).role) = false) :
    let kb := keyBytes (u.ctxAt e).keySize
    rekeyInstall p e m u = resumeHandle p.ctx (endCmd p.slot okRes 0 (applyNumbers p e (1 - (u.ctxAt e).role)
      (installNext e (m.take kb) (m.drop kb) (fld p.flags 0 2) (p.p 0) (handleGen u (p.p 0)) (childDepth u (p.p 0)) (applyAttr p e u)))) := by
  simp only [rekeyInstall, hne, hb, huse, Bool.false_eq_true, if_false]

end

/-! ### The commands -/

section
variable {s t : State} {slot : SlotId} {p : Packet}

theorem exec_ctxLoad_create (h : s.serving slot.val 0x10 (fun p => if bit p.flags 0 then [(p.p 1, 128)] else []) = some (p, t))
    (hf : bit p.flags 0 = true) : exec (.ctxLoad slot) s = .next (conclude (createCmd p t)) := by
  refine (next_serving h rfl _).trans (next_conclude ?_)
  rw [if_pos hf]

theorem exec_ctxLoad_load (h : s.serving slot.val 0x10 (fun p => if bit p.flags 0 then [(p.p 1, 128)] else []) = some (p, t))
    (hf : bit p.flags 0 = false) : exec (.ctxLoad slot) s = .next (conclude (loadCmd p t)) := by
  refine (next_serving h rfl _).trans (next_conclude ?_)
  rw [if_neg (by simp [hf])]

theorem exec_ctxEvictDelete {e : Nat} (h : s.serving slot.val 0x11 noReads = some (p, t)) (hf : bit p.flags 0 = true)
    (hstage : p.stage = 0) (he : t.ctxOf p.ctx = some e) (hst : (t.ctxAt e).st ≠ .evicting) :
    exec (.ctxEvictDelete slot) s = .next (conclude (sealCmd p e true false (goesOn p t))) := by
  refine (next_serving h hf _).trans (next_conclude ?_)
  rw [if_neg (by simp [hstage]), withCtx_resident he hst]

end

/-- Settles O50: each command by what it does on the packet that is served and the context it names. -/
theorem contextCommands : Obligations.ContextCommands := by
  unfold Obligations.ContextCommands
  refine ⟨fun s t slot p h hf hres hbad hroot hnone hprobe hchk hread a ha hne hroom => ⟨fun hb => ?createOne, fun hb b hk => ?createTwo⟩,
    fun s t slot p h hf => ⟨fun e he hst ho => ?load, fun hnone hv => ?miss⟩,
    fun s t slot p e h hstage he hst hv => ⟨fun hf => ?evict, fun hf => ?delete, fun hf hd => ?flush⟩,
    fun s t slot p e h he hst => ?pin, fun s t slot p e h hpar he hst hex huse => ?exported,
    fun s t slot p h hstage hpar hown hv hnone hprobe hdepth hroom => ?imported, fun t p b h0 h1 => importCtx_one h0 h1,
    fun s t slot p e h he hst hex hbad => ⟨fun hf huse => ?plain, fun hf hread hpar hdepth m hm hne =>
      ⟨fun hb huse => ?both, fun hb hkind huse => ?next⟩⟩⟩
  case createOne =>
    refine (exec_ctxLoad_create h hf).trans (next_conclude ?_)
    rw [createCmd_checked hres hbad hroot hnone hprobe hchk hread, createKeys_one ha hb, makeCtx_one hne hroom]
    rfl
  case createTwo =>
    refine (exec_ctxLoad_create h hf).trans (next_conclude ?_)
    rw [createCmd_checked hres hbad hroot hnone hprobe hchk hread, createKeys_two ha hb hk, makeCtx_two hne hroom]
    rfl
  case load =>
    refine (exec_ctxLoad_load h hf).trans (next_conclude ?_)
    rw [loadCmd_resident he hst ho]
    rfl
  case miss =>
    refine (exec_ctxLoad_load h hf).trans (next_conclude ?_)
    rw [loadCmd, withCtx_absent hnone hv]
    rfl
  case evict =>
    refine (next_serving h (by simpa using hf) evictCmd).trans (next_conclude ?_)
    rw [evictCmd_resident he hst hstage, sealCmd_starts hv]
    rfl
  case delete =>
    refine (exec_ctxEvictDelete h hf hstage he hst).trans (next_conclude ?_)
    rw [sealCmd_starts (by rwa [goesOn_vault])]
    rfl
  case flush =>
    refine (next_serving h (by simp [hf, hd]) flushCmd).trans (next_conclude ?_)
    rw [flushCmd_resident he hst hstage, sealCmd_starts hv]
    rfl
  case pin =>
    refine (next_serving h rfl _).trans (next_conclude ?_)
    rw [withCtx_resident he hst]
    rfl
  case exported =>
    refine (next_serving h rfl exportCmd).trans (next_conclude ?_)
    rw [exportCmd_resident he hst hpar hex huse]
    rfl
  case imported =>
    refine (next_serving h rfl importCmd).trans (next_conclude ?_)
    cases ho : openBlob (parentKey t (p.p 0)) (cmdData t p 0) with
    | none => exact importCmd_closed hstage hpar hown ho
    | some b => exact importCmd_open hstage hpar hown ho hv hnone hprobe hdepth hroom
  case plain =>
    refine (next_serving h rfl _).trans (next_conclude ?_)
    rw [withCtx_resident he hst]
    exact rekeyEntry_plain hex hbad hf huse
  case both =>
    refine (next_serving h rfl _).trans (next_conclude ?_)
    rw [withCtx_resident he hst]
    exact (rekeyEntry_keyed hex hbad hf hread hpar hdepth hm (by simp [hb])).trans (rekeyInstall_both hne hb huse)
  case next =>
    refine (next_serving h rfl _).trans (next_conclude ?_)
    rw [withCtx_resident he hst]
    exact (rekeyEntry_keyed hex hbad hf hread hpar hdepth hm fun _ => hkind).trans (rekeyInstall_next hne hb huse)

end Sys2Proof.Machine
end

section
/-! PROOFS. Key commands (R309, R311, R350 to R352, R364 to R369, R375), each on the packet that is served. -/

namespace Sys2Proof.Machine

/-! ### Installing a parent key -/

/-- Whether a packet's installation goes on: no envelope is asked for, or it is written. -/
def envSaved (p : Packet) (t : State) : Prop := (p.save = false ∨ p.stage ≠ 0) ∧ cmdWriting t p.slot = false

theorem savedThen_saved {p : Packet} {t : State} (h : envSaved p t) (under key : List Byte) (bits : Nat) (k : State → State) :
    savedThen p under key bits k t = k t := by
  obtain ⟨hsave, hw⟩ := h
  rw [savedThen, if_neg (by rcases hsave with h | h <;> simp [h]), if_neg (by simp [hw])]

section
variable {p : Packet} {t : State} {i : Nat} (hi : takeParent t p.owner = some i)
include hi

theorem installBelow_taken (under key : List Byte) (depth : Nat) :
    installBelow p under key depth t = savedThen p under key p.bits (installKey p i p.srcKey depth key) t := by
  simp only [installBelow, hi]

theorem installBelow_saved (h : envSaved p t) (under key : List Byte) (depth : Nat) :
    installBelow p under key depth t = installKey p i p.srcKey depth key t := by
  rw [installBelow_taken hi, savedThen_saved h]

end

theorem drbgStopped_running {t : State} (h : t.anv.drbg = .running) : drbgStopped t = false := by
  simp [drbgStopped, h]

theorem saveKey_wraps {p : Packet} {t u : State} (hd : t.anv.drbg = .running) (hsrc : p.srcKey ≠ 0)
    (hu : countWrap (hIndex p.srcKey) t = some u) (under key : List Byte) (bits : Nat) :
    saveKey p under key bits t = cmdWrite p.slot (p.p 4) (envMake under 2 (bits + 1) key (drawBytes u 12))
      (modPacket p.slot (fun x => { x with stage := 1 }) (drawn 12 u)) := by
  simp only [saveKey, drbgStopped_running hd, hsrc, hu, Bool.false_eq_true, if_false]

/-! ### KEY_DERIVE and KEY_UNWRAP -/

theorem deriveCmd_checked {p : Packet} {t : State} (hpar : parentCheck t p.srcKey p.owner [.inst, .parent] = none)
    (hdepth : childDepth t p.srcKey < 6) : deriveCmd p t = installBelow p (parentKey t p.srcKey)
      (kdf (parentKey t p.srcKey) 2 (natLe 8 (p.p 1)) (cmdData t p 0) (keyBytes p.bits)) (childDepth t p.srcKey) t := by
  simp only [deriveCmd, hpar]
  rw [if_neg (Nat.not_le.mpr hdepth)]

section
variable {p : Packet} {t : State} (hsrc : unwrapSource t p.srcKey p.owner = none) (hdepth : childDepth t p.srcKey < 6) {i : Nat}
  (hi : takeParent t p.owner = some i)
include hsrc hdepth hi

theorem unwrapCmd_none (ho : envOpen (parentKey t p.srcKey) 2 (p.bits + 1) (keyBytes p.bits) (cmdData t p 0) = none) :
    unwrapCmd p t = failCmd p.slot wrappedFail t := by
  simp only [unwrapCmd, hsrc, hi, ho, Option.isNone_some, Bool.false_eq_true, if_false]
  rw [if_neg (Nat.not_le.mpr hdepth)]

theorem unwrapCmd_some {key : List Byte}
    (ho : envOpen (parentKey t p.srcKey) 2 (p.bits + 1) (keyBytes p.bits) (cmdData t p 0) = some key) :
    unwrapCmd p t = installBelow p (parentKey t p.srcKey) key (childDepth t p.srcKey) t := by
  simp only [unwrapCmd, hsrc, hi, ho, Option.isNone_some, Bool.false_eq_true, if_false]
  rw [if_neg (Nat.not_le.mpr hdepth)]

end

/-- The secret under which KEY_UNWRAP with KEM opens its envelope. -/
def kemSecret (p : Packet) (t : State) : List Byte := kemDecaps kem768 (provPair t).2 ((cmdData t p 0).take 1088)

section
variable {p : Packet} {t : State} {i : Nat} (hf : bit p.flags 2 = false) (hi : takeParent t p.owner = some i)
include hf hi

theorem kemCmd_none (ho : envOpen (kemSecret p t) 2 (p.bits + 1) (keyBytes p.bits) ((cmdData t p 0).drop 1088) = none) :
    kemCmd p t = failCmd p.slot wrappedFail t := by
  unfold kemSecret at ho
  simp only [kemCmd, hf, hi, ho, Option.isNone_some, Bool.and_false, Bool.false_eq_true, if_false]

theorem kemCmd_some {key : List Byte}
    (ho : envOpen (kemSecret p t) 2 (p.bits + 1) (keyBytes p.bits) ((cmdData t p 0).drop 1088) = some key) :
    kemCmd p t = installBelow p (kemSecret p t) key 2 t := by
  unfold kemSecret at ho ⊢
  simp only [kemCmd, hf, hi, ho, Option.isNone_some, Bool.and_false, Bool.not_false, Bool.false_eq_true, if_false, if_true]

end

section
variable {p : Packet} {t : State} (hf : bit p.flags 2 = true)
include hf

theorem kemCmd_att_none (ho : envOpen (kemSecret p t) 5 (p.bits + 1) (keyBytes p.bits) ((cmdData t p 0).drop 1088) = none) :
    kemCmd p t = failCmd p.slot wrappedFail t := by
  unfold kemSecret at ho
  simp only [kemCmd, hf, ho, Bool.not_true, Bool.false_and, Bool.false_eq_true, if_false, if_true]

theorem kemCmd_att_some (hd : t.anv.drbg = .running) {key : List Byte}
    (ho : envOpen (kemSecret p t) 5 (p.bits + 1) (keyBytes p.bits) ((cmdData t p 0).drop 1088) = some key) :
    kemCmd p t = endCmd p.slot okRes 0 (putSecret (fld (p.p 0) 40 3) p.bits key t) := by
  unfold kemSecret at ho
  simp only [kemCmd, hf, ho, drbgStopped_running hd, Bool.not_true, Bool.false_and, Bool.false_eq_true, if_false, if_true]

end

/-! ### RESTORE -/

section
variable {p : Packet} {t : State} (htgt : restoreTarget t (p.p 2) = none) (hsrc : restoreSource t p.srcKey (p.p 2) = none)
include htgt hsrc

theorem restoreCmd_checked : restoreCmd p t = restoreOpen p t := by
  simp only [restoreCmd, htgt, hsrc]

end

theorem restoreOpen_reads {p : Packet} {t : State} (hr : p.reads = []) :
    restoreOpen p t = cmdRead p.slot 0 (p.p 1) (44 + keyBytes (t.parent (hIndex (p.p 2))).bits) t := by
  simp only [restoreOpen, hr, List.isEmpty_nil, if_true]

section
variable {p : Packet} {t : State} (hr : p.reads ≠ [])
include hr

theorem restoreOpen_none (ho : envOpen (parentKey t p.srcKey) 2 ((t.parent (hIndex (p.p 2))).bits + 1)
    (keyBytes (t.parent (hIndex (p.p 2))).bits) (cmdData t p 0) = none) : restoreOpen p t = failCmd p.slot wrappedFail t := by
  simp only [restoreOpen, ho]
  rw [if_neg (by simpa using hr)]

theorem restoreOpen_some (hsaved : envSaved p t) {key : List Byte} (ho : envOpen (parentKey t p.srcKey) 2
    ((t.parent (hIndex (p.p 2))).bits + 1) (keyBytes (t.parent (hIndex (p.p 2))).bits) (cmdData t p 0) = some key) :
    restoreOpen p t = if keyPrint key = (tget t.ldg.slotTab {} (hIndex (p.p 2))).fpr then restoreKey p key t
      else failCmd p.slot wrappedFail t := by
  simp only [restoreOpen, ho, savedThen_saved hsaved, bne_iff_ne, ne_eq, ite_not]
  rw [if_neg (by simpa using hr)]

end

/-! ### KEY_INVALIDATE -/

theorem invalidateCmd_checked {p : Packet} {t : State} (h : invalidateCheck t (p.p 0) (bit p.flags 0) = none) :
    invalidateCmd p t = endCmd p.slot okRes 0 (if bit p.flags 0 then destroyKey (hIndex (p.p 0)) (invalidateUnder [hIndex (p.p 0)] t)
      else invalidateUnder [hIndex (p.p 0)] t) := by
  simp only [invalidateCmd, h]

/-! ### HMAC_SLOT_LOAD -/

/-- The state in which an HMAC slot is closed to admission for a packet. -/
def hmacClosed (p : Packet) (t : State) : State :=
  modPacket p.slot (fun x => { x with stage := 1 }) (t.modHslot (fld (p.p 0) 0 12) fun h => { h with pending := true })

/-- What HMAC_SLOT_LOAD does: one that reads no memory goes on at once. -/
def hmacRun (p : Packet) (t : State) : State :=
  match livePacket (hmacCmd p t) p.slot p.opc with
  | some q => if p.stage = 0 && q.reads.isEmpty then hmacGo q (hmacCmd p t) else hmacCmd p t
  | none => hmacCmd p t

theorem exec_hmacSlotLoad {s t : State} {slot : SlotId} {p : Packet} (h : s.serving slot.val 0x28 noReads = some (p, t)) :
    exec (.hmacSlotLoad slot) s = .next (conclude (hmacRun p t)) :=
  (next_serving h rfl _).trans (next_conclude rfl)

/-- A packet that still runs after a read of its own has started holds that read. -/
theorem livePacket_cmdRead_reads {slot k addr len opc : Nat} {s : State} {q : Packet}
    (h : livePacket (cmdRead slot k addr len s) slot opc = some q) : q.reads ≠ [] := by
  have hp := List.find?_some h
  obtain ⟨x, -, rfl⟩ := List.mem_map.mp (List.mem_of_find?_eq_some h)
  by_cases hx : (decide (x.slot = slot) && x.res.isNone) = true
  · simp [hx]
  · rw [if_neg hx] at hp
    simp only [Bool.and_eq_true, decide_eq_true_eq] at hp hx
    exact absurd ⟨hp.1.1, hp.2⟩ hx

section
variable {p : Packet} {t : State}

theorem hmacRun_later (hstage : p.stage ≠ 0) : hmacRun p t = hmacGo p t := by
  have hc : hmacCmd p t = hmacGo p t := by rw [hmacCmd, if_pos (by simpa using hstage)]
  unfold hmacRun
  split
  · rw [if_neg (by simp [hstage]), hc]
  · exact hc

variable (hstage : p.stage = 0)
include hstage

theorem hmacRun_reads {x : Nat × Nat} (hx : hmacReads p = [x]) : hmacRun p t = cmdRead p.slot 0 x.1 x.2 (hmacClosed p t) := by
  have hc : hmacCmd p t = cmdRead p.slot 0 x.1 x.2 (hmacClosed p t) := by
    rw [hmacCmd, if_neg (by simp [hstage]), hx]
    rfl
  unfold hmacRun
  split
  · next q hq =>
    rw [hc] at hq
    rw [if_neg (by simp [livePacket_cmdRead_reads hq]), hc]
  · exact hc

theorem hmacRun_atOnce {q : Packet} (hx : hmacReads p = []) (hq : livePacket (hmacClosed p t) p.slot p.opc = some q) (hr : q.reads = []) :
    hmacRun p t = hmacGo q (hmacClosed p t) := by
  have hc : hmacCmd p t = hmacClosed p t := by
    rw [hmacCmd, if_neg (by simp [hstage]), hx]
    rfl
  simp only [hmacRun, hc, hq]
  rw [if_pos (by simp [hstage, hr])]

end

theorem hmacGo_clears {q : Packet} {u : State} (hf : bit q.flags 0 = true) (huse : hslotInUse u (fld (q.p 0) 0 12) = false) :
    hmacGo q u = endCmd q.slot okRes 0 (u.modHslot (fld (q.p 0) 0 12) fun h => { gen := (h.gen + 1) % 256 }) := by
  rw [hmacGo, if_pos hf, hmacClear]
  exact if_neg (by simp [huse])

section
variable {p : Packet} {t : State} (hf : bit p.flags 0 = false)
  (hpar : parentCheck t (p.p 1) (fld (p.p 0) 16 8) [.inst, .parent] = none) (hdepth : childDepth t (p.p 1) < 6)
include hf hpar hdepth

theorem hmacGo_none (hk : hmacKey p t = none) : hmacGo p t = failCmd p.slot wrappedFail t := by
  simp only [hmacGo, hf, hpar, hk, Bool.false_eq_true, if_false]
  rw [if_neg (Nat.not_le.mpr hdepth)]

theorem hmacGo_some {key : List Byte} (hd : t.anv.drbg = .running) (huse : hslotInUse t (fld (p.p 0) 0 12) = false)
    (hk : hmacKey p t = some key) : hmacGo p t = hmacFill p key t := by
  simp only [hmacGo, hf, hpar, hk, drbgStopped_running hd, huse, Bool.false_eq_true, if_false]
  rw [if_neg (Nat.not_le.mpr hdepth)]

end

namespace KeyCmds

/-- Settles O51: each command by what it does on the packet that is served and the key it names. -/
theorem keyCommands : Obligations.KeyCommands := by
  unfold Obligations.KeyCommands
  refine ⟨fun s t slot p i h hpar hdepth hi => ⟨fun hsaved => ?derive, fun hsave hstage hd hsrc u hu => ?save⟩,
    fun s t slot p i h h1 h3 hsrc hdepth hi hsaved => ?unwrap,
    fun s t slot p h h1 h3 => ⟨fun i hf hi hsaved => ?kem, fun hf hd => ?secret⟩,
    fun s t slot p h hf htgt hsrc => ⟨fun hr => ?restoreRead, fun hr hsaved => ?restore⟩,
    fun s t slot p h hchk => ?invalidate,
    fun s t slot p h => ⟨fun hstage x hx => ?hmacRead, fun hstage hx q hq hr hf huse => ?hmacClear,
      fun hstage hf hpar hdepth hd huse => ?hmacFill⟩,
    fun h st mask => rfl⟩
  case derive =>
    refine (next_serving h rfl deriveCmd).trans (next_conclude ?_)
    rw [deriveCmd_checked hpar hdepth, installBelow_saved hi hsaved]
    rfl
  case save =>
    refine (next_serving h rfl deriveCmd).trans (next_conclude ?_)
    rw [deriveCmd_checked hpar hdepth, installBelow_taken hi, savedThen, if_pos (by simp [hsave, hstage]), saveKey_wraps hd hsrc hu]
  case unwrap =>
    refine (next_serving h (by simp [h1, h3]) unwrapCmd).trans (next_conclude ?_)
    cases ho : envOpen (parentKey t p.srcKey) 2 (p.bits + 1) (keyBytes p.bits) (cmdData t p 0) with
    | none => exact unwrapCmd_none hsrc hdepth hi ho
    | some key => exact (unwrapCmd_some hsrc hdepth hi ho).trans (installBelow_saved hi hsaved _ _ _)
  case kem =>
    refine (next_serving h (by simp [h1, h3]) kemCmd).trans (next_conclude ?_)
    change kemCmd p t = match envOpen (kemSecret p t) 2 (p.bits + 1) (keyBytes p.bits) ((cmdData t p 0).drop 1088) with
      | none => failCmd p.slot wrappedFail t
      | some key => installKey p i p.srcKey 2 key t
    cases ho : envOpen (kemSecret p t) 2 (p.bits + 1) (keyBytes p.bits) ((cmdData t p 0).drop 1088) with
    | none => exact kemCmd_none hf hi ho
    | some key => exact (kemCmd_some hf hi ho).trans (installBelow_saved hi hsaved _ _ _)
  case secret =>
    refine (next_serving h (by simp [h1, h3]) kemCmd).trans (next_conclude ?_)
    change kemCmd p t = match envOpen (kemSecret p t) 5 (p.bits + 1) (keyBytes p.bits) ((cmdData t p 0).drop 1088) with
      | none => failCmd p.slot wrappedFail t
      | some key => endCmd p.slot okRes 0 (putSecret (fld (p.p 0) 40 3) p.bits key t)
    cases ho : envOpen (kemSecret p t) 5 (p.bits + 1) (keyBytes p.bits) ((cmdData t p 0).drop 1088) with
    | none => exact kemCmd_att_none hf ho
    | some key => exact kemCmd_att_some hf hd ho
  case restoreRead =>
    refine (next_serving h hf restoreCmd).trans (next_conclude ?_)
    rw [restoreCmd_checked htgt hsrc, restoreOpen_reads hr]
  case restore =>
    refine (next_serving h hf restoreCmd).trans (next_conclude ?_)
    rw [restoreCmd_checked htgt hsrc]
    cases ho : envOpen (parentKey t p.srcKey) 2 ((t.parent (hIndex (p.p 2))).bits + 1) (keyBytes (t.parent (hIndex (p.p 2))).bits)
      (cmdData t p 0) with
    | none => exact restoreOpen_none hr ho
    | some key => exact restoreOpen_some hr hsaved ho
  case invalidate =>
    exact (next_serving h rfl invalidateCmd).trans (next_conclude (invalidateCmd_checked hchk))
  case hmacRead => exact (exec_hmacSlotLoad h).trans (next_conclude (hmacRun_reads hstage hx))
  case hmacClear =>
    refine (exec_hmacSlotLoad h).trans (next_conclude ?_)
    exact (hmacRun_atOnce hstage hx hq hr).trans (hmacGo_clears hf huse)
  case hmacFill =>
    refine (exec_hmacSlotLoad h).trans (next_conclude ?_)
    rw [hmacRun_later hstage]
    cases hk : hmacKey p t with
    | none => exact hmacGo_none hf hpar hdepth hk
    | some key => exact hmacGo_some hf hpar hdepth hd huse hk

end KeyCmds

end Sys2Proof.Machine
end

section
/-! PROOFS. Attestation commands (R368, R371, R373, R374), each on the packet that is served. -/

namespace Sys2Proof.Machine

theorem putReport_eq (p : Packet) (r : List Byte) (k : State → State) (t : State) : putReport p r k t =
    if fld (p.p 4) 0 16 < r.length then failCmd p.slot (res 4 0x11) t else k (cmdWrite p.slot (p.p 2) r t) := rfl

/-! ### PLAIN and OFFER -/

theorem plainCmd_fits {p : Packet} {t : State} (hsec : (attestSecret t p.verifier).isSome = true)
    (hlen : (report t p.verifier 0 (cmdData t p 0) []).length ≤ fld (p.p 4) 0 16) : plainCmd p t =
      endCmd p.slot (okRes (report t p.verifier 0 (cmdData t p 0) []).length) 0
        (cmdWrite p.slot (p.p 2) (report t p.verifier 0 (cmdData t p 0) []) t) := by
  unfold plainCmd
  rw [if_neg (by simpa [Option.isSome_iff_ne_none] using hsec), putReport_eq, if_neg (Nat.not_lt.mpr hlen)]

theorem offerCmd_reports {p : Packet} {t : State} (hstage : p.stage = 0) (hsec : (attestSecret t p.verifier).isSome = true)
    (hd : t.anv.drbg = .running) (hslot : (takeParent t mi).isSome = true) :
    let seed := drawBytes t 32
    let r := report t p.verifier 1 (cmdData t p 0) (offerPublic seed)
    offerCmd p t = putReport p r (modPacket p.slot fun x => { x with stage := 1, aux := r.length, keep := seed ++ sha384 r })
      (drawn 32 t) := by
  unfold offerCmd
  rw [if_neg (by simp [hstage]), if_neg (by simpa [Option.isSome_iff_ne_none] using hsec), if_neg (by simp [drbgStopped_running hd]),
    if_neg (by simpa [Option.isSome_iff_ne_none] using hslot)]

section
variable {p : Packet} {t : State} {i : Nat} (hstage : p.stage ≠ 0) (hw : cmdWriting t p.slot = false) (hi : takeParent t mi = some i)
include hstage hw hi

theorem offerCmd_places : offerCmd p t
    = endCmd p.slot (okRes p.aux) 0 (recordSlot i (putOffer i (p.keep.take 32) (p.keep.drop 32) t)) := by
  simp only [offerCmd, hw, hi, Bool.false_eq_true, if_false]
  rw [if_pos (by simpa using hstage)]

theorem respondCmd_installs : respondCmd p t =
    let u := recordSlot i (installParent i (transportSlot p.keep) t)
    endCmd p.slot (okRes p.aux) (parentHandle u i) u := by
  simp only [respondCmd, hw, hi, Bool.false_eq_true, if_false]
  rw [if_pos (by simpa using hstage)]

end

/-! ### RESPOND and FINISH -/

section
variable {p : Packet} {t : State} {k : List Byte} (hstage : p.stage = 0) (hk : attestSecret t p.verifier = some k)
include hstage hk

theorem respondCmd_bad {r : Res} (hr : peerCheck k (cmdData t p 1) 1 1216 (cmdData t p 0) = some r) :
    respondCmd p t = failCmd p.slot r t := by
  simp only [respondCmd, hk, hr]
  rw [if_neg (by simp [hstage])]

theorem respondCmd_good (hd : t.anv.drbg = .running) (hslot : (takeParent t mi).isSome = true)
    (hr : peerCheck k (cmdData t p 1) 1 1216 (cmdData t p 0) = none) : respondCmd p t = respondKeys p (cmdData t p 1) t := by
  simp only [respondCmd, hk, hr, drbgStopped_running hd, Bool.false_eq_true, if_false]
  rw [if_neg (by simp [hstage]), if_neg (by simpa [Option.isSome_iff_ne_none] using hslot)]

end

section
variable {p : Packet} {t : State} {k : List Byte} (ho : offerCheck t (p.p 1) = none) (hk : attestSecret t p.verifier = some k)
include ho hk

theorem finishCmd_bad {r : Res} (hr : peerCheck k (cmdData t p 0) 2 1120 ((t.parent (hIndex (p.p 1))).offer.take 32) = some r) :
    finishCmd p t = finishFails p (hIndex (p.p 1)) r t := by
  simp only [finishCmd, ho, hk, hr]

theorem finishCmd_good (hr : peerCheck k (cmdData t p 0) 2 1120 ((t.parent (hIndex (p.p 1))).offer.take 32) = none) :
    finishCmd p t = finishKeys p (hIndex (p.p 1)) (cmdData t p 0) t := by
  simp only [finishCmd, ho, hk, hr]

end

/-- Settles O52: each mode by its report on the packet that is served, then by the slot it fills. -/
theorem attestCommands : Obligations.AttestCommands := by
  unfold Obligations.AttestCommands
  refine ⟨fun s t slot p h => ⟨fun hm hsec hlen => ?plain, fun hm => ?prov, fun hm hstage hsec hd hslot => ?offer,
      fun hm hstage hw i hi => ?place⟩,
    fun s t slot p h hm => ⟨fun k hstage hk hd hslot => ?respond, fun i hstage hw hi => ?install⟩,
    fun s t slot p k h hm ho hk => ?finish⟩
  case plain => exact (next_serving h hm plainCmd).trans (next_conclude (plainCmd_fits hsec hlen))
  case prov => exact (next_serving h hm provCmd).trans (next_conclude (putReport_eq p _ _ t))
  case offer =>
    refine (next_serving h hm offerCmd).trans (next_conclude ?_)
    rw [offerCmd_reports hstage hsec hd hslot, putReport_eq]
  case place =>
    refine (next_serving h hm offerCmd).trans (next_conclude ?_)
    rw [offerCmd_places hstage hw hi, putOffer]
  case respond =>
    refine (next_serving h hm respondCmd).trans (next_conclude ?_)
    cases hr : peerCheck k (cmdData t p 1) 1 1216 (cmdData t p 0) with
    | some r => exact respondCmd_bad hstage hk hr
    | none =>
      rw [respondCmd_good hstage hk hd hslot hr]
      rfl
  case install =>
    refine (next_serving h hm respondCmd).trans (next_conclude ?_)
    rw [respondCmd_installs hstage hw hi, transportSlot]
  case finish =>
    refine (next_serving h hm finishCmd).trans (next_conclude ?_)
    cases hr : peerCheck k (cmdData t p 0) 2 1120 ((t.parent (hIndex (p.p 1))).offer.take 32) with
    | some r => exact finishCmd_bad ho hk hr
    | none =>
      rw [finishCmd_good ho hk hr]
      rfl

end Sys2Proof.Machine
end

section
/-! PROOFS. Ledger and image commands (R239, R317, R319, R448, R449, R471 to R474, R476, R477), each on the packet that is served. -/

namespace Sys2Proof.Machine

/-! ### The configuration -/

section
variable {p : Packet} {t : State} (hok : tamperOk (cmdData t p 0) = true) (hlock : t.tam.locked = false)
include hok hlock

theorem tamperCmd_applies (hf : bit p.flags 1 = false) : tamperCmd p t = endCmd p.slot okRes 0
    ((applyTamper (cmdData t p 0) t).modTam fun x => { x with locked := x.locked || bit p.flags 0 }) := by
  simp only [tamperCmd, hok, hlock, hf, Bool.not_true, Bool.false_and, Bool.or_self, Bool.false_eq_true, if_false]

theorem tamperCmd_writes (hf : bit p.flags 1 = true) (hroom : ledgerFull t (mergedBody t 2 (cmdData t p 0)) = false) :
    tamperCmd p t = writeConfig p.slot (mergedBody t 2 (cmdData t p 0))
      ((applyTamper (cmdData t p 0) t).modTam fun x => { x with locked := x.locked || bit p.flags 0 }) := by
  simp only [tamperCmd, hok, hlock, hf, hroom, Bool.not_true, Bool.and_false, Bool.or_self, Bool.false_eq_true, if_false, if_true]

end

section
variable {p : Packet} {t : State} (hok : calibOk (cmdData t p 0) = true)
include hok

theorem calibrateCmd_applies (hf : bit p.flags 0 = false) :
    calibrateCmd p t = endCmd p.slot okRes 0 (applyCalib (cmdData t p 0) t) := by
  simp only [calibrateCmd, hok, hf, Bool.not_true, Bool.false_and, Bool.false_eq_true, if_false]

theorem calibrateCmd_writes (hf : bit p.flags 0 = true)
    (hroom : ledgerFull t (mergedBody t 3 (mergedCalib t (cmdData t p 0))) = false) : calibrateCmd p t
      = writeConfig p.slot (mergedBody t 3 (mergedCalib t (cmdData t p 0))) (applyCalib (cmdData t p 0) t) := by
  simp only [calibrateCmd, hok, hf, hroom, Bool.not_true, Bool.and_false, Bool.false_eq_true, if_false, if_true]

end

theorem configCmd_writes {p : Packet} {t : State} (hr : p.reads ≠ []) (hhd : headerOk (cmdData t p 0) = true)
    (hcrc : leAt (cmdData t p 0) 32 4 = copyCrc (cmdData t p 0) 0) (hrec : (goodRecords (cmdData t p 0)).isSome = true)
    (hres : headerReserved (cmdData t p 0) = false) (hseq : t.ldg.seq < 0xFFFFFFFF) :
    configCmd p t = writeConfig p.slot ((cmdData t p 0).drop 64) t := by
  unfold configCmd
  dsimp only
  rw [if_neg, if_neg (by simp [hres]), if_neg (Nat.not_le.mpr hseq)]
  simpa [hr, hhd, hcrc] using Option.isSome_iff_ne_none.mp hrec

theorem writeConfig_readBack {t : State} (h : readBack t = true) (slot : Nat) (body : List Byte) : writeConfig slot body t
    = endCmd slot (okRes (t.ldg.seq + 1)) 0
      (putInactive (makeCopy t (t.ldg.seq + 1) body) (eraseFor (makeCopy t (t.ldg.seq + 1) body).length (drawn 1 t))) := by
  simp only [writeConfig, h, if_true]

theorem rotateCmd_rotates {p : Packet} {t : State} (h : t.ldg.reseal = false) :
    let g := (t.ldg.vkeyGen + 1) % 2 ^ 32
    rotateCmd p t = endCmd p.slot (okRes g) 0 (logEvent 6 6 (g * 2 ^ 32)
      (deriveVault ((t.modLdg fun l => { l with vkeyGen := g, cursor := 0, reseal := true }).modVault fun v =>
        { v with sweep := 0, resealRids := none }))) := by
  simp only [rotateCmd, h, Bool.false_eq_true, if_false]

/-! ### The images -/

theorem stageCmd_checked {p : Packet} {t : State} (hr : p.reads ≠ []) (hshape : imageShapeOk (cmdData t p 0) = true)
    (hpad : leAt (cmdData t p 0) 9 3 = 0) (hzero : allZero (bytesAt (cmdData t p 0) 3469 115) = true) :
    let img := cmdData t p 0
    let k := leAt img 0 2 - 1
    let digest := sha384 (img.drop 3584)
    let u := putMeas 3 digest t
    stageCmd p t = if imageSigned img then
        if digest == bytesAt img 16 48 then
          if minSvn u k ≤ leAt img 8 1 then stageImage p img digest u else failCmd p.slot modeBad u
        else failCmd p.slot signatureBad u
      else failCmd p.slot signatureBad t := by
  unfold stageCmd
  dsimp only
  rw [if_neg (by simp [hr, hshape]), if_neg (by simp [hpad, hzero])]
  have hsvn (n : Nat) (d : List Byte) : minSvn (putMeas 3 d t) n = minSvn t n := rfl
  rw [hsvn]
  cases imageSigned (cmdData t p 0) with
  | false => simp
  | true =>
    rw [if_neg (by simp), if_pos rfl, bne]
    cases sha384 ((cmdData t p 0).drop 3584) == bytesAt (cmdData t p 0) 16 48 with
    | false => simp
    | true =>
      rw [if_neg (by simp), if_pos rfl]
      by_cases hn : minSvn t (leAt (cmdData t p 0) 0 2 - 1) ≤ leAt (cmdData t p 0) 8 1
      · rw [if_neg (Nat.not_lt.mpr hn), if_pos hn]
      · rw [if_pos (Nat.not_le.mp hn), if_neg hn]

section
variable {p : Packet} {t : State} {back : Bool} (raise : Bool) (hstage : p.stage = 0) (hflip : canFlip t (b2n (bit p.flags 0)) back = true)
include hstage hflip

theorem activateImage_yuham (hf : bit p.flags 0 = false) : activateImage p back raise t
    = restartYuham ((commitPacket p.slot (flipImage 0 t)).modOry fun o => { o with commit := some (p.slot, raise) }) := by
  have hk : b2n (bit p.flags 0) = 0 := by rw [hf]; rfl
  rw [hk] at hflip
  simp only [activateImage, hk, hflip, Bool.not_true, Bool.false_eq_true, if_false, if_true]
  rw [if_neg (by simp [hstage])]

theorem activateImage_microcode (hf : bit p.flags 0 = true) (hspare : (freeSpare t).isSome = true) : activateImage p back raise t
    = (commitPacket p.slot (flipImage 1 t)).modFab fun b =>
      { b with rotation := some { version := (spareImage t 1).version, raise := raise, svn := (spareImage t 1).svn, slot := p.slot } } := by
  have hk : b2n (bit p.flags 0) = 1 := by rw [hf]; rfl
  rw [hk] at hflip
  simp only [activateImage, hk, hflip, Bool.not_true, Bool.false_eq_true, Nat.one_ne_zero, if_false]
  rw [if_neg (by simp [hstage]), if_neg (by simpa [Option.isSome_iff_ne_none] using hspare)]

end

/-- The activation of an image by its command: IMAGE_ROLLBACK where `back` says so, else IMAGE_COMMIT. -/
theorem exec_activateImage {s t : State} {slot : SlotId} {p : Packet} {back : Bool}
    (h : s.serving slot.val (if back then 0x3A else 0x39) noReads = some (p, t)) :
    exec (if back then .imageRollback slot else .imageCommit slot) s
      = .next (conclude (activateImage p back (!back && bit p.flags 1) t)) := by
  cases back with
  | false => exact next_serving h rfl _
  | true => exact next_serving h rfl _

/-- Settles O53: each command by what it does on the packet that is served. -/
theorem ledgerCommands : Obligations.LedgerCommands := by
  unfold Obligations.LedgerCommands
  refine ⟨fun s t slot p h hok hlock => ⟨fun hf => ?tamper, fun hf hroom => ?tamperWrite⟩,
    fun s t slot p h hok => ⟨fun hf => ?calib, fun hf hroom => ?calibWrite⟩,
    fun s t slot p h hi hr hhd hcrc hrec hres hseq => ?config,
    fun slot body t h => writeConfig_readBack h slot body,
    fun s t slot p h => ⟨fun hi => ?checkpoint, fun hi hre => ?rotate⟩,
    fun s t slot p h hr hshape hpad hzero => ?stage,
    fun s t slot p back h hstage hflip => ⟨fun hf => ?yuham, fun hf hspare => ?microcode⟩⟩
  case tamper => exact (next_serving h rfl tamperCmd).trans (next_conclude (tamperCmd_applies hok hlock hf))
  case tamperWrite => exact (next_serving h rfl tamperCmd).trans (next_conclude (tamperCmd_writes hok hlock hf hroom))
  case calib => exact (next_serving h rfl calibrateCmd).trans (next_conclude (calibrateCmd_applies hok hf))
  case calibWrite => exact (next_serving h rfl calibrateCmd).trans (next_conclude (calibrateCmd_writes hok hf hroom))
  case config =>
    exact (next_serving h hi configCmd).trans (next_conclude (configCmd_writes hr hhd hcrc hrec hres hseq))
  case checkpoint => exact next_serving h hi _
  case rotate => exact (next_serving h hi rotateCmd).trans (next_conclude (rotateCmd_rotates hre))
  case stage =>
    refine (congrArg (fun x => Host.Outcome.next (beginStage (livePacket s slot.val 0x38).isNone x))
      (runCmd_serving h rfl stageCmd)).trans ?_
    rw [stageCmd_checked hr hshape hpad hzero]
    rfl
  case yuham =>
    exact (exec_activateImage h).trans (next_conclude (activateImage_yuham _ hstage hflip hf))
  case microcode =>
    exact (exec_activateImage h).trans (next_conclude (activateImage_microcode _ hstage hflip hf hspare))

end Sys2Proof.Machine
end

section
/-! PROOFS. Forge, dirty log, clock, fence and log commands (R225, R226, R425, R426, R479 to R481), each on the packet that is served,
and the start of a packet (R460, R461). -/

namespace Sys2Proof.Machine

/-! ### FORGE_RETIRE and FORGE_RESTORE -/

section
variable {p : Packet} {t : State} (hstage : p.stage = 0)
include hstage

theorem retireCmd_active (hst : (t.forge (p.p 0)).st = .active) (hfail : (t.forge (p.p 0)).failing = false)
    (hlast : lastForge t (p.p 0) = false) : retireCmd p t = startRetire (p.p 0) (awaitForge p (p.p 0) t) := by
  simp [retireCmd, hstage, hst, hfail, hlast]

theorem retireCmd_gated (hst : (t.forge (p.p 0)).st = .gated) :
    retireCmd p t = wakeForge (t.forge (p.p 0)).logical (awaitForge p (p.p 0) t) := by
  simp [retireCmd, hstage, hst]

theorem restoreForge_restores (hst : (t.forge (p.p 0)).st = .retired ∨ (t.forge (p.p 0)).st = .failed) :
    restoreForge p t = startRestore (p.p 0) (awaitForge p (p.p 0) t) := by
  rcases hst with hst | hst
  · simp [restoreForge, hstage, hst]
  · simp [restoreForge, hstage, hst]

theorem restoreForge_retiring (hst : (t.forge (p.p 0)).st = .retiring) :
    restoreForge p t = (awaitForge p (p.p 0) t).modForge (p.p 0) fun f => { f with pend := true } := by
  simp [restoreForge, hstage, hst]

theorem restoreForge_active (hst : (t.forge (p.p 0)).st = .active) : restoreForge p t = endCmd p.slot okRes 0 t := by
  simp [restoreForge, hstage, hst]

end

/-! ### DIRTY_SWAP, CLOCK_SET, FENCE and LOG_READ -/

section
variable {p : Packet} {t : State} (hfault : (t.inst (p.p 0)).dlFault = false)
include hfault

theorem swapCmd_swaps (hstage : p.stage = 0) (hst : (t.inst (p.p 0)).st ≠ .unused) (hen : (t.inst (p.p 0)).dlEn = true) :
    swapCmd p t = modPacket p.slot (fun x => { x with stage := 1, committed := true, waits := true, marks := swapMarks t (p.p 0),
                                                      aux := b2n (t.inst (p.p 0)).dlActive })
      (t.modInst (p.p 0) fun x => { x with dlActive := !x.dlActive, dlSet := [] }) := by
  simp only [swapCmd, hfault, hstage, hen, if_true, Bool.not_true, Bool.false_and, Bool.or_false, Bool.false_eq_true, if_false]
  rw [if_neg (by simpa using hst)]

theorem swapCmd_ends (hstage : p.stage ≠ 0) (hm : marksOut t p.marks = false) : swapCmd p t = endCmd p.slot (okRes p.aux) 0 t := by
  simp only [swapCmd, hfault, hm, if_neg hstage, Bool.false_eq_true, if_false]

end

theorem clockCmd_cal {p : Packet} {t : State} (hf : bit p.flags 0 = true) :
    let u := setCalendar (p.p 0 * 1000000000 + p.p 1) t
    clockCmd p t = endCmd p.slot okRes 0 (calCheckpoint (if bit p.flags 1 then u.modTime fun c => { c with leap := some (p.p 0) } else u)) := by
  simp only [clockCmd, hf, if_true]

theorem clockCmd_step {p : Packet} {t : State} (hf : bit p.flags 0 = false) : clockCmd p t
    = endCmd p.slot okRes 0 (calCheckpoint (if bit p.flags 1 then t.modTime fun c => { c with leap := some (p.p 0) } else t)) := by
  simp only [clockCmd, hf, Bool.false_eq_true, if_false]

theorem fenceFlush_eq (u : State) : fenceFlush u = checkpoint (if u.ory.evtBuf = [] ∧ u.ory.evtLost = 0 then u else drainEvents u) := by
  simp [fenceFlush]

/-- The state in which a FENCE waits for what was issued before it. -/
def fenced (p : Packet) (t : State) : State :=
  modPacket p.slot (fun x => { x with stage := 1, waits := true, marks := fenceMarks t (p.p 0) }) t

theorem fenceCmd_first {p : Packet} {t : State} (hstage : p.stage = 0) :
    let v := fenceFlush (fenced p t)
    fenceCmd p t = if marksOut (fenced p t) (fenceMarks t (p.p 0)) then fenced p t
      else endCmd p.slot (okRes v.ldg.nextSeq) 0 (logEvent 8 0 (p.p 0) v) := by
  unfold fenceCmd
  dsimp only
  rw [if_pos hstage, if_pos hstage]
  rfl

theorem logReadCmd_ends {p : Packet} {t : State} {a b : LogEnt} (ha : t.ldg.log.head? = some a) (hb : t.ldg.log.getLast? = some b) :
    let out := (t.ldg.log.filter fun e => p.p 0 ≤ e.seq).take (p.p 2)
    logReadCmd p t = endCmd p.slot (okRes out.length) (a.seq + b.seq * 2 ^ 32) (cmdWrite p.slot (p.p 1) (out.flatMap logBytes) t) := by
  have hne : t.ldg.log.isEmpty = false := by
    cases hl : t.ldg.log with
    | nil => simp [hl] at ha
    | cons x l => rfl
  simp only [logReadCmd, ha, hb, hne, Bool.false_eq_true, if_false]

/-- Settles O54: each command by what it does on the packet that is served. -/
theorem upkeepCommands : Obligations.UpkeepCommands := by
  unfold Obligations.UpkeepCommands
  refine ⟨fun s t slot p h hstage => ⟨fun hst hfail hlast => ?retire, fun hst => ?gated⟩,
    fun s t slot p h hstage => ⟨fun hst => ?restore, fun hst => ?retiring, fun hst => ?active⟩,
    fun s t slot p h => ⟨fun hstage hst hen hfault => ?swap, fun hstage hfault hm => ?swapped⟩,
    fun s t slot p h => ⟨fun hf => ?cal, fun hf => ?step⟩,
    fun s t slot p h hstage => ⟨fun hm => ?fence, fun hm => ?fenceEnds⟩,
    fun s t slot p a b h ha hb => ?log⟩
  case retire => exact (next_serving h rfl retireCmd).trans (next_conclude (retireCmd_active hstage hst hfail hlast))
  case gated => exact (next_serving h rfl retireCmd).trans (next_conclude (retireCmd_gated hstage hst))
  case restore => exact (next_serving h rfl restoreForge).trans (next_conclude (restoreForge_restores hstage hst))
  case retiring => exact (next_serving h rfl restoreForge).trans (next_conclude (restoreForge_retiring hstage hst))
  case active => exact (next_serving h rfl restoreForge).trans (next_conclude (restoreForge_active hstage hst))
  case swap => exact (next_serving h rfl swapCmd).trans (next_conclude (swapCmd_swaps hfault hstage hst hen))
  case swapped => exact (next_serving h rfl swapCmd).trans (next_conclude (swapCmd_ends hfault hstage hm))
  case cal => exact (next_serving h hf clockCmd).trans (next_conclude (clockCmd_cal hf))
  case step => exact (next_serving h (by simp [hf]) clockCmd).trans (next_conclude (clockCmd_step hf))
  case fence =>
    refine (next_serving h rfl fenceCmd).trans (next_conclude ?_)
    exact (fenceCmd_first hstage).trans (if_pos hm)
  case fenceEnds =>
    refine (next_serving h rfl fenceCmd).trans (next_conclude ?_)
    refine (fenceCmd_first hstage).trans ((if_neg (Bool.eq_false_iff.mp hm)).trans ?_)
    rw [fenceFlush_eq]
    rfl
  case log => exact (next_serving h rfl logReadCmd).trans (next_conclude (logReadCmd_ends ha hb))

/-! ### The start of a packet -/

theorem startCmd_refused {s : State} {e : Entry} {r : Res} (h : cmdCheck s e = some r) (reads : Packet → List (Nat × Nat)) :
    startCmd e reads s = (takeCmd e s).modOry fun o => { o with packets := o.packets ++ [{ packetOf e with res := some r }] } := by
  simp only [startCmd, h, Option.isSome_some, if_true]

/-- A packet that has its outcome at its start does not run. -/
theorem livePacket_refused {s : State} {e : Entry} {r : Res} {slot opc : Nat} (h : cmdCheck s e = some r)
    (hn : livePacket s slot opc = none) (reads : Packet → List (Nat × Nat)) : livePacket (startCmd e reads s) slot opc = none := by
  rw [startCmd_refused h]
  change (s.ory.packets ++ [{ packetOf e with res := some r }]).find? (fun p : Packet => p.slot = slot && p.opc = opc && p.res.isNone) = none
  rw [List.find?_append, show s.ory.packets.find? (fun p : Packet => p.slot = slot && p.opc = opc && p.res.isNone) = none from hn]
  simp

section
variable {s : State} {slot opc : Nat} {e : Entry} (hon : cmdOn s = true) (hheld : cmdHeld s opc = false) (hn : livePacket s slot opc = none)
  (hhead : cmdHead s slot opc = some e) (hmay : cmdMayStart s e = true) (hatt : s.port.att = .attached)
include hon hheld hn hhead hmay hatt

theorem runCmd_starts (reads : Packet → List (Nat × Nat)) (f : Packet → State → State) :
    runCmd slot opc anyFlags reads f s = conclude (advanceCmd slot opc f (startCmd e reads s)) := by
  simp [runCmd, hon, hheld, hn, hhead, hmay, hatt, anyFlags]

theorem runCmd_refused {r : Res} (h : cmdCheck s e = some r) (reads : Packet → List (Nat × Nat)) (f : Packet → State → State) :
    runCmd slot opc anyFlags reads f s = conclude (startCmd e reads s) := by
  simp only [runCmd_starts hon hheld hn hhead hmay hatt, advanceCmd, livePacket_refused h hn]

theorem runCmd_waits {reads : Packet → List (Nat × Nat)} {q : Packet} (hq : livePacket (startCmd e reads s) slot opc = some q)
    (hw : cmdReads (startCmd e reads s) q = .wait) (f : Packet → State → State) :
    runCmd slot opc anyFlags reads f s = conclude (startCmd e reads s) := by
  simp only [runCmd_starts hon hheld hn hhead hmay hatt, advanceCmd, hq, hw]

end

/-- Commands that read memory first: the form, its opcode, its reads, and what follows its start. -/
def readingForms : List ((SlotId → Instr) × Nat × (Packet → List (Nat × Nat)) × (State → State)) :=
  [(Instr.instCreate, 0x01, descRead, fun t => t), (Instr.instResize, 0x02, descRead, fun t => t),
   (Instr.keyDerive, 0x20, deriveRead, fun t => t), (Instr.calibrate, 0x48, (fun p => [(p.p 0, p.p 1)]), fun t => t),
   (Instr.imageStage, 0x38, imageRead, beginStage true)]

/-- A command that reads memory first runs its packet, and then what follows its start. -/
theorem exec_readingForm {s : State} {slot : SlotId} {x : (SlotId → Instr) × Nat × (Packet → List (Nat × Nat)) × (State → State)}
    (hx : x ∈ readingForms) (hn : livePacket s slot.val x.2.1 = none) :
    ∃ f, exec (x.1 slot) s = .next (x.2.2.2 (runCmd slot.val x.2.1 anyFlags x.2.2.1 f s)) := by
  simp only [readingForms, List.mem_cons, List.not_mem_nil, or_false] at hx
  rcases hx with rfl | rfl | rfl | rfl | rfl
  · exact ⟨createInst, rfl⟩
  · exact ⟨resizeInst, rfl⟩
  · exact ⟨deriveCmd, rfl⟩
  · exact ⟨calibrateCmd, rfl⟩
  · refine ⟨stageCmd, ?_⟩
    change execImageStage slot s = _
    rw [execImageStage, show livePacket s slot.val 0x38 = none from hn]
    rfl

/-- Settles O55: the packet that starts is refused with its outcome, or waits for its reads. -/
theorem packetStart : Obligations.PacketStart := by
  unfold Obligations.PacketStart
  intro s slot e x hx hon hheld hn hhead hmay hatt t
  obtain ⟨f, hf⟩ := exec_readingForm hx hn
  refine ⟨fun r hr => ⟨?_, startCmd_refused hr _⟩, fun hc q hq hw => ?_⟩
  · rw [hf, runCmd_refused hon hheld hn hhead hmay hatt hr]
  · rw [hf, runCmd_waits hon hheld hn hhead hmay hatt hq hw]

end Sys2Proof.Machine
end
